-- ==== Sys2Proof/Word.lean ====
section
/-! DEFINITION. The words of the machine and their plainest arithmetic. -/

namespace Sys2Proof

/-- A 64-bit register or memory word. -/
abbrev Word := BitVec 64
/-- The smallest addressable unit of memory (R5). -/
abbrev Byte := BitVec 8
/-- A 32-bit lane register. -/
abbrev Lane := BitVec 32

end Sys2Proof
end

