-- ==== Sys2Proof/Machine/Tab.lean ====
section
/-! DEFINITION. Sparse tables: lists of key and value pairs in one canonical form (keys strictly rising, no entry
equal to what an unlisted key reads as), so that equal tables are equal data. Local memory, the register file and
every array of the machine are held so. -/

namespace Sys2Proof

/-- A sparse table from numbers to values. -/
abbrev Tab (β : Type) := List (Nat × β)

/-- The value at a key; `d` is what an unlisted key reads as. -/
def tabGet {β : Type} (d : β) : Tab β → Nat → β
  | [], _ => d
  | (k, v) :: t, i => if i = k then v else tabGet d t i

/-- The entry listed at a key, if any. -/
def tabFind {β : Type} : Tab β → Nat → Option β
  | [], _ => none
  | (k, v) :: t, i => if i = k then some v else tabFind t i

/-- The table without what it lists at a key. -/
def tabDel {β : Type} : Tab β → Nat → Tab β
  | [], _ => []
  | (k, v) :: t, i => if i = k then tabDel t i else (k, v) :: tabDel t i

/-- The table with an entry listed at a key, whatever its value. -/
def tabIns {β : Type} : Tab β → Nat → β → Tab β
  | [], i, x => [(i, x)]
  | (k, v) :: t, i, x =>
    if i = k then (i, x) :: t else if i < k then (i, x) :: (k, v) :: t else (k, v) :: tabIns t i x

/-- The table with value `x` at key `i`: writing what an unlisted key reads as removes the entry. -/
def tabSet {β : Type} [DecidableEq β] (d : β) (t : Tab β) (i : Nat) (x : β) : Tab β :=
  if x = d then tabDel t i else tabIns t i x

/-- The keys of `t` rise strictly, from at least `lo`. -/
def tabSorted {β : Type} : Nat → Tab β → Bool
  | _, [] => true
  | lo, (k, _) :: t => decide (lo ≤ k) && tabSorted (k + 1) t

/-- No entry of `t` equals what an unlisted key reads as. -/
def tabNoDefault {β : Type} [DecidableEq β] (d : Nat → β) (t : Tab β) : Bool := t.all fun e => decide (e.2 ≠ d e.1)

/-- The canonical form. -/
def tabWf {β : Type} [DecidableEq β] (d : Nat → β) (t : Tab β) : Bool := tabSorted 0 t && tabNoDefault d t

/-- Keys of a rising table that another rising table does not list. -/
def tabGone {β : Type} : Tab β → Tab β → List Nat
  | [], _ => []
  | (k, _) :: r, t =>
    let u := t.dropWhile fun e => decide (e.1 < k)
    match u.head? with
    | some e => if e.1 = k then tabGone r u.tail else k :: tabGone r u
    | none => k :: tabGone r u

/-- Insert a number into a strictly rising list. -/
def setIns : List Nat → Nat → List Nat
  | [], i => [i]
  | k :: t, i => if i = k then k :: t else if i < k then i :: k :: t else k :: setIns t i

/-- Remove a number from a list. -/
def setDel (l : List Nat) (i : Nat) : List Nat := l.filter (· ≠ i)

/-- The first element of a list that a test accepts, replaced by `f` of it. -/
def updFirst {α : Type} (p : α → Bool) (f : α → α) : List α → List α
  | [] => []
  | a :: l => if p a then f a :: l else a :: updFirst p f l

/-- The list without the first element that a test accepts. -/
def dropFirst {α : Type} (p : α → Bool) : List α → List α
  | [] => []
  | a :: l => if p a then l else a :: dropFirst p l

end Sys2Proof
end

