-- ==== Sys2Proof/Machine/CoreTypes.lean ====
section
/-! DEFINITION. The parts of State that belong to the cores (R149 to R180), their matrix engines (R101 to R148), the
Sluices (R208 to R234), and the memory system between cores and memory: store buffers, cluster caches, the Cistern's
homes and the messages in flight (R235 to R297). -/

namespace Sys2Proof.Machine

/-- Bytes listed by offset; an unlisted byte is absent, or 0 where a whole line is meant. -/
abbrev Data := Tab Byte

/-! ### Cores -/

/-- Where an instruction issues: the logical core, the original group and the program counter of the fragment; `bad` names the
lane of the group that reads a register or a Well word with an uncorrectable error, if one does (R176); `waits` names the
program counters of the group's other fragments that are not ready, their operands or memory being awaited (R157, R160). -/
structure Issue where
  core : Nat
  group : Nat
  pc : Nat
  bad : Option Nat
  waits : List Nat
  deriving DecidableEq, Repr

/-- What a thread waits for while its program counter stands on the instruction. -/
inductive Wait where
  /-- Arrived at a barrier: scope (0 core, 1 cluster, 2 device), number, and the instruction word (R167). -/
  | bar (scope num word : Nat)
  /-- The barrier has completed and its release is on the way to this core (R169). -/
  | barDone (scope num : Nat)
  deriving DecidableEq, Repr

/-- The core block that a core runs (R152, R154). -/
structure Blk where
  launch : Nat
  ctx : Nat
  part : Nat
  index : Nat
  threads : Nat
  cluster : Bool
  resident : Bool
  wdog : Nat
  deriving DecidableEq, Repr

/-- A store-buffer entry, R240 to R244: its line, the bytes written, in a setup entry its own access. -/
structure SbEnt where
  /-- Order of opening in the whole device (the model's own serial). -/
  serial : Nat
  line : Nat
  bytes : Data
  setup : Bool
  closed : Bool
  /-- Virtual address of the first store. -/
  va : Nat
  /-- What its stores looked up of the host window and the dirty log (R52, R412); 0 elsewhere. -/
  win : Nat
  deriving DecidableEq, Repr

/-- An entry of the remote-write queue, R439. -/
structure RqEnt where
  serial : Nat
  /-- Fabric address of the entry's 128-byte line. -/
  line : Nat
  bytes : Data
  closed : Bool
  deriving DecidableEq, Repr

/-- A release or fabric fence (scope 3) that is not complete, R245, R254: the fragment that made it, its threads, its
scope and the point it covers. -/
structure Rel where
  group : Nat
  pc : Nat
  lanes : List Nat
  scope : Nat
  serial : Nat
  done : Bool
  deriving DecidableEq, Repr

/-- One atomic request of a set of lanes, R172 to R174: operation, width, address, the lane operands in lane order
(operand, second operand of a compare-and-swap); `ldr` and `stc` name the thread in `thread`. -/
structure AtomReq where
  op : Nat              -- ATOP 0 to 12; 16 LDR; 17 STC
  w64 : Bool
  addr : Nat
  lanes : List (Nat × Nat × Nat)
  thread : Nat
  /-- The operands arrived poisoned (R18). -/
  bad : Bool
  deriving DecidableEq, Repr

/-- An instruction of a fragment whose requests are out: atomics (R172), LDR and STC (R199). -/
structure Flight where
  group : Nat
  pc : Nat
  lanes : List Nat
  /-- Requests still awaited. -/
  wait : List Nat
  /-- Values returned, by lane. -/
  got : Tab Nat
  /-- A returned value was poisoned (R293). -/
  poison : Bool
  deriving DecidableEq, Repr

/-- A read response held for the threads of a fragment that sent the read, until the load issues again: narrow, host or
remote reads. -/
structure Resp where
  group : Nat
  pc : Nat
  lanes : List Nat
  addr : Nat
  bytes : List Byte
  poison : Bool
  /-- For a remote read the fabric error code in bits 7:0 and the chip above; for a host read its fault code; else 0. -/
  err : Nat
  deriving DecidableEq, Repr

/-- A read of the core in flight, by its first byte address, so that its threads send it once. -/
structure Sent where
  group : Nat
  pc : Nat
  lanes : List Nat
  addr : Nat
  id : Nat
  deriving DecidableEq, Repr

/-- A token register, R105 to R107. -/
structure Tok where
  inFlight : Bool
  status : Nat
  deriving DecidableEq, Repr

/-- A status slot of the engine, R125. -/
structure Slot where
  mode : Nat
  abase : Nat
  m : Nat
  n : Nat
  eref : Int
  tset : Bool
  ta : Nat
  tb : Nat
  ufcnt : Nat
  pcnt : Nat
  ovf : Bool
  deriving DecidableEq, Repr

/-- A queued engine operation with everything its issue read, R102, R108. -/
structure MtxOp where
  id : Nat
  group : Nat
  kd : Nat
  pc : Nat
  word : Nat
  /-- Offset of the operation record. -/
  off : Nat
  recd : List Byte
  a : List Byte
  b : List Byte
  c : List Byte
  m : List Byte
  d : List Byte
  started : Bool
  /-- K-steps of an MMA done, R146; for another operation 1 when done. -/
  steps : Nat
  /-- Status word so far, R107. -/
  status : Nat
  deriving DecidableEq, Repr

/-- A group waiting on a Sluice port, R230. -/
structure Stall where
  group : Nat
  pc : Nat
  send : Bool
  port : Nat
  word : Nat
  deriving DecidableEq, Repr

/-- An exception being taken, R178. -/
structure Exc where
  code : Nat
  group : Nat
  pc : Nat
  lanes : List Nat
  word : Nat
  va : Nat
  pa : Nat
  level : Nat
  write : Bool
  fetch : Bool
  /-- Words of the event record beyond the common ones (R171, TRAP). -/
  extra : List Nat
  deriving DecidableEq, Repr

/-- One core, R149 to R180. Registers and counters are keyed by thread × 256 + register, thread × 8 + predicate,
group × 64 + uniform and group × 16 + token. -/
structure Core where
  blk : Option Blk
  t : Tab Lane
  p : List Nat
  u : Tab Word
  tok : Tab Tok
  fstat : Tab Nat
  pc : Tab Nat
  /-- Live threads, rising. -/
  live : List Nat
  wait : Tab Wait
  /-- The Well array's scratchpad bytes and the boundary P. -/
  well : Data
  wcache : Nat
  /-- Lines of the first-level cache, oldest first (R249). -/
  lines : List (Nat × Data)
  sb : List SbEnt
  rq : List RqEnt
  rels : List Rel
  flights : List Flight
  resps : List Resp
  sent : List Sent
  acc : Data
  slots : Tab Slot
  queue : List MtxOp
  stalls : List Stall
  exc : Option Exc
  /-- Issue is stopped: pre-emption, teardown or a debug halt. -/
  stopped : Bool
  /-- Context and WCACHE of the previous launch, for R155. -/
  last : Option (Nat × Nat)
  /-- The issues of each group, and for each thread those up to its own last issue (R157). -/
  turns : Tab Nat
  lastTurn : Tab Nat
  deriving DecidableEq, Repr

/-- An idle core: nothing has run on it. -/
def Core.idle : Core :=
  { blk := none, t := [], p := [], u := [], tok := [], fstat := [], pc := [], live := [], wait := [], well := [],
    wcache := 0, lines := [], sb := [], rq := [], rels := [], flights := [], resps := [], sent := [],
    acc := [], slots := [], queue := [], stalls := [], exc := none, stopped := false, last := none, turns := [], lastTurn := [] }

/-! ### The fabric -/

/-- A packet, R423, with every field of its header; `resv` when a reserved field is not zero. -/
structure Packet where
  ty : Nat
  gcls : Nat
  hasMask : Bool
  opn : Bool
  sz : Nat
  resv : Bool
  dst : Nat
  src : Nat
  cgen : Nat
  off : Nat
  psn : Nat
  tag : Nat
  dom : Nat
  spart : Nat
  status : Nat
  sinst : Nat
  dinst : Nat
  mask : Nat
  data : List Byte
  deriving DecidableEq, Repr

/-- A fabric port's link, R420 to R422, R445, R450. -/
structure Port where
  /-- FSEQ of the next data flit, and the data flits not yet acknowledged, oldest first. -/
  fseq : Nat
  replay : List (Nat × List Byte)
  /-- FSEQ expected next, and the retry requests sent for it. -/
  exp : Nat
  asked : Nat
  /-- Slots of credit held per class, and whether the partner has announced them. -/
  cred : List Nat
  gotInit : Bool
  /-- Slots of a packet that continues in the next flit. -/
  rx : List Byte
  /-- Packets received; true for a write that found the incoming write buffer full (R435). -/
  inbox : List (Packet × Bool)
  /-- Packets waiting for credit, replay space, the regulator or recovery. -/
  txq : List Packet
  /-- Slots charged to each partition in the window, and the CAP in force. -/
  charge : Tab Nat
  /-- The partition served last beyond its guarantee (R445). -/
  turn : Nat
  /-- Lanes 0 to 3 of the port that have failed. -/
  bad : List Nat
  deriving DecidableEq, Repr

/-- Who made a remote request: a core's thread (agent 0) or a Lighter's command (agent 2). -/
structure Origin where
  agent : Nat
  unit : Nat
  part : Nat
  ctx : Nat
  cgen : Nat
  /-- The Lighter's command. -/
  cmd : Nat
  /-- The multicast member, R444. -/
  member : Option Nat
  serial : Nat
  deriving DecidableEq, Repr

/-- A remote write or signal, R424, R434. -/
structure TxWr where
  psn : Nat
  off : Nat
  sz : Nat
  mask : Option Nat
  data : List Byte
  sig : Bool
  opn : Bool
  org : Origin
  /-- The port that it left by. -/
  port : Nat
  deriving DecidableEq, Repr

/-- The source side of the write connection to a peer, R434. -/
structure Conn where
  chip : Nat
  psn : Nat
  inst : Nat
  /-- The next write opens the connection. -/
  fresh : Bool
  /-- Unacknowledged writes, oldest first. -/
  out : List TxWr
  /-- Writes not yet sent: the window is full or the path has changed (R432). -/
  queue : List TxWr
  hold : Bool
  deriving DecidableEq, Repr

/-- The destination side of a source's connection, R434, R435, R442. -/
structure RConn where
  chip : Nat
  w : Nat
  /-- PSNs above W already received. -/
  got : List Nat
  inst : Nat
  /-- Writes and signals that wait for earlier writes or for their line, each with the port it came in on, and where a
  codeword of it could not be corrected the address and wire of that (R18, R442). -/
  sigs : List (Packet × Nat × Option (Nat × Nat))
  deriving DecidableEq, Repr

/-- An outstanding remote read, R437, R440. -/
structure RdOut where
  chip : Nat
  tag : Nat
  off : Nat
  sz : Nat
  org : Origin
  group : Nat
  pc : Nat
  /-- It has been reissued: its tag stays reserved. -/
  again : Bool
  deriving DecidableEq, Repr

/-- Fabric results for Lighter commands: command, chip, offset, error code (0 done), member, and read data. -/
structure FabDone where
  cmd : Nat
  chip : Nat
  off : Nat
  code : Nat
  member : Option Nat
  data : List Byte
  deriving DecidableEq, Repr

/-- The fabric attachment, R417 to R452. -/
structure Fab where
  ports : Tab Port
  conns : List Conn
  rconns : List RConn
  reads : List RdOut
  /-- Tags that must not be used again yet: chip × 65,536 + tag. -/
  burned : List Nat
  done : List FabDone
  /-- Partitions whose GF_PERR vector has been signalled. -/
  told : List Nat
  deriving DecidableEq, Repr

/-! ### Sluices -/

/-- A bound Sluice, R208 to R216. -/
structure Sluice where
  slot : Nat
  part : Nat
  ctx : Nat
  launch : Nat
  src : Nat
  sport : Nat
  dst : Nat
  dport : Nat
  maxlen : Nat
  fbase : Nat
  fsize : Nat
  stall : Nat
  /-- Path class of R221, 0 to 4. -/
  cls : Nat
  units : Nat
  msgs : Nat
  wptr : Nat
  rptr : Nat
  /-- Sent and not arrived. -/
  fly : List (List Byte)
  /-- Length queue: messages arrived, with their units and poison. -/
  lens : List (Nat × Bool)
  /-- Credit returns under way: units of each consumed message. -/
  back : List Nat
  deriving DecidableEq, Repr

/-! ### Coherence -/

inductive CState where
  | S | E | M
  deriving DecidableEq, Repr

/-- A line of a cluster cache, R275; poison by sector. -/
structure CcLine where
  st : CState
  data : Data
  poison : Nat
  deriving DecidableEq, Repr

/-- Bytes that a cluster cache has accepted and that wait for write permission, R245. -/
structure PendW where
  serial : Nat
  cluster : Nat
  line : Nat
  bytes : Data
  deriving DecidableEq, Repr

/-- A write-back buffer entry, R275, R283. -/
structure WbEnt where
  cluster : Nat
  line : Nat
  dirty : Bool
  data : Data
  poison : Nat
  /-- The notice has reached the home. -/
  noticed : Bool
  /-- The entry has answered a snoop (WBP). -/
  taken : Bool
  /-- The home's WB_ACK is on its way. -/
  acked : Bool
  /-- The home has its data: the first of notice and WBP reply to bring it (R283). -/
  home : Bool
  /-- Order of sending among the cluster cache's messages (R277). -/
  serial : Nat
  deriving DecidableEq, Repr

/-- A directory entry, R276, with the model's own stamp of its last use. -/
inductive Dir where
  | shared (clusters : List Nat)
  | owner (k : Nat)
  deriving DecidableEq, Repr

structure DirEnt where
  st : Dir
  use : Nat
  deriving DecidableEq, Repr

/-- A line of the data array, R266; masks by sector, and stamps of last use and of its fill. -/
structure CisLine where
  slice : Nat
  set : Nat
  way : Nat
  data : Data
  sv : Nat
  sd : Nat
  sp : Nat
  pin : Bool
  use : Nat
  deriving DecidableEq, Repr

/-- A request to a home, R278. -/
inductive ReqKind where
  | rdShared (na : Bool)
  | rdOwn
  | upgrade
  | rdOnce
  | rdNarrow
  /-- Bytes to write; `poison` masks the sectors whose bytes arrived poisoned (R18). -/
  | wrLine (bytes : Data) (poison : Nat)
  | wrPart (bytes : Data) (poison : Nat)
  | atomic (a : AtomReq)
  | red (a : AtomReq)
  /-- The home's own work on a line: eviction of its directory entry (R281). -/
  | dirEvict
  deriving DecidableEq, Repr

structure Req where
  id : Nat
  kind : ReqKind
  addr : Nat
  /-- 0 core, 1 Pump, 2 Lighter, 3 front end, 4 host through BAR4, 5 incoming fabric; 9 the home itself; 16 a read that a
  step of the model waits for, `unit` naming the reader. -/
  agent : Nat
  unit : Nat
  cluster : Nat
  ctx : Nat
  group : Nat
  pc : Nat
  /-- Counter class of R296. -/
  cls : Nat
  serial : Nat
  deriving DecidableEq, Repr

/-- A snoop in flight: 0 share, 1 inv, 2 move, 3 peek, 4 recall. -/
structure Snoop where
  line : Nat
  target : Nat
  kind : Nat
  /-- The requesting cluster, for share and move. -/
  dest : Nat
  deriving DecidableEq, Repr

/-- A snoop reply in flight. -/
structure SReply where
  line : Nat
  cluster : Nat
  present : Bool
  /-- Data returned to the home, when the line was in M. -/
  data : Option (Data × Nat)
  /-- The line was forwarded to the requester. -/
  forwarded : Bool
  wbp : Bool
  deriving DecidableEq, Repr

/-- Data or permission on its way to a cluster cache. -/
structure Grant where
  line : Nat
  cluster : Nat
  st : CState
  data : Option (Data × Nat)
  deriving DecidableEq, Repr

/-- A transaction in progress on a line, R279. -/
structure Txn where
  req : Req
  /-- Clusters whose snoop reply is awaited. -/
  await : List Nat
  /-- Clusters whose crossing write-back notice is awaited (R283). -/
  wbs : List Nat
  /-- A memory read is wanted: it is out, or waits for entries of its channel (R305). -/
  mem : Bool
  /-- Entries of the channel that the read holds. -/
  ents : Nat
  /-- Requests that joined the merge entry (R284). -/
  joiners : List Req
  /-- The owner has forwarded the line to the requester. -/
  forwarded : Bool
  /-- The request has been served. -/
  served : Bool
  /-- The transaction holds one of the slice's merge entries (R284). -/
  entry : Bool
  /-- The line that its owner returned to a SNP_PEEK, which is only for the answer (R280). -/
  peek : Option (Data × Nat)
  deriving DecidableEq, Repr

/-- A buffered reduction, R292. -/
structure RedEnt where
  line : Nat
  slice : Nat
  a : AtomReq
  serial : Nat
  /-- The requests in it that the home has not acknowledged (R291): identifier and core. -/
  wait : List (Nat × Nat)
  /-- Requests that have combined in it. -/
  n : Nat
  deriving DecidableEq, Repr

/-- What a home answered to a read that a step waits for (R279): reader, address, narrow or not, the line, its poison. -/
structure Got where
  who : Nat
  addr : Nat
  narrow : Bool
  data : Data
  poison : Nat
  deriving DecidableEq, Repr

/-- A reservation, R252, oldest first in its slice. -/
structure Resv where
  slice : Nat
  granule : Nat
  thread : Nat
  ctx : Nat
  deriving DecidableEq, Repr

/-- A stream tracker, R285. -/
structure Tracker where
  cluster : Nat
  last : Nat
  /-- 0 not yet known, 1 ascending, 2 descending. -/
  dir : Nat
  hits : Nat
  deriving DecidableEq, Repr

/-- The coherent memory system. -/
structure Coh where
  /-- The model's own serial of memory operations. -/
  serial : Nat
  cc : Tab CcLine
  pend : List PendW
  wb : List WbEnt
  dir : Tab DirEnt
  cis : Tab CisLine
  reqs : List Req
  snoops : List Snoop
  replies : List SReply
  grants : List Grant
  txns : Tab Txn
  /-- Requests waiting for a busy line, in arrival order. -/
  waitq : List Req
  /-- Reductions that wait at a slice's input for a full buffer, in arrival order (R292). -/
  redWait : List Req
  reds : List RedEnt
  resv : List Resv
  trackers : List Tracker
  /-- A rehome in progress: the register written and its new value (R271). -/
  rehome : Option (Nat × BitVec 64)
  /-- Directory sets being rebuilt: slice and set (R294). -/
  rebuild : List (Nat × Nat)
  /-- Pin operations under way, by partition: 8 + operation, or the status that ends it at once; first line; lines to do;
  lines left unpinned so far. -/
  pinning : Tab (Nat × Nat × Nat × Nat)
  /-- Slices whose state is being copied to a spare, by logical slice (R295). -/
  copying : List Nat
  /-- Set within one step by a read that its home cannot serve yet: of that step only its requests stay (the model's
  own). -/
  stalled : Bool
  /-- The requests of such a step. -/
  asked : List Req
  /-- Answers that wait for the step to be taken again. -/
  got : List Got
  deriving DecidableEq, Repr

def Coh.reset : Coh :=
  { serial := 0, cc := [], pend := [], wb := [], dir := [], cis := [], reqs := [], snoops := [], replies := [],
    grants := [], txns := [], waitq := [], redWait := [], reds := [], resv := [], trackers := [], rehome := none,
    rebuild := [], pinning := [], copying := [], stalled := false, asked := [], got := [] }

end Sys2Proof.Machine
end

