-- ==== Sys2Proof/Machine/Msg.lean ====
section
/-! DEFINITION. What crosses the device's edge: the messages the Peold sends (kept in the order it sends them) and the
records that commands carry as operands. -/

namespace Sys2Proof

/-- Everything the Peold sends out, in the order it sends it. -/
inductive Emit where
  /-- A posted write to the host: Requester function, host bus address, data, No Snoop, and the Quay whose modules carry
  it (R32, R50, R53). -/
  | hostWrite (func addr : Nat) (data : List Byte) (ns : Bool) (quay : Nat)
  /-- A read request to the host: Requester function, host bus address, length, No Snoop, Quay (R32, R50). -/
  | hostRead (func addr len : Nat) (ns : Bool) (quay : Nat)
  /-- An MSI-X message of a function's vector: the table entry's address and data, Quay (R32, R40, R41). -/
  | msix (func vec addr data quay : Nat)
  /-- A successful completion with data; EP set where poison (R39). Every completion names the Quay whose modules carry it
  (R32). -/
  | cplData (data : List Byte) (poison : Bool) (quay : Nat)
  /-- A completion with Unsupported Request (R37, R39). -/
  | cplUR (quay : Nat)
  /-- A completion with Completer Abort (R462). -/
  | cplCA (quay : Nat)
  /-- A completion with Request Retry Status (R480). -/
  | cplRRS (quay : Nat)
  /-- A successful completion without data. -/
  | cplOk (quay : Nat)
  /-- A line that a home returns to a Pump, a Lighter, the front end, the host or the fabric as the answer to RD_ONCE
  or RD_NARROW (R280): agent, unit, address, the line, poison. -/
  | lineData (agent unit addr : Nat) (data : List Byte) (poison : Bool)
  /-- A 256-byte link flit of a fabric port (R420). -/
  | flit (port : Nat) (bytes : List Byte)
  /-- A message on the I3C bus (R494, R497, R560). -/
  | i3c (data : List Byte)
  /-- A Data Object Exchange response of a function (R497). -/
  | doe (func : Nat) (data : List Byte)
  /-- A voltage write on AVSBus: rail, millivolts (R455). -/
  | avs (rail mv : Nat)
  /-- THERMTRIP_N driven: true asserted (R462, R559). -/
  | thermtrip (on : Bool)
  /-- Bits shifted out on TDO (R538). -/
  | tdo (bits : List Bool)
  /-- Boundary outputs driven by the test access port: instruction code, cells (R538). -/
  | boundary (code : Nat) (cells : List Bool)
  deriving DecidableEq, Repr

/-- A board input whose filter PW_PIN_STAT reports, R556. -/
inductive Pin where
  | pwrGood | pkgReset | coolant | vrAlert | trst
  deriving DecidableEq, Repr

/-- The PW_PIN_STAT index of an input, R556. -/
def Pin.index : Pin → Nat
  | .pwrGood => 0
  | .pkgReset => 1
  | .coolant => 2
  | .vrAlert => 3
  | .trst => 4

/-- The binding an SPDM request came through, R497. -/
inductive SpdmBind where
  | i3c
  | doe (func : Nat)
  deriving DecidableEq, Repr

/-- Whose posted write to the host a report of the root port concerns, R53. -/
inductive PostedBy where
  /-- A store of a core: context, virtual and physical address. -/
  | store (core ctx va pa : Nat)
  /-- A write of a Pump (agent 1) or Lighter (agent 2): the command, the unit, context, virtual and physical address. -/
  | engine (agent cmd unit ctx va pa : Nat)
  /-- The last completion record of a queue. -/
  | record (queue : Nat)
  /-- A SIGNAL of a queue. -/
  | signal (queue va pa : Nat)
  deriving DecidableEq, Repr

end Sys2Proof
end

