-- ==== Sys2Proof/Syntax.lean ====
section
/-! DEFINITION. The commands of the Peold: one constructor per row of the opcode table, with what the row's agent
delivers (an address, a value, a length, a reading) as operands. -/

namespace Sys2Proof

/-- A command: one operation, transaction or event of the Peold. -/
inductive Instr where
  /-- END_OF_RESET, R479. -/
  | endOfReset (samples : List Bool)
  /-- PLL_LOCKED, R479. -/
  | pllLocked (ok : Bool)
  /-- ROM_SELF_TEST_DONE, R479. -/
  | romSelfTestDone (ok0 ok1 : Bool)
  /-- LEAD_DECISION, R483. -/
  | leadDecision (inTime : Bool)
  /-- FIRMWARE_VERIFIED, R488. -/
  | firmwareVerified (dev0 dev1 readA readB : Bool) (seed : Option (List Byte))
  /-- UCIE_TRAINED, R479. -/
  | ucieTrained (mods : List Nat)
  /-- INTERCONNECT_TEST_DONE, R479. -/
  | interconnectTestDone (failed : List Nat) (stitchOk : Bool)
  /-- REPAIR_RECORD_READ, R482. -/
  | repairRecordRead (read0 read1 : Bool)
  /-- SELF_TEST_DONE, R479. -/
  | selfTestDone (failed : List (Nat × Nat)) (noPath : List Nat) (complexOk : Bool)
  /-- CONFIGURATION_APPLY, R503. -/
  | configurationApply
  /-- MEMORY_CLEAR_COMPLETE, R318. -/
  | memoryClearComplete
  /-- DEVICE_READY, R479. -/
  | deviceReady (time : Nat)
  /-- PCIE_CONFIG_REQUEST, R480. -/
  | pcieConfigRequest (mod func word : Nat) (wr : Option (BitVec 32)) (vfe : Option Bool)
  /-- PWR_GOOD_ASSERT, R556. -/
  | pwrGoodAssert (samples : List Bool)
  /-- PWR_GOOD_DEASSERT, R556. -/
  | pwrGoodDeassert (samples : List Bool)
  /-- PKG_RESET_ASSERT, R484. -/
  | pkgResetAssert (samples : List Bool)
  /-- COOLANT_FAULT_ASSERT, R472. -/
  | coolantFaultAssert (samples : List Bool)
  /-- COOLANT_FAULT_DEASSERT, R557. -/
  | coolantFaultDeassert (samples : List Bool)
  /-- VR_ALERT_ASSERT, R473. -/
  | vrAlertAssert (samples : List Bool)
  /-- VR_ALERT_DEASSERT, R473. -/
  | vrAlertDeassert (samples : List Bool)
  /-- VR_ALERT_HOLD_END, R473. -/
  | vrAlertHoldEnd
  /-- TAP_RESET, R556. -/
  | tapReset (samples : List Bool)
  /-- INPUT_CHATTER_START, R555. -/
  | inputChatterStart (pin : Pin) (samples : List Bool)
  /-- INPUT_CHATTER_END, R555. -/
  | inputChatterEnd (pin : Pin) (samples : List Bool)
  /-- INPUT_STUCK, R555. -/
  | inputStuck (pin : Pin)
  /-- SUPPLY_OUT_OF_RANGE, R552. -/
  | supplyOutOfRange (supply mv : Nat)
  /-- REFCLK_LOSS, R554. -/
  | refclkLoss
  /-- REFCLK_RECOVERED, R554. -/
  | refclkRecovered
  /-- WEAR_THRESHOLD_REACHED, R515. -/
  | wearThresholdReached (kind unit extra symbols : Nat)
  /-- WEAR_WINDOW_END, R514. -/
  | wearWindowEnd
  /-- SUBSTITUTION_DRAIN_COMPLETE, R23. -/
  | substitutionDrainComplete (phys : Nat)
  /-- SUBSTITUTION_TRAINING_RESULT, R25. -/
  | substitutionTrainingResult (phys : Nat) (ok : Bool)
  /-- UCIE_MODULE_FAILURE, R33. -/
  | ucieModuleFailure (mod : Nat)
  /-- REGISTER_WRITE, R7. -/
  | registerWrite (func off width : Nat) (v : BitVec 64)
  /-- BAR0_UNSUPPORTED_ACCESS, R37. -/
  | bar0UnsupportedAccess (mod func off width : Nat) (write : Bool)
  /-- DOORBELL, R360. -/
  | doorbell (func off width : Nat) (v : BitVec 64)
  /-- BAR4_READ, R39. -/
  | bar4Read (mod func off k : Nat) (link : Option Nat)
  /-- BAR4_WRITE, R39. -/
  | bar4Write (func off : Nat) (data : List Byte) (link : Option (Nat × Nat))
  /-- HOST_WINDOW_SYNC, R52. -/
  | hostWindowSync
  /-- HOST_WINDOW_SYNC_DONE, R52. -/
  | hostWindowSyncDone
  /-- HOST_READ_COMPLETION, R53. -/
  | hostReadCompletion (id err : Nat) (data : List Byte) (link : Option Nat)
  /-- HOST_POSTED_WRITE_ERROR, R53. -/
  | hostPostedWriteError (by' : PostedBy)
  /-- HOST_COMPLETION_TIMEOUT, R53. -/
  | hostCompletionTimeout (id : Nat)
  /-- D3HOT_ENTRY, R35. -/
  | d3hotEntry
  /-- D0_RETURN, R475. -/
  | d0Return
  /-- PAGE_WALK_ENTRY_READ, R56. -/
  | pageWalkEntryRead (core va : Nat)
  /-- FAULT_LOG_CLEAR, R64. -/
  | faultLogClear (func p : Nat) (v : BitVec 64)
  /-- XLAT_INVALIDATE, R60. -/
  | xlatInvalidate (func : Nat) (v : BitVec 64)
  /-- XLAT_INVALIDATE_DONE, R61. -/
  | xlatInvalidateDone (func : Nat)
  /-- MOV, R188. -/
  | mov (at' : Machine.Issue) (w : BitVec 128)
  /-- ADD, R188. -/
  | add (at' : Machine.Issue) (w : BitVec 128)
  /-- SUB, R188. -/
  | sub (at' : Machine.Issue) (w : BitVec 128)
  /-- ADDC, R188. -/
  | addc (at' : Machine.Issue) (w : BitVec 128)
  /-- MUL, R188. -/
  | mul (at' : Machine.Issue) (w : BitVec 128)
  /-- MULHI, R188. -/
  | mulhi (at' : Machine.Issue) (w : BitVec 128)
  /-- MAD, R188. -/
  | mad (at' : Machine.Issue) (w : BitVec 128)
  /-- AND, R188. -/
  | and (at' : Machine.Issue) (w : BitVec 128)
  /-- OR, R188. -/
  | or (at' : Machine.Issue) (w : BitVec 128)
  /-- XOR, R188. -/
  | xor (at' : Machine.Issue) (w : BitVec 128)
  /-- NOT, R188. -/
  | not (at' : Machine.Issue) (w : BitVec 128)
  /-- SHL, R188. -/
  | shl (at' : Machine.Issue) (w : BitVec 128)
  /-- SHR, R188. -/
  | shr (at' : Machine.Issue) (w : BitVec 128)
  /-- MIN, R188. -/
  | min (at' : Machine.Issue) (w : BitVec 128)
  /-- MAX, R188. -/
  | max (at' : Machine.Issue) (w : BitVec 128)
  /-- SETP, R188. -/
  | setp (at' : Machine.Issue) (w : BitVec 128)
  /-- SEL, R188. -/
  | sel (at' : Machine.Issue) (w : BitVec 128)
  /-- PLOP, R188. -/
  | plop (at' : Machine.Issue) (w : BitVec 128)
  /-- POPC, R188. -/
  | popc (at' : Machine.Issue) (w : BitVec 128)
  /-- CLZ, R188. -/
  | clz (at' : Machine.Issue) (w : BitVec 128)
  /-- SHFL, R189. -/
  | shfl (at' : Machine.Issue) (w : BitVec 128)
  /-- VOTE, R189. -/
  | vote (at' : Machine.Issue) (w : BitVec 128)
  /-- LRED, R189. -/
  | lred (at' : Machine.Issue) (w : BitVec 128)
  /-- FADD, R191. -/
  | fadd (at' : Machine.Issue) (w : BitVec 128)
  /-- FMUL, R191. -/
  | fmul (at' : Machine.Issue) (w : BitVec 128)
  /-- FFMA, R191. -/
  | ffma (at' : Machine.Issue) (w : BitVec 128)
  /-- FMIN, R191. -/
  | fmin (at' : Machine.Issue) (w : BitVec 128)
  /-- FMAX, R191. -/
  | fmax (at' : Machine.Issue) (w : BitVec 128)
  /-- FSETP, R191. -/
  | fsetp (at' : Machine.Issue) (w : BitVec 128)
  /-- CVT, R192. -/
  | cvt (at' : Machine.Issue) (w : BitVec 128)
  /-- SFU, R162. -/
  | sfu (at' : Machine.Issue) (w : BitVec 128)
  /-- UMOV, R193. -/
  | umov (at' : Machine.Issue) (w : BitVec 128)
  /-- UADD, R193. -/
  | uadd (at' : Machine.Issue) (w : BitVec 128)
  /-- USUB, R193. -/
  | usub (at' : Machine.Issue) (w : BitVec 128)
  /-- UAND, R193. -/
  | uand (at' : Machine.Issue) (w : BitVec 128)
  /-- UOR, R193. -/
  | uor (at' : Machine.Issue) (w : BitVec 128)
  /-- UXOR, R193. -/
  | uxor (at' : Machine.Issue) (w : BitVec 128)
  /-- USHL, R193. -/
  | ushl (at' : Machine.Issue) (w : BitVec 128)
  /-- USHR, R193. -/
  | ushr (at' : Machine.Issue) (w : BitVec 128)
  /-- UMUL, R193. -/
  | umul (at' : Machine.Issue) (w : BitVec 128)
  /-- UFIRST, R193. -/
  | ufirst (at' : Machine.Issue) (w : BitVec 128)
  /-- LD8U, R196. -/
  | ld8u (at' : Machine.Issue) (w : BitVec 128)
  /-- LD8S, R196. -/
  | ld8s (at' : Machine.Issue) (w : BitVec 128)
  /-- LD16U, R196. -/
  | ld16u (at' : Machine.Issue) (w : BitVec 128)
  /-- LD16S, R196. -/
  | ld16s (at' : Machine.Issue) (w : BitVec 128)
  /-- LD32, R196. -/
  | ld32 (at' : Machine.Issue) (w : BitVec 128)
  /-- LD64, R196. -/
  | ld64 (at' : Machine.Issue) (w : BitVec 128)
  /-- LD128, R196. -/
  | ld128 (at' : Machine.Issue) (w : BitVec 128)
  /-- ST8, R196. -/
  | st8 (at' : Machine.Issue) (w : BitVec 128)
  /-- ST16, R196. -/
  | st16 (at' : Machine.Issue) (w : BitVec 128)
  /-- ST32, R196. -/
  | st32 (at' : Machine.Issue) (w : BitVec 128)
  /-- ST64, R196. -/
  | st64 (at' : Machine.Issue) (w : BitVec 128)
  /-- ST128, R196. -/
  | st128 (at' : Machine.Issue) (w : BitVec 128)
  /-- ATOM, R198. -/
  | atom (at' : Machine.Issue) (w : BitVec 128)
  /-- ATOMS, R198. -/
  | atoms (at' : Machine.Issue) (w : BitVec 128)
  /-- LDR, R199. -/
  | ldr (at' : Machine.Issue) (w : BitVec 128)
  /-- STC, R199. -/
  | stc (at' : Machine.Issue) (w : BitVec 128)
  /-- FENCE, R247. -/
  | fence (at' : Machine.Issue) (w : BitVec 128)
  /-- RELEASE_COMPLETE, R245. -/
  | releaseComplete (at' : Machine.Issue)
  /-- FFENCE, R254. -/
  | ffence (at' : Machine.Issue) (w : BitVec 128)
  /-- FFENCE_COMPLETE, R254. -/
  | ffenceComplete (at' : Machine.Issue)
  /-- BAR, R167. -/
  | bar (at' : Machine.Issue) (w : BitVec 128)
  /-- DEVICE_BARRIER_ARRIVAL, R169. -/
  | deviceBarrierArrival (launch num block : Nat)
  /-- DEVICE_BARRIER_RELEASE, R169. -/
  | deviceBarrierRelease (core num : Nat)
  /-- BARRIER_WATCHDOG_EXPIRY, R171. -/
  | barrierWatchdogExpiry (core scope num : Nat)
  /-- NOP, R201. -/
  | nop (at' : Machine.Issue) (w : BitVec 128)
  /-- BRA, R201. -/
  | bra (at' : Machine.Issue) (w : BitVec 128)
  /-- BRX, R201. -/
  | brx (at' : Machine.Issue) (w : BitVec 128)
  /-- CALL, R201. -/
  | call (at' : Machine.Issue) (w : BitVec 128)
  /-- CALLX, R201. -/
  | callx (at' : Machine.Issue) (w : BitVec 128)
  /-- EXIT, R151. -/
  | exit (at' : Machine.Issue) (w : BitVec 128)
  /-- TRAP, R201. -/
  | trap (at' : Machine.Issue) (w : BitVec 128)
  /-- EXCEPTION_DRAIN_COMPLETE, R178. -/
  | exceptionDrainComplete (core : Nat)
  /-- FSTATRD, R201. -/
  | fstatrd (at' : Machine.Issue) (w : BitVec 128)
  /-- FSTATCLR, R201. -/
  | fstatclr (at' : Machine.Issue) (w : BitVec 128)
  /-- MISSUE, R102. -/
  | missue (at' : Machine.Issue) (w : BitVec 128)
  /-- MWAIT, R106. -/
  | mwait (at' : Machine.Issue) (w : BitVec 128)
  /-- MTX_OPERATION_START, R108. -/
  | mtxOperationStart (core id : Nat)
  /-- MMA, R127. -/
  | mma (core id steps : Nat)
  /-- READ, R128. -/
  | read (core id : Nat)
  /-- READRAW, R131. -/
  | readraw (core id : Nat)
  /-- LOAD, R132. -/
  | load (core id : Nat)
  /-- MTX_OPERATION_COMPLETE, R106. -/
  | mtxOperationComplete (core id : Nat)
  /-- LIMITER_FRAME_BOUNDARY, R138. -/
  | limiterFrameBoundary (half beats : Nat)
  /-- SSEND, R217. -/
  | ssend (at' : Machine.Issue) (w : BitVec 128)
  /-- SRECV, R217. -/
  | srecv (at' : Machine.Issue) (w : BitVec 128)
  /-- SSENDM, R218. -/
  | ssendm (at' : Machine.Issue) (w : BitVec 128)
  /-- SRECVM, R218. -/
  | srecvm (at' : Machine.Issue) (w : BitVec 128)
  /-- BWAIT, R205. -/
  | bwait (at' : Machine.Issue) (w : BitVec 128)
  /-- SLUICE_MESSAGE_ARRIVAL, R213. -/
  | sluiceMessageArrival (slot dst dport late : Nat) (bad : Option Nat)
  /-- SLUICE_CREDIT_RETURN, R214. -/
  | sluiceCreditReturn (slot dst dport : Nat)
  /-- SLUICE_STALL_TIMEOUT, R230. -/
  | sluiceStallTimeout (core group : Nat)
  /-- PIPE_RECORD_CLEAR, R227. -/
  | pipeRecordClear (slot : Nat) (v : BitVec 64)
  /-- SL_SHARE_WRITE, R225. -/
  | slShareWrite (p : Nat) (v : BitVec 64)
  /-- CORE_BLOCK_DISPATCH, R154. -/
  | coreBlockDispatch (launch core : Nat)
  /-- CORE_BLOCK_COMPLETE, R256. -/
  | coreBlockComplete (core : Nat)
  /-- STORE_BUFFER_ENTRY_CLOSE, R241. -/
  | storeBufferEntryClose (core serial : Nat)
  /-- STORE_BUFFER_ENTRY_DRAIN, R243. -/
  | storeBufferEntryDrain (core : Nat)
  /-- REMOTE_WRITE_ENTRY_CLOSE, R439. -/
  | remoteWriteEntryClose (core line : Nat)
  /-- CORE_POWER_GATE, R475. -/
  | corePowerGate (core : Nat)
  /-- CORE_UNGATE, R475. -/
  | coreUngate (core : Nat)
  /-- RD_SHARED, R280. -/
  | rdShared (id err : Nat)
  /-- DIRECTORY_REBUILD_COMPLETE, R294. -/
  | directoryRebuildComplete (slice set : Nat)
  /-- RD_OWN, R280. -/
  | rdOwn (id err : Nat)
  /-- UPGRADE, R280. -/
  | upgrade (id err : Nat)
  /-- WB_DIRTY, R280. -/
  | wbDirty (cluster line : Nat) (link : Option (Nat × Nat))
  /-- WB_CLEAN, R280. -/
  | wbClean (cluster line : Nat)
  /-- RD_ONCE, R280. -/
  | rdOnce (agent unit addr err : Nat)
  /-- RD_NARROW, R280. -/
  | rdNarrow (id err : Nat)
  /-- WR_LINE, R280. -/
  | wrLine (agent unit line err : Nat) (data : List Byte) (link : Option (Nat × Nat))
  /-- WR_PART, R280. -/
  | wrPart (agent unit addr err : Nat) (data : List Byte) (link : Option (Nat × Nat))
  /-- ATOMIC, R290. -/
  | atomic (id err : Nat) (link : Option Nat)
  /-- RED, R291. -/
  | red (id waited err : Nat) (link : Option Nat)
  /-- REDUCTION_BUFFER_APPLY, R292. -/
  | reductionBufferApply (line : Nat)
  /-- SNP_SHARE, R280. -/
  | snpShare (cluster line : Nat) (crossed : Bool)
  /-- SNP_INV, R280. -/
  | snpInv (cluster line : Nat) (crossed : Bool)
  /-- SNP_MOVE, R280. -/
  | snpMove (cluster line : Nat) (crossed : Bool)
  /-- SNP_PEEK, R280. -/
  | snpPeek (cluster line : Nat) (crossed : Bool)
  /-- SNP_RECALL, R280. -/
  | snpRecall (cluster line : Nat) (crossed : Bool)
  /-- SNOOP_REPLY, R283. -/
  | snoopReply (cluster line : Nat) (link : Option (Nat × Nat))
  /-- WB_ACK, R275. -/
  | wbAck (cluster line : Nat)
  /-- CLUSTER_FILL_RESPONSE, R280. -/
  | clusterFillResponse (cluster line : Nat) (victim : Option Nat) (link : Option (Nat × Nat))
  /-- HOME_TRANSACTION_COMPLETE, R279. -/
  | homeTransactionComplete (line : Nat)
  /-- MEMORY_READ_RESPONSE, R302. -/
  | memoryReadResponse (line : Nat) (errs : List (Nat × Nat)) (recent : Bool) (link : Option (Nat × Nat))
  /-- NARROW_READ_RESPONSE, R302. -/
  | narrowReadResponse (line err : Nat) (link : Option Nat)
  /-- STREAM_TRACKER_EXPIRY, R285. -/
  | streamTrackerExpiry (cluster last : Nat)
  /-- CS_PSLICE_WRITE, R271. -/
  | csPsliceWrite (p w : Nat) (v : BitVec 64)
  /-- CS_HOMEMAP_WRITE, R271. -/
  | csHomemapWrite (c : Nat) (v : BitVec 64)
  /-- REHOME_COMPLETE, R271. -/
  | rehomeComplete
  /-- PINWAYS_WRITE, R286. -/
  | pinwaysWrite (p : Nat) (v : BitVec 64)
  /-- CS_FLUSH, R272. -/
  | csFlush (p : Nat)
  /-- FLUSH_COMPLETE, R272. -/
  | flushComplete (p : Nat)
  /-- PIN, R287. -/
  | pin (p : Nat)
  /-- UNPIN_RANGE, R287. -/
  | unpinRange (p : Nat)
  /-- UNPIN_ALL, R287. -/
  | unpinAll (p : Nat)
  /-- PIN_OPERATION_COMPLETE, R287; `recent` of the ordinary lines it evicts were filled fewer than 8,192 N-clocks before
  (R289). -/
  | pinOperationComplete (p recent : Nat)
  /-- SLICE_COPY_COMPLETE, R295. -/
  | sliceCopyComplete (slice : Nat)
  /-- ROW_IDLE_CLOSE, R304. -/
  | rowIdleClose (channel bank : Nat)
  /-- REFRESH, R308. -/
  | refresh (channel bank : Nat)
  /-- REFRESH_BAND_FALL, R308. -/
  | refreshBandFall (stack : Nat)
  /-- CHANNEL_RESPONSE_TIMEOUT, R311. -/
  | channelResponseTimeout (channel : Nat) (retrain : Bool)
  /-- PATROL_SCRUB_READ, R313. -/
  | patrolScrubRead (addr err : Nat)
  /-- ROW_REMAP_COMPLETE, R314. -/
  | rowRemapComplete (row : Nat) (bad : List Nat)
  /-- MC_EVAC_REQUEST, R315. -/
  | mcEvacRequest (ch : Nat)
  /-- EVAC_SPARE_TRAINED, R315. -/
  | evacSpareTrained (stack : Nat) (ok : Bool)
  /-- EVAC_ROW_COPY, R315. -/
  | evacRowCopy (stack : Nat) (bad : List Nat)
  /-- MC_WINDOW_BOUNDARY, R319. -/
  | mcWindowBoundary (channel : Nat)
  /-- MC_REG_WRITE, R321. -/
  | mcRegWrite (p : Nat) (v : BitVec 64)
  /-- PUMP_BLOCK_DECODE, R336. -/
  | pumpBlockDecode (cmd : Nat)
  /-- PUMP_TARGET_DROP, R329. -/
  | pumpTargetDrop (cmd entry : Nat)
  /-- GATHER_LIST_ENTRY, R338. -/
  | gatherListEntry (cmd : Nat)
  /-- ACCESS_TIMEOUT, R345. -/
  | accessTimeout (cmd : Nat)
  /-- PUMP_LIGHTER_COMMAND_COMPLETE, R342. -/
  | pumpLighterCommandComplete (cmd charge : Nat)
  /-- PUMP_LIGHTER_RESTART, R349. -/
  | pumpLighterRestart (cmd : Nat)
  /-- COMMAND_FETCH, R364. -/
  | commandFetch (queue parent err cover : Nat) (data : List Byte)
  /-- CMD_NOP, R362. -/
  | cmdNop (cmd : Nat)
  /-- LAUNCH, R363. -/
  | launch (cmd : Nat)
  /-- LAUNCH_GRAPH, R375. -/
  | launchGraph (cmd : Nat)
  /-- GRAPH_DEFINE, R374. -/
  | graphDefine (cmd : Nat)
  /-- GRAPH_PATCH, R376. -/
  | graphPatch (cmd : Nat)
  /-- GRAPH_DELETE, R374. -/
  | graphDelete (cmd : Nat)
  /-- COPY, R340. -/
  | copy (cmd : Nat)
  /-- FILL, R340. -/
  | fill (cmd : Nat)
  /-- PUMP_STREAM, R327. -/
  | pumpStream (cmd : Nat)
  /-- PUMP_GATHER, R337. -/
  | pumpGather (cmd : Nat)
  /-- WAIT_MEMORY, R366. -/
  | waitMemory (cmd : Nat)
  /-- WAIT_QUEUE, R366. -/
  | waitQueue (cmd : Nat)
  /-- WAIT_REREAD, R366. -/
  | waitReread (cmd : Nat)
  /-- SIGNAL, R365. -/
  | signal (cmd : Nat)
  /-- CMD_FENCE, R365. -/
  | cmdFence (cmd : Nat)
  /-- COND_BEGIN, R369. -/
  | condBegin (cmd : Nat)
  /-- COND_ELSE, R369. -/
  | condElse (cmd : Nat)
  /-- COND_END, R369. -/
  | condEnd (cmd : Nat)
  /-- LOOP_BEGIN, R369. -/
  | loopBegin (cmd : Nat)
  /-- LOOP_END, R369. -/
  | loopEnd (cmd : Nat)
  /-- CMD_CALL, R368. -/
  | cmdCall (cmd : Nat)
  /-- BERTH_POST, R371. -/
  | berthPost (cmd : Nat)
  /-- SNAPSHOT, R363. -/
  | snapshot (cmd : Nat)
  /-- FABRIC_PUT, R341. -/
  | fabricPut (cmd : Nat)
  /-- FABRIC_GET, R340. -/
  | fabricGet (cmd : Nat)
  /-- REGULATE_MC_REG, R363. -/
  | regulateMcReg (cmd : Nat)
  /-- REGULATE_FABRIC, R445. -/
  | regulateFabric (cmd : Nat)
  /-- REGULATE_POWER_LIMIT, R469. -/
  | regulatePowerLimit (cmd : Nat)
  /-- REGULATE_SL_SHARE, R363. -/
  | regulateSlShare (cmd : Nat)
  /-- CONFIG_SELECT_CURRENT, R504. -/
  | configSelectCurrent (cmd : Nat)
  /-- CONFIG_SELECT_PREVIOUS, R504. -/
  | configSelectPrevious (cmd : Nat)
  /-- CONFIG_SELECT_FACTORY, R504. -/
  | configSelectFactory (cmd : Nat)
  /-- COMMAND_COMPLETE, R367. -/
  | commandComplete (cmd : Nat)
  /-- HEAD_SHADOW_READ, R378. -/
  | headShadowRead (q err value : Nat)
  /-- COMMAND_WATCHDOG_EXPIRY, R384. -/
  | commandWatchdogExpiry (cmd : Nat)
  /-- GUILTY_RESET_COMPLETE, R385. -/
  | guiltyResetComplete (queue : Nat)
  /-- NP_OVERRUN_LIMIT, R400. -/
  | npOverrunLimit (ctx : Nat)
  /-- QUEUE_ENABLE, R355. -/
  | queueEnable (q : Nat)
  /-- QUEUE_DISABLE, R381. -/
  | queueDisable (q : Nat)
  /-- QUEUE_RESET, R385. -/
  | queueReset (q : Nat)
  /-- QUEUE_OWNER_WRITE, R356. -/
  | queueOwnerWrite (q : Nat) (v : BitVec 64)
  /-- BERTH_CONFIG_WRITE, R370. -/
  | berthConfigWrite (b : Nat) (own : Bool) (v : BitVec 64)
  /-- GSTORE_WRITE, R567. -/
  | gstoreWrite (p : Nat) (size : Bool) (v : BitVec 64)
  /-- WHOLE_DEVICE_RESET, R386. -/
  | wholeDeviceReset
  /-- CP_WATCHDOG_EXPIRY, R386. -/
  | cpWatchdogExpiry
  /-- WHOLE_DEVICE_RESET_COMPLETE, R386. -/
  | wholeDeviceResetComplete
  /-- PARTITION_CONFIG_WRITE, R390. -/
  | partitionConfigWrite (p reg : Nat) (v : BitVec 64)
  /-- CONTEXT_CREATE, R393. -/
  | contextCreate (c : Nat) (v : BitVec 64)
  /-- CONTEXT_DESTROY, R393. -/
  | contextDestroy (c : Nat) (v : BitVec 64)
  /-- CONTEXT_TEAR, R392. -/
  | contextTear (c : Nat)
  /-- TEARDOWN_COMPLETE, R404, with the C-clocks of RUNNING, of Pumps, of Lighters, of a switch and of an overrun (`np`) that the context has not been charged
  for yet (R397). -/
  | teardownComplete (ctx run pump lighter sw np : Nat)
  /-- TIME_SLICE_END, R396. -/
  | timeSliceEnd (ctx clocks : Nat)
  /-- PREEMPTION_DRAIN_COMPLETE, R398. -/
  | preemptionDrainComplete (ctx run extra : Nat)
  /-- SAVE_COMPLETE, R394. -/
  | saveComplete (ctx clocks : Nat)
  /-- RESTORE_COMPLETE, R394. -/
  | restoreComplete (ctx clocks : Nat)
  /-- FUNCTION_BIND_WRITE, R405. -/
  | functionBindWrite (v : Nat) (val : BitVec 64)
  /-- VF_FLR, R407. -/
  | vfFlr (v : Nat)
  /-- VF_FLR_COMPLETE, R407. -/
  | vfFlrComplete (v : Nat)
  /-- PF_FLR, R407. -/
  | pfFlr
  /-- VF_ENABLE_CLEAR, R406. -/
  | vfEnableClear
  /-- MIGRATION_FREEZE, R410. -/
  | migrationFreeze (vf : Nat)
  /-- MIGRATION_FREEZE_COMPLETE, R410. -/
  | migrationFreezeComplete (vf : Nat)
  /-- MIGRATION_SAVE, R411. -/
  | migrationSave (vf : Nat)
  /-- MIGRATION_RESTORE, R410. -/
  | migrationRestore (vf : Nat)
  /-- MIGRATION_THAW, R410. -/
  | migrationThaw (vf : Nat)
  /-- DIRTY_LOG_SYNC, R412. -/
  | dirtyLogSync (v : BitVec 64)
  /-- DIRTY_LOG_SYNC_DONE, R412. -/
  | dirtyLogSyncDone
  /-- DATA_FLIT, R421. -/
  | dataFlit (port fec : Nat) (lanes : List Nat) (flit : List Byte)
  /-- IDLE_FLIT, R420. -/
  | idleFlit (port : Nat) (flit : List Byte)
  /-- RETRY_REQUEST, R421. -/
  | retryRequest (port : Nat) (flit : List Byte)
  /-- CREDIT_INITIALISATION, R422. -/
  | creditInitialisation (port : Nat) (flit : List Byte)
  /-- RD, R427. -/
  | rd (port : Nat) (link : Option Nat)
  /-- WR, R435. -/
  | wr (port : Nat) (link : Option (Nat × Nat))
  /-- SIG, R442. -/
  | sig (port : Nat) (link : Option (Nat × Nat))
  /-- RDR, R437. -/
  | rdr (port : Nat) (link : Option Nat)
  /-- ACK, R434. -/
  | ack (port : Nat)
  /-- NAK, R436. -/
  | nak (port : Nat)
  /-- RETRANSMIT_TIMEOUT, R436. -/
  | retransmitTimeout (write : Bool) (chip n : Nat)
  /-- FABRIC_GIVE_UP, R436. -/
  | fabricGiveUp (write : Bool) (chip n : Nat)
  /-- GAP_CLOSE_TIMEOUT, R436. -/
  | gapCloseTimeout (chip : Nat)
  /-- FABRIC_WINDOW_BOUNDARY, R445. -/
  | fabricWindowBoundary (port : Nat)
  /-- PORT_ENABLE, R450. -/
  | portEnable (port pmd : Nat)
  /-- PORT_DISABLE, R450. -/
  | portDisable (port pmd : Nat)
  /-- PORT_TRAINED, R450. -/
  | portTrained (port : Nat)
  /-- TRAINING_ATTEMPT_FAILED, R419. -/
  | trainingAttemptFailed (port : Nat) (lanes : List Nat) (spareOk : Bool)
  /-- PORT_RETRAINED, R450. -/
  | portRetrained (port : Nat)
  /-- RECOVERY_TIMEOUT, R450. -/
  | recoveryTimeout (port : Nat)
  /-- FABRIC_ID_WRITE, R451. -/
  | fabricIdWrite (conn : Bool) (v : BitVec 64)
  /-- FABRIC_REG_WRITE, R451. -/
  | fabricRegWrite (p : Nat) (v : BitVec 64)
  /-- CONTROL_INTERVAL, R466. -/
  | controlInterval (acts : List (Nat × List Nat)) (got : Bool)
  /-- FOLLOWER_DECISION_MISSED, R466. -/
  | followerDecisionMissed
  /-- RAIL_READING, R464. -/
  | railReading (rail mv : Nat) (amps : Int) (err : Bool)
  /-- VOLTAGE_ACK, R455. -/
  | voltageAck (die : Nat)
  /-- VOLTAGE_ACK_TIMEOUT, R455. -/
  | voltageAckTimeout (die : Nat)
  /-- DIVIDER_SWITCH, R458. -/
  | dividerSwitch (die : Nat)
  /-- DROOP_DETECTED, R457. -/
  | droopDetected (die half mv : Nat)
  /-- DROOP_WINDOW_CLEAR, R457. -/
  | droopWindowClear (die half skipped : Nat)
  /-- TEMPERATURE_CONVERSION, R460. -/
  | temperatureConversion (point : Nat) (t : Int)
  /-- HOT_CLEAR, R461. -/
  | hotClear (die : Nat)
  /-- SENSOR_UPDATE_TIMEOUT, R460. -/
  | sensorUpdateTimeout (point : Nat)
  /-- PKG_LIMIT_WRITE, R469. -/
  | pkgLimitWrite (v : BitVec 64)
  /-- VTAB_WRITE, R476. -/
  | vtabWrite (v : BitVec 64)
  /-- FIRMWARE_UPDATE, R489. -/
  | firmwareUpdate
  /-- CONFIGURATION_UPDATE, R489. -/
  | configurationUpdate
  /-- OWNER_RECORD_UPDATE, R492. -/
  | ownerRecordUpdate
  /-- OTHER_FIRMWARE_SLOT, R489. -/
  | otherFirmwareSlot
  /-- FLASH_UPDATE_COMPLETE, R489. -/
  | flashUpdateComplete (flashOk : Bool)
  /-- BOOT_LOCK_SET, R505. -/
  | bootLockSet
  /-- RECOVERY_WRITE, R494. -/
  | recoveryWrite (off : Nat) (data : List Byte) (wellFormed flashOk : Bool)
  /-- RECOVERY_FINISH, R494. -/
  | recoveryFinish (wellFormed flashOk : Bool)
  /-- RECOVERY_STATUS, R494. -/
  | recoveryStatus (wellFormed : Bool)
  /-- GET_VERSION, R497. -/
  | getVersion (b : SpdmBind) (req : List Byte)
  /-- GET_CAPABILITIES, R497. -/
  | getCapabilities (b : SpdmBind) (req : List Byte)
  /-- NEGOTIATE_ALGORITHMS, R497. -/
  | negotiateAlgorithms (b : SpdmBind) (req : List Byte)
  /-- GET_DIGESTS, R497. -/
  | getDigests (b : SpdmBind) (req : List Byte)
  /-- GET_CERTIFICATE, R497. -/
  | getCertificate (b : SpdmBind) (off len : Nat) (req : List Byte)
  /-- CHALLENGE, R497. -/
  | challenge (b : SpdmBind) (slot : Nat) (nonce req : List Byte)
  /-- GET_MEASUREMENTS, R498. -/
  | getMeasurements (b : SpdmBind) (op : Nat) (signed : Bool) (nonce req : List Byte)
  /-- SPDM_UNSUPPORTED_REQUEST, R497. -/
  | spdmUnsupportedRequest (b : SpdmBind) (malformed : Bool) (req : List Byte)
  /-- CV_INIT, R510. -/
  | cvInit (k : Nat)
  /-- CV_REGION_FEED, R511. -/
  | cvRegionFeed (k : Nat)
  /-- CV_FEED_COMPLETE, R511. -/
  | cvFeedComplete (k : Nat)
  /-- CV_DATA, R510. -/
  | cvData (k : Nat) (wide : Bool) (v : BitVec 64)
  /-- CV_TAIL, R510. -/
  | cvTail (k : Nat) (v : BitVec 64)
  /-- CV_STATE_WRITE, R510. -/
  | cvStateWrite (k : Nat) (v : BitVec 32)
  /-- RETIRE_REQUEST, R516. -/
  | retireRequest (v : BitVec 64)
  /-- SPARE_SELF_TEST_DONE, R517. -/
  | spareSelfTestDone (cluster : Nat) (ok : Bool)
  /-- CLUSTER_CACHE_EVACUATED, R517. -/
  | clusterCacheEvacuated (cluster : Nat)
  /-- REPAIR_RECORD_UPDATE, R523. -/
  | repairRecordUpdate (host : Bool)
  /-- REPAIR_RECORD_UPDATE_COMPLETE, R523. -/
  | repairRecordUpdateComplete (follower ok0 ok1 : Bool)
  /-- EVENT_RECORD_WRITE, R530. -/
  | eventRecordWrite
  /-- LOG_ENABLE_WRITE, R529. -/
  | logEnableWrite (func l : Nat) (v : BitVec 64)
  /-- LOG_READ_POINTER_WRITE, R531. -/
  | logReadPointerWrite (func l : Nat) (v : BitVec 64)
  /-- SNAPSHOT_REQUEST, R534. -/
  | snapshotRequest
  /-- SNAPSHOT_FREEZE_TOKEN, R534. -/
  | snapshotFreezeToken (unit : Nat)
  /-- SNAPSHOT_COMPLETE, R534. -/
  | snapshotComplete
  /-- SNAPSHOT_ACK_TIMEOUT, R534. -/
  | snapshotAckTimeout (unit : Nat)
  /-- BYPASS, R538. -/
  | bypass (tdi : List Bool)
  /-- IDCODE, R538. -/
  | idcode (tdi : List Bool)
  /-- SAMPLE_PRELOAD, R538. -/
  | samplePreload (pins load : List Bool)
  /-- EXTEST, R538. -/
  | extest (pins load : List Bool)
  /-- CLAMP, R538. -/
  | clamp (tdi : List Bool)
  /-- HIGHZ, R538. -/
  | highz (tdi : List Bool)
  /-- DIESEL, R539. -/
  | diesel (sel : BitVec 24)
  /-- IJTAG, R541. -/
  | ijtag (die instr : Nat) (write : Bool) (off v n : Nat)
  /-- ATTACH, R543. -/
  | attach (ctx : Nat) (hold : Bool)
  /-- DETACH, R543. -/
  | detach (ctx : Nat) (hold : Bool)
  /-- HALT, R543. -/
  | halt (ctx : Nat) (hold : Bool)
  /-- RESUME, R543. -/
  | resume (ctx : Nat) (hold : Bool)
  /-- STEP, R543. -/
  | step (ctx : Nat) (hold : Bool)
  /-- DEBUG_ACCESS_READ, R545. -/
  | debugAccessRead (mod : Nat)
  /-- DEBUG_ACCESS_WRITE, R545. -/
  | debugAccessWrite (v : BitVec 64)
  /-- GUILTY_RESET_BOUND_MISSED, R386. -/
  | guiltyResetBoundMissed (queue : Nat)
  /-- LOSS_OF_FEC_ALIGNMENT, R450. -/
  | lossOfFecAlignment (port : Nat)
  /-- PARTNER_RETRAINING_REQUEST, R450. -/
  | partnerRetrainingRequest (port : Nat)
  /-- RAIL_READING_TIMEOUT, R464. -/
  | railReadingTimeout (rail : Nat)
  /-- COMMAND_PARITY_ERROR, R311. -/
  | commandParityError (channel : Nat)
  /-- MCTP_REASSEMBLY_TIMEOUT, R560. -/
  | mctpReassemblyTimeout
  /-- DYNAMIC_ADDRESS_ASSIGNMENT, R560. -/
  | dynamicAddressAssignment (addr : Nat)
  /-- SUPPLY_RETURN, R552. -/
  | supplyReturn (supply : Nat)
  /-- CLUSTER_BARRIER_RELEASE, R169. -/
  | clusterBarrierRelease (cluster num : Nat)
  deriving DecidableEq, Repr

end Sys2Proof
end

