-- ==== Sys2Proof/Config.lean ====
section
/-! DEFINITION. What the spec leaves to an implementation or to an external standard: constants without a body, so that
no proof can see a value of them. -/

namespace Sys2Proof

/-- SHA-384 of a byte list (FIPS 180-4, an external standard). -/
opaque Config.sha384 : List Byte → List Byte
/-- ECDSA P-384 verification (FIPS 186-5): public key (96 bytes), signature (96 bytes), digest. -/
opaque Config.ecdsaVerify : List Byte → List Byte → List Byte → Bool
/-- ECDSA P-384 signature of a digest by a private key; the second argument stands for the signer's per-signature
nonce, which the spec leaves open. -/
opaque Config.ecdsaSign : List Byte → Nat → List Byte → List Byte
/-- The private key of R496: seed, label, additional input (SP 800-108, FIPS 186-5). -/
opaque Config.deriveKey : List Byte → List Byte → List Byte → List Byte
/-- The public key that belongs to a private key. -/
opaque Config.publicKey : List Byte → List Byte
/-- The hash of the vendor root key that mask ROM holds (R488, reason 2). -/
opaque Config.romRootHash : List Byte
/-- The digest of mask ROM (R498, measurement 1). -/
opaque Config.romDigest : List Byte
/-- The DER encoding of an X.509 certificate (R497): subject public key, issuer private key, which the spec leaves to
the X.509 profile. -/
opaque Config.certificate : List Byte → List Byte → List Byte
/-- The built-in default of a BAR0 register's cfg fields (R502, R503): the firmware's own. -/
opaque Config.builtIn : Nat → BitVec 64
/-- A free value: what an instruction leaves undefined or the spec does not state, applied to the counter of the
State that the step advances. -/
opaque Config.free64 : Nat → BitVec 64
/-- The exact bits of a special function's result where R162 gives only a bound: operation, operand. -/
opaque Config.sfu : Nat → BitVec 32 → BitVec 32
/-- The routed distance between two mesh stops in hops, which the package data file gives (R549, R277). -/
opaque Config.meshHops : Nat → Nat → Nat
/-- The follower complex's Repair private key, derived from its own array (R495, R496). -/
opaque Config.followerKey : List Byte
/-- The MAGIC word of an identity record, which no table gives (R485, R486). -/
opaque Config.identMagic : BitVec 32
/-- The vendor root certificate of slot 0 (R497). -/
opaque Config.rootCertificate : List Byte
/-- Weights of the activity estimator: of compute beats of element code k (0 to 15), of filler beats of code k (16 + k), of a
vector lane operation (32) and of a Well array access (33), in milliwatts for each 2^16 an interval; a cluster's leakage
from its two points, for each of its cores; and the fixed uncore term of a die, in milliwatts (R465). -/
opaque Config.energyWeight : Nat → Nat
opaque Config.leakage : Int → Int → Nat
opaque Config.uncoreMw : Nat
/-- The silicon version of IDCODE bits 31:28 (R538). -/
opaque Config.siliconVersion : BitVec 4
/-- The nominal voltage of rail 14 in millivolts, which the Utwen reference manual gives (R550). -/
opaque Config.hostRailMv : Nat
/-- The bytes, by offset, of a part of a save area or a migration record whose layout the migration format fixes and the
manual does not give (R395, R411, R416); applied to the counter of free values. -/
opaque Config.layoutBytes : Nat → List (Nat × Byte)
/-- The built-in defaults as a slot: what measurement 4 covers when they are in force (R499, R503). -/
opaque Config.builtInSlot : List Byte
/-- The bytes, by offset in the 32 MiB at GF_CONNBASE, of the connection state that the I/O dies' caches write back at one
moment: R434 gives neither its layout nor the moments; applied to the counter of free values. -/
opaque Config.connBytes : Nat → List (Nat × Byte)
/-- A word of a function's PCIe configuration space that nothing has written: function, word (R35, PCIe 6). -/
opaque Config.pcieWord : Nat → Nat → BitVec 32
/-- What a configuration write leaves in a word: function, word, old contents, value written. PCIe 6 says which bits
take the value (R35). -/
opaque Config.pcieWrote : Nat → Nat → BitVec 32 → BitVec 32 → BitVec 32
/-- The word numbers, in a function's configuration space, of its capabilities: PCI Express, MSI-X, Advanced Error
Reporting and Data Object Exchange of every function, Power Management and SR-IOV of PF0 (R35). -/
opaque Config.pcieExpress : Nat → Nat
opaque Config.pcieMsix : Nat → Nat
opaque Config.pcieAer : Nat → Nat
opaque Config.pcieDoe : Nat → Nat
opaque Config.pciePower : Nat
opaque Config.pcieSriov : Nat
/-- The bits that an IEEE 1687 instrument shifts out: instrument, contents. The instrument description files of the
package give them (R540). -/
opaque Config.instrument : Nat → List Nat → List Bool

end Sys2Proof
end

