-- ==== Sys2Proof/Machine/FrontTypes.lean ====
section
/-! DEFINITION. The parts of State that belong to the front end (R353 to R386, R567), the Pumps and Lighters (R324 to
R349), the contexts and their scheduler (R392 to R404), and migration (R409 to R413). -/

namespace Sys2Proof.Machine

/-- An open block of a level of ring, buffer or graph, R369. -/
inductive Nest where
  /-- A condition: its branch runs now, and COND_ELSE has been met. -/
  | cond (run els : Bool)
  /-- A loop: the entry after LOOP_BEGIN and the passes left. -/
  | loop (start left : Nat)
  deriving DecidableEq, Repr

/-- A running Pump or Lighter command, R324 to R349. -/
structure Job where
  /-- Logical Pump, or 192 plus the logical Lighter; 0xFFFF for a command that failed a start check. -/
  unit : Nat
  /-- The descriptor as read at the start; empty for a Lighter command, and after a failed start check. -/
  desc : List Byte
  /-- Position: source bytes of a stream, list entries of a gather, bytes of a Lighter command. -/
  pos : Nat
  /-- Output bytes written. -/
  outp : Nat
  /-- Gather entries with V = 0. -/
  zeroed : Nat
  /-- Target entries dropped (R329). -/
  dropped : List Nat
  /-- The status so far, and a fault's level, write flag, addresses. -/
  code : Nat
  level : Nat
  write : Bool
  va : Nat
  pa : Nat
  /-- The work is over: nothing more moves. -/
  ended : Bool
  /-- RESULT of a fabric command that met an error. -/
  result : Nat
  /-- A FABRIC_GET's reads that are out: position, length and the block's fabric address. -/
  out : List (Nat × Nat × Nat)
  /-- Source bytes of a Lighter command that have come and are not written: position and byte. -/
  buf : List (Nat × Byte)
  /-- RESULT or ZEROED has been written: the status and RESULT that the command ends with once that write is performed. -/
  last : Option (Nat × Nat)
  /-- The unit that left service during the command, while no other has been chosen (R349). -/
  was : Nat
  /-- The members that writes to a multicast group were replicated to, each list once (R444). -/
  members : List (List Nat)
  deriving DecidableEq, Repr

/-- A command that has been fetched and whose record is neither written nor held, R361 to R369. -/
structure Cmd where
  id : Nat
  queue : Nat
  /-- Sequence number, generation and epoch of its ring command. -/
  seq : Nat
  gen : Nat
  epoch : Nat
  /-- The CALL or LAUNCH_GRAPH that it stands in, and its entry there. -/
  parent : Option Nat
  index : Nat
  /-- The bytes of its entries. -/
  entry : List Byte
  started : Bool
  ended : Bool
  status : Nat
  source : Nat
  result : Nat
  /-- ENTRY of the record, R368. -/
  place : Nat
  /-- A status has arisen inside a CALL or LAUNCH_GRAPH: it starts nothing more. -/
  stopping : Bool
  /-- CALL and LAUNCH_GRAPH: base address, entries, next entry and open blocks. -/
  base : Nat
  ents : Nat
  pos : Nat
  nest : List Nest
  /-- The graph it runs (partition × 1,024 + number) and the version it pins. -/
  graph : Option (Nat × Nat)
  job : Option Job
  deriving DecidableEq, Repr

/-- A completion record that is held, R379, R382. -/
structure Rec where
  seq : Nat
  gen : Nat
  epoch : Nat
  status : Nat
  place : Nat
  source : Nat
  result : Nat
  user : Nat
  irq : Bool
  deriving DecidableEq, Repr

/-- A launch that has started and not completed, R151 to R155, R564. -/
structure Launch where
  id : Nat
  cmd : Nat
  queue : Nat
  ctx : Nat
  part : Nat
  entry : Nat
  threads : Nat
  wcache : Nat
  resident : Bool
  cluster : Bool
  keep : Bool
  wdog : Nat
  /-- The argument block, or nothing. -/
  args : List Byte
  grid : Nat
  /-- The usable cores, ascending. -/
  cores : List Nat
  /-- The pipeline slot of its Sluice map. -/
  slot : Option Nat
  /-- Core blocks dispatched, and those that have completed. -/
  next : Nat
  doneBlocks : Nat
  /-- Device barrier arrivals counted at the home: number and block (R169). -/
  arrived : List (Nat × Nat)
  deriving DecidableEq, Repr

/-- A stored graph, R567: units of a buffer, the first unit of each buffer, and the buffer of CURVER. -/
structure Graph where
  units : Nat
  run0 : Nat
  run1 : Nat
  cur : Nat
  deriving DecidableEq, Repr

/-- A group that waits on a Berth, R371, in the order in which the waits began. -/
structure BWaiter where
  berth : Nat
  core : Nat
  group : Nat
  pc : Nat
  deriving DecidableEq, Repr

/-- What the scheduler and the save area hold of a live context, R394 to R404. -/
structure Ctx where
  /-- Cores as saved, and that something is saved. -/
  saved : List (Nat × Core)
  has : Bool
  /-- Its engines have reached their stop points: only the save is left (R398 step 3). -/
  drained : Bool
  /-- Remote reads recorded at the switch-out (R401). -/
  reads : List RdOut
  /-- Berths that its saved groups wait on. -/
  berths : List Nat
  /-- Granted by the scheduler, waiting for its clusters. -/
  granted : Bool
  /-- A pre-emption request is in force; it waits for non-preemptible commands (R400). -/
  asked : Bool
  /-- The request comes from a freeze. -/
  freeze : Bool
  /-- Runnable when last looked at. -/
  runnable : Bool
  /-- Added to vt, in the scheduler's unit. -/
  lift : Nat
  /-- It has been RUNNING since it was created. -/
  ran : Bool
  /-- C-clocks by which the next slices are shortened. -/
  shorten : Nat
  /-- STATE when the teardown in progress started. -/
  was : Nat
  /-- The teardown in progress ends in FREE, and the code its launches complete with. -/
  free : Bool
  code : Nat
  source : Nat
  deriving DecidableEq, Repr

/-- A context with nothing saved. -/
def Ctx.new : Ctx :=
  { saved := [], has := false, drained := false, reads := [], berths := [], granted := false, asked := false, freeze := false,
    runnable := false, lift := 0, ran := false, shorten := 0, was := 0, free := false, code := 0, source := 0 }

/-- The front end and the scheduler. -/
structure Front where
  /-- Commands in flight, oldest first, and the next identifier. -/
  cmds : List Cmd
  nextCmd : Nat
  launches : List Launch
  /-- Open blocks of each ring. -/
  nests : Tab (List Nest)
  /-- Records held by each queue, oldest first. -/
  held : Tab (List Rec)
  /-- The last record written of each queue. -/
  last : Tab Rec
  /-- Queues whose last head-shadow read failed (R378). -/
  shadowBad : List Nat
  /-- Completion records of commands that reached their bound: command ids (R385). -/
  late : List Nat
  graphs : Tab Graph
  /-- Items ever delivered from each Berth, modulo its depth. -/
  taken : Tab Nat
  waiters : List BWaiter
  ctxs : Tab Ctx
  /-- VFs with a freeze in force, and those whose freeze is complete (R410). -/
  frozen : List Nat
  stopped : List Nat
  deriving DecidableEq, Repr

def Front.reset : Front :=
  { cmds := [], nextCmd := 1, launches := [], nests := [], held := [], last := [], shadowBad := [], late := [],
    graphs := [], taken := [], waiters := [], ctxs := [], frozen := [], stopped := [] }

end Sys2Proof.Machine
end

