-- ==== Sys2Proof/Machine/Bits.lean ====
section
/-! DEFINITION. Bit fields, sign extension, wrapping and saturation on numbers (R5), and little-endian byte lists. -/

namespace Sys2Proof

/-- Bits hi:lo of a number, as a number (R5). -/
def bits (n hi lo : Nat) : Nat := n / 2 ^ lo % 2 ^ (hi + 1 - lo)

/-- Bit i of a number. -/
def bit (n i : Nat) : Bool := n / 2 ^ i % 2 == 1

/-- The number n with bits hi:lo replaced by x (modulo the field's width). -/
def setBits (n hi lo x : Nat) : Nat :=
  n / 2 ^ (hi + 1) * 2 ^ (hi + 1) + x % 2 ^ (hi + 1 - lo) * 2 ^ lo + n % 2 ^ lo

/-- A truth value as a bit. -/
def b2n (b : Bool) : Nat := if b then 1 else 0

/-- A number as a signed value of the given width. -/
def toSigned (w n : Nat) : Int :=
  if n % 2 ^ w < 2 ^ (w - 1) then (n % 2 ^ w : Nat) else (n % 2 ^ w : Nat) - (2 ^ w : Nat)

/-- An integer wrapped into the given width. -/
def wrap (w : Nat) (i : Int) : Nat := (i % (2 ^ w : Nat)).toNat

/-- A count that stops at the largest value of its width. -/
def satAdd (w n k : Nat) : Nat := min (n + k) (2 ^ w - 1)

/-- The bytes of a number, least significant first (R5). -/
def toBytes (k n : Nat) : List Byte := (List.range k).map fun i => BitVec.ofNat 8 (n / 2 ^ (8 * i))

/-- The number that a little-endian byte list holds (R5). -/
def ofBytes : List Byte → Nat
  | [] => 0
  | b :: bs => b.toNat + 256 * ofBytes bs

/-- The `k` bytes of a list from position `i`, as a number; bytes beyond the end count as 0. -/
def bytesAt (l : List Byte) (i k : Nat) : Nat := ofBytes ((l.drop i).take k)

end Sys2Proof
end

