-- ==== Sys2Proof/Machine/Regs.lean ====
section
/-! DEFINITION. The BAR0 register map, one line per register of the spec's register tables: the offset of every
register (namespace `A`), every named field (namespace `F`) and, in `regMap`, the access code and reset value the
tables give (R6, R7, R9). Reserved fields are the bits no line names: they read 0 and ignore writes (R8). -/

namespace Sys2Proof

/-- A field of a BAR0 register: the register's BAR0 offset and the bit range high:low (R5). -/
structure Fld where
  off : Nat
  hi : Nat
  lo : Nat
  deriving DecidableEq, Repr

/-- The access codes of R7. -/
inductive Access where
  | ro | rw | w1c | w1s | wo | rwl
  deriving DecidableEq, Repr

/-- One field of `regMap`: bit range, access code, reset value, and whether the reset column says cfg (R9). -/
structure FieldDesc where
  hi : Nat
  lo : Nat
  acc : Access
  reset : Nat
  cfg : Bool
  deriving DecidableEq, Repr

/-- One register, or one array of registers at a fixed stride, of the map. -/
structure RegDesc where
  base : Nat
  stride : Nat
  count : Nat
  fields : List FieldDesc
  deriving DecidableEq, Repr

/-- PT_VF_APSIZE, R42. -/
def A.PT_VF_APSIZE : Nat := 0x284000
/-- PT_VF_APBASE, R42. -/
def A.PT_VF_APBASE (v : Nat) : Nat := 0x284000 + 0x8 * v
/-- PT_HWIN, R50. -/
def A.PT_HWIN (i : Nat) : Nat := 0x280000 + 0x8 * i
/-- PT_HWIN_SYNC, R52. -/
def A.PT_HWIN_SYNC : Nat := 0x282000
/-- PT_HOSTERR, R562. -/
def A.PT_HOSTERR : Nat := 0x282008
/-- PT_XLAT_INV, R60. -/
def A.PT_XLAT_INV (v : Nat) : Nat := 0x283000 + 0x20 * v
/-- PT_XLAT_INV_VA, R60. -/
def A.PT_XLAT_INV_VA (v : Nat) : Nat := 0x283008 + 0x20 * v
/-- PT_XLAT_INV_PAGES, R60. -/
def A.PT_XLAT_INV_PAGES (v : Nat) : Nat := 0x283010 + 0x20 * v
/-- PT_FAULT_STAT, R64. -/
def A.PT_FAULT_STAT (p : Nat) : Nat := 0x290200 + 0x400 * p
/-- PT_FAULT_CLR, R64. -/
def A.PT_FAULT_CLR (p : Nat) : Nat := 0x290208 + 0x400 * p
/-- PT_FAULT_VEC, R64. -/
def A.PT_FAULT_VEC (p : Nat) : Nat := 0x290210 + 0x400 * p
/-- SL_SHARE, R225. -/
def A.SL_SHARE (p : Nat) : Nat := 0x600000 + 0x8 * p
/-- SL_ERR, R225. -/
def A.SL_ERR : Nat := 0x600080
/-- SL_PIPE_STAT, R227. -/
def A.SL_PIPE_STAT (n : Nat) : Nat := 0x601000 + 0x40 * n
/-- SL_PIPE_EXCESS, R227. -/
def A.SL_PIPE_EXCESS (n : Nat) : Nat := 0x601008 + 0x40 * n
/-- SL_PIPE_CLR, R227. -/
def A.SL_PIPE_CLR (n : Nat) : Nat := 0x601010 + 0x40 * n
/-- CS_PSLICE, R268. -/
def A.CS_PSLICE (p : Nat) (w : Nat) : Nat := 0x300000 + 0x40 * p + 0x8 * w
/-- CS_PART_CTL, R268. -/
def A.CS_PART_CTL (p : Nat) : Nat := 0x300020 + 0x40 * p
/-- CS_FLUSH, R268. -/
def A.CS_FLUSH (p : Nat) : Nat := 0x300400 + 0x8 * p
/-- CS_ERR, R268. -/
def A.CS_ERR : Nat := 0x300800
/-- CS_REHOME, R268. -/
def A.CS_REHOME : Nat := 0x300808
/-- CS_HOMEMAP, R268. -/
def A.CS_HOMEMAP (c : Nat) : Nat := 0x310000 + 0x8 * c
/-- CS_PIN_BASE, R287. -/
def A.CS_PIN_BASE (p : Nat) : Nat := 0x320000 + 0x40 * p
/-- CS_PIN_LINES, R287. -/
def A.CS_PIN_LINES (p : Nat) : Nat := 0x320008 + 0x40 * p
/-- CS_PIN_CTL, R287. -/
def A.CS_PIN_CTL (p : Nat) : Nat := 0x320010 + 0x40 * p
/-- CS_PIN_STAT, R287. -/
def A.CS_PIN_STAT (p : Nat) : Nat := 0x320018 + 0x40 * p
/-- MC_REG, R321. -/
def A.MC_REG (p : Nat) : Nat := 0x400000 + 0x8 * p
/-- MC_ERR, R321. -/
def A.MC_ERR : Nat := 0x400080
/-- MC_SCRUB, R321. -/
def A.MC_SCRUB : Nat := 0x400100
/-- MC_EVAC, R321. -/
def A.MC_EVAC : Nat := 0x400200
/-- MC_CH_STAT, R321. -/
def A.MC_CH_STAT (c : Nat) : Nat := 0x410000 + 0x8 * c
/-- MC_STACK, R321. -/
def A.MC_STACK (m : Nat) : Nat := 0x420000 + 0x8 * m
/-- PU_UNIT_STAT, R350. -/
def A.PU_UNIT_STAT (u : Nat) : Nat := 0x500000 + 0x8 * u
/-- FE_Q_RING, R354. -/
def A.FE_Q_RING (q : Nat) : Nat := 0x180000 + 0x80 * q
/-- FE_Q_CQ, R354. -/
def A.FE_Q_CQ (q : Nat) : Nat := 0x180008 + 0x80 * q
/-- FE_Q_CQHEAD, R354. -/
def A.FE_Q_CQHEAD (q : Nat) : Nat := 0x180010 + 0x80 * q
/-- FE_Q_CFG, R354. -/
def A.FE_Q_CFG (q : Nat) : Nat := 0x180018 + 0x80 * q
/-- FE_Q_VEC, R354. -/
def A.FE_Q_VEC (q : Nat) : Nat := 0x180020 + 0x80 * q
/-- FE_Q_OWN, R354. -/
def A.FE_Q_OWN (q : Nat) : Nat := 0x180028 + 0x80 * q
/-- FE_Q_CTL, R354. -/
def A.FE_Q_CTL (q : Nat) : Nat := 0x180030 + 0x80 * q
/-- FE_Q_STAT, R354. -/
def A.FE_Q_STAT (q : Nat) : Nat := 0x180038 + 0x80 * q
/-- FE_Q_SEQ, R354. -/
def A.FE_Q_SEQ (q : Nat) : Nat := 0x180040 + 0x80 * q
/-- FE_Q_DONE, R354. -/
def A.FE_Q_DONE (q : Nat) : Nat := 0x180048 + 0x80 * q
/-- FE_Q_PTR, R354. -/
def A.FE_Q_PTR (q : Nat) : Nat := 0x180050 + 0x80 * q
/-- FE_Q_CQPTR, R354. -/
def A.FE_Q_CQPTR (q : Nat) : Nat := 0x180058 + 0x80 * q
/-- FE_DB_DROP, R356. -/
def A.FE_DB_DROP : Nat := 0x100000
/-- FE_ERR, R356. -/
def A.FE_ERR : Nat := 0x100008
/-- FE_INFLIGHT, R356. -/
def A.FE_INFLIGHT : Nat := 0x100010
/-- FE_DEV_RESET, R356. -/
def A.FE_DEV_RESET : Nat := 0x100018
/-- FE_BERTH_CFG, R370. -/
def A.FE_BERTH_CFG (b : Nat) : Nat := 0x110000 + 0x10 * b
/-- FE_BERTH_OWN, R370. -/
def A.FE_BERTH_OWN (b : Nat) : Nat := 0x110008 + 0x10 * b
/-- FE_GSTORE, R373. -/
def A.FE_GSTORE (p : Nat) : Nat := 0x120000 + 0x10 * p
/-- FE_GSIZE, R373. -/
def A.FE_GSIZE (p : Nat) : Nat := 0x120008 + 0x10 * p
/-- FE_GRAPH, R373. -/
def A.FE_GRAPH (p : Nat) (g : Nat) : Nat := 0x130000 + 0x2000 * p + 0x8 * g
/-- PT_PART_CTL, R389. -/
def A.PT_PART_CTL (p : Nat) : Nat := 0x200000 + 0x100 * p
/-- PT_PART_CL, R389. -/
def A.PT_PART_CL (p : Nat) (w : Nat) : Nat := 0x200008 + 0x100 * p + 0x8 * w
/-- PT_PART_PU, R389. -/
def A.PT_PART_PU (p : Nat) (w : Nat) : Nat := 0x200018 + 0x100 * p + 0x8 * w
/-- PT_PART_LT, R389. -/
def A.PT_PART_LT (p : Nat) : Nat := 0x200030 + 0x100 * p
/-- PT_PART_STAT, R389. -/
def A.PT_PART_STAT (p : Nat) : Nat := 0x200038 + 0x100 * p
/-- PT_ERR, R390. -/
def A.PT_ERR : Nat := 0x201000
/-- PT_CTX_ROOT, R392. -/
def A.PT_CTX_ROOT (c : Nat) : Nat := 0x240000 + 0x40 * c
/-- PT_CTX_CTL, R392. -/
def A.PT_CTX_CTL (c : Nat) : Nat := 0x240008 + 0x40 * c
/-- PT_CTX_CL, R392. -/
def A.PT_CTX_CL (c : Nat) (w : Nat) : Nat := 0x240010 + 0x40 * c + 0x8 * w
/-- PT_CTX_SAVE, R392. -/
def A.PT_CTX_SAVE (c : Nat) : Nat := 0x240020 + 0x40 * c
/-- PT_CTX_STAT, R392. -/
def A.PT_CTX_STAT (c : Nat) : Nat := 0x240028 + 0x40 * c
/-- PT_CTX_TEAR, R392. -/
def A.PT_CTX_TEAR (c : Nat) : Nat := 0x240030 + 0x40 * c
/-- PT_FN, R405. -/
def A.PT_FN (v : Nat) : Nat := 0x285000 + 0x8 * v
/-- PT_MIG_CTL, R409. -/
def A.PT_MIG_CTL : Nat := 0x287000
/-- PT_MIG_BUF, R409. -/
def A.PT_MIG_BUF : Nat := 0x287008
/-- PT_MIG_LEN, R409. -/
def A.PT_MIG_LEN : Nat := 0x287010
/-- PT_DIRTY_BASE, R412. -/
def A.PT_DIRTY_BASE (i : Nat) : Nat := 0x286000 + 0x8 * i
/-- PT_DIRTY_CTL, R412. -/
def A.PT_DIRTY_CTL : Nat := 0x286010
/-- GF_CHIPID, R451. -/
def A.GF_CHIPID : Nat := 0x700000
/-- GF_CONNBASE, R451. -/
def A.GF_CONNBASE : Nat := 0x700008
/-- GF_XPORT, R451. -/
def A.GF_XPORT : Nat := 0x700010
/-- GF_ERR, R451. -/
def A.GF_ERR : Nat := 0x700018
/-- GF_RXDROP, R451. -/
def A.GF_RXDROP : Nat := 0x700020
/-- GF_PORT_CTL, R451. -/
def A.GF_PORT_CTL (j : Nat) : Nat := 0x701000 + 0x40 * j
/-- GF_PORT_STAT, R451. -/
def A.GF_PORT_STAT (j : Nat) : Nat := 0x701008 + 0x40 * j
/-- GF_PORT_FEC, R451. -/
def A.GF_PORT_FEC (j : Nat) : Nat := 0x701010 + 0x40 * j
/-- GF_SPARE, R451. -/
def A.GF_SPARE (k : Nat) : Nat := 0x702000 + 0x8 * k
/-- GF_REG, R451. -/
def A.GF_REG (p : Nat) : Nat := 0x702100 + 0x8 * p
/-- GF_PERR, R451. -/
def A.GF_PERR (p : Nat) : Nat := 0x702200 + 0x8 * p
/-- GF_DOMAIN, R451. -/
def A.GF_DOMAIN (p : Nat) : Nat := 0x702300 + 0x8 * p
/-- GF_EXPORT, R451. -/
def A.GF_EXPORT (c : Nat) : Nat := 0x710000 + 0x8 * c
/-- GF_MCG_CTL, R451. -/
def A.GF_MCG_CTL (g : Nat) : Nat := 0x730000 + 0x8 * g
/-- GF_MCG_MEM, R451. -/
def A.GF_MCG_MEM (g : Nat) (m : Nat) : Nat := 0x740000 + 0x200 * g + 0x8 * m
/-- GF_ROUTE, R431. -/
def A.GF_ROUTE (c : Nat) : Nat := 0x780000 + 0x8 * c
/-- PW_PKG_LIMIT, R476. -/
def A.PW_PKG_LIMIT : Nat := 0x800000
/-- PW_CTL, R476. -/
def A.PW_CTL : Nat := 0x800008
/-- PW_VTAB, R476. -/
def A.PW_VTAB : Nat := 0x800010
/-- PW_STAT, R476. -/
def A.PW_STAT : Nat := 0x800018
/-- PW_TRIP, R476. -/
def A.PW_TRIP : Nat := 0x800020
/-- PW_ERR, R476. -/
def A.PW_ERR : Nat := 0x800028
/-- PW_PART_FLOOR, R476. -/
def A.PW_PART_FLOOR (p : Nat) : Nat := 0x800100 + 0x8 * p
/-- PW_RAIL_CFG, R476. -/
def A.PW_RAIL_CFG (r : Nat) : Nat := 0x800200 + 0x8 * r
/-- PW_RAIL_STAT, R476. -/
def A.PW_RAIL_STAT (r : Nat) : Nat := 0x800300 + 0x8 * r
/-- PW_DIE_STAT, R476. -/
def A.PW_DIE_STAT (n : Nat) : Nat := 0x800400 + 0x8 * n
/-- PW_TEMP, R476. -/
def A.PW_TEMP (i : Nat) : Nat := 0x801000 + 0x8 * i
/-- BT_STAT, R507. -/
def A.BT_STAT : Nat := 0x900000
/-- BT_FW, R507. -/
def A.BT_FW : Nat := 0x900008
/-- BT_CFG, R507. -/
def A.BT_CFG : Nat := 0x900010
/-- BT_CFG_SKIP, R507. -/
def A.BT_CFG_SKIP : Nat := 0x900018
/-- BT_LOCK, R507. -/
def A.BT_LOCK : Nat := 0x900020
/-- BT_POLICY, R507. -/
def A.BT_POLICY : Nat := 0x900028
/-- BT_UPD_ADDR, R507. -/
def A.BT_UPD_ADDR : Nat := 0x900040
/-- BT_UPD_LEN, R507. -/
def A.BT_UPD_LEN : Nat := 0x900048
/-- BT_UPD_CTL, R507. -/
def A.BT_UPD_CTL : Nat := 0x900050
/-- CV_CTL, R510. -/
def A.CV_CTL (k : Nat) : Nat := 0xa00000 + 0x100 * k
/-- CV_DATA, R510. -/
def A.CV_DATA (k : Nat) : Nat := 0xa00008 + 0x100 * k
/-- CV_TAIL, R510. -/
def A.CV_TAIL (k : Nat) : Nat := 0xa00010 + 0x100 * k
/-- CV_STATE, R510. -/
def A.CV_STATE (k : Nat) : Nat := 0xa00018 + 0x100 * k
/-- CV_RESULT, R510. -/
def A.CV_RESULT (k : Nat) : Nat := 0xa00020 + 0x100 * k
/-- CV_COUNT, R510. -/
def A.CV_COUNT (k : Nat) : Nat := 0xa00028 + 0x100 * k
/-- CV_ADDR, R510. -/
def A.CV_ADDR (k : Nat) : Nat := 0xa00030 + 0x100 * k
/-- CV_LEN, R510. -/
def A.CV_LEN (k : Nat) : Nat := 0xa00038 + 0x100 * k
/-- SP_WEAR, R525. -/
def A.SP_WEAR : Nat := 0xb00000
/-- SP_THR, R525. -/
def A.SP_THR (k : Nat) : Nat := 0xb00100 + 0x8 * k
/-- SP_RETIRE, R525. -/
def A.SP_RETIRE : Nat := 0xb00200
/-- SP_REC_CTL, R525. -/
def A.SP_REC_CTL : Nat := 0xb00300
/-- SP_REC_STAT, R525. -/
def A.SP_REC_STAT : Nat := 0xb00308
/-- EV_LOG_BASE, R529. -/
def A.EV_LOG_BASE (l : Nat) : Nat := 0xc00000 + 0x40 * l
/-- EV_LOG_CFG, R529. -/
def A.EV_LOG_CFG (l : Nat) : Nat := 0xc00008 + 0x40 * l
/-- EV_LOG_WR, R529. -/
def A.EV_LOG_WR (l : Nat) : Nat := 0xc00010 + 0x40 * l
/-- EV_LOG_RD, R529. -/
def A.EV_LOG_RD (l : Nat) : Nat := 0xc00018 + 0x40 * l
/-- EV_LOG_STAT, R529. -/
def A.EV_LOG_STAT (l : Nat) : Nat := 0xc00020 + 0x40 * l
/-- EV_HIST, R532. -/
def A.EV_HIST (h : Nat) : Nat := 0xc01000 + 0x8 * h
/-- EV_EXT, R532. -/
def A.EV_EXT (x : Nat) : Nat := 0xc01100 + 0x8 * x
/-- EV_DROP, R532. -/
def A.EV_DROP : Nat := 0xc01200
/-- EV_SNAP, R535. -/
def A.EV_SNAP : Nat := 0xc01300
/-- TD_DBG_CTL, R546. -/
def A.TD_DBG_CTL : Nat := 0xd00000
/-- TD_DBG_STAT, R546. -/
def A.TD_DBG_STAT : Nat := 0xd00008
/-- TD_BRK, R546. -/
def A.TD_BRK (i : Nat) : Nat := 0xd00010 + 0x8 * i
/-- TD_ACC_SEL, R546. -/
def A.TD_ACC_SEL : Nat := 0xd00040
/-- TD_ACC_DATA, R546. -/
def A.TD_ACC_DATA : Nat := 0xd00048
/-- TD_ICT, R546. -/
def A.TD_ICT : Nat := 0xd00100
/-- TD_KGD, R546. -/
def A.TD_KGD (d : Nat) : Nat := 0xd01000 + 0x8 * d
/-- PW_PIN_STAT, R558. -/
def A.PW_PIN_STAT (i : Nat) : Nat := 0x800500 + 0x8 * i
/-- CS_HIT, R296. -/
def A.CS_HIT (p : Nat) (k : Nat) : Nat := 0x330000 + 0x100 * p + 0x10 * k
/-- CS_MISS, R296. -/
def A.CS_MISS (p : Nat) (k : Nat) : Nat := 0x330008 + 0x100 * p + 0x10 * k
/-- CS_THRASH, R296. -/
def A.CS_THRASH (p : Nat) : Nat := 0x330080 + 0x100 * p
/-- CS_RBFULL, R296. -/
def A.CS_RBFULL (p : Nat) : Nat := 0x330088 + 0x100 * p
/-- CS_NA, R296. -/
def A.CS_NA (p : Nat) : Nat := 0x330090 + 0x100 * p
/-- MC_RDLINE, R322. -/
def A.MC_RDLINE (p : Nat) : Nat := 0x430000 + 0x40 * p
/-- MC_RDNARROW, R322. -/
def A.MC_RDNARROW (p : Nat) : Nat := 0x430008 + 0x40 * p
/-- MC_WR, R322. -/
def A.MC_WR (p : Nat) : Nat := 0x430010 + 0x40 * p
/-- MC_CAPWIN, R322. -/
def A.MC_CAPWIN (p : Nat) : Nat := 0x430018 + 0x40 * p
/-- MC_POISON, R322. -/
def A.MC_POISON (p : Nat) : Nat := 0x430020 + 0x40 * p
/-- PU_SRCBYTES, R351. -/
def A.PU_SRCBYTES (p : Nat) : Nat := 0x510000 + 0x40 * p
/-- PU_OUTBYTES, R351. -/
def A.PU_OUTBYTES (p : Nat) : Nat := 0x510008 + 0x40 * p
/-- PU_LBYTES, R351. -/
def A.PU_LBYTES (p : Nat) : Nat := 0x510010 + 0x40 * p
/-- PU_ERR, R351. -/
def A.PU_ERR (p : Nat) : Nat := 0x510018 + 0x40 * p
/-- GF_TXDATA, R452. -/
def A.GF_TXDATA (p : Nat) : Nat := 0x720000 + 0x40 * p
/-- GF_RXDATA, R452. -/
def A.GF_RXDATA (p : Nat) : Nat := 0x720008 + 0x40 * p
/-- GF_WFAIL, R452. -/
def A.GF_WFAIL (p : Nat) : Nat := 0x720010 + 0x40 * p
/-- GF_RFAIL, R452. -/
def A.GF_RFAIL (p : Nat) : Nat := 0x720018 + 0x40 * p
/-- GF_RETX, R452. -/
def A.GF_RETX (p : Nat) : Nat := 0x720020 + 0x40 * p
/-- GF_STALE, R452. -/
def A.GF_STALE (p : Nat) : Nat := 0x720028 + 0x40 * p
/-- GF_SIGDROP, R452. -/
def A.GF_SIGDROP (p : Nat) : Nat := 0x720030 + 0x40 * p
/-- PT_CHG_CORE, R397. -/
def A.PT_CHG_CORE (c : Nat) : Nat := 0x2a0000 + 0x40 * c
/-- PT_CHG_SWITCH, R397. -/
def A.PT_CHG_SWITCH (c : Nat) : Nat := 0x2a0008 + 0x40 * c
/-- PT_CHG_PUMP, R397. -/
def A.PT_CHG_PUMP (c : Nat) : Nat := 0x2a0010 + 0x40 * c
/-- PT_CHG_LIGHTER, R397. -/
def A.PT_CHG_LIGHTER (c : Nat) : Nat := 0x2a0018 + 0x40 * c
/-- PT_CHG_OVERRUN, R397. -/
def A.PT_CHG_OVERRUN (c : Nat) : Nat := 0x2a0020 + 0x40 * c
/-- PW_SKIP, R477. -/
def A.PW_SKIP (n : Nat) : Nat := 0x802000 + 0x40 * n
/-- PW_FILLER, R477. -/
def A.PW_FILLER (n : Nat) : Nat := 0x802008 + 0x40 * n
/-- PW_THROTTLED, R477. -/
def A.PW_THROTTLED (n : Nat) : Nat := 0x802010 + 0x40 * n
/-- PW_PSDOWN, R477. -/
def A.PW_PSDOWN (n : Nat) : Nat := 0x802018 + 0x40 * n
/-- SH_CS_HIT, R535. -/
def A.SH_CS_HIT (p : Nat) (k : Nat) : Nat := 0x340000 + 0x100 * p + 0x10 * k
/-- SH_CS_MISS, R535. -/
def A.SH_CS_MISS (p : Nat) (k : Nat) : Nat := 0x340008 + 0x100 * p + 0x10 * k
/-- SH_CS_THRASH, R535. -/
def A.SH_CS_THRASH (p : Nat) : Nat := 0x340080 + 0x100 * p
/-- SH_CS_RBFULL, R535. -/
def A.SH_CS_RBFULL (p : Nat) : Nat := 0x340088 + 0x100 * p
/-- SH_CS_NA, R535. -/
def A.SH_CS_NA (p : Nat) : Nat := 0x340090 + 0x100 * p
/-- SH_MC_RDLINE, R535. -/
def A.SH_MC_RDLINE (p : Nat) : Nat := 0x440000 + 0x40 * p
/-- SH_MC_RDNARROW, R535. -/
def A.SH_MC_RDNARROW (p : Nat) : Nat := 0x440008 + 0x40 * p
/-- SH_MC_WR, R535. -/
def A.SH_MC_WR (p : Nat) : Nat := 0x440010 + 0x40 * p
/-- SH_MC_CAPWIN, R535. -/
def A.SH_MC_CAPWIN (p : Nat) : Nat := 0x440018 + 0x40 * p
/-- SH_MC_POISON, R535. -/
def A.SH_MC_POISON (p : Nat) : Nat := 0x440020 + 0x40 * p
/-- SH_PU_SRCBYTES, R535. -/
def A.SH_PU_SRCBYTES (p : Nat) : Nat := 0x520000 + 0x40 * p
/-- SH_PU_OUTBYTES, R535. -/
def A.SH_PU_OUTBYTES (p : Nat) : Nat := 0x520008 + 0x40 * p
/-- SH_PU_LBYTES, R535. -/
def A.SH_PU_LBYTES (p : Nat) : Nat := 0x520010 + 0x40 * p
/-- SH_PU_ERR, R535. -/
def A.SH_PU_ERR (p : Nat) : Nat := 0x520018 + 0x40 * p
/-- SH_GF_TXDATA, R535. -/
def A.SH_GF_TXDATA (p : Nat) : Nat := 0x728000 + 0x40 * p
/-- SH_GF_RXDATA, R535. -/
def A.SH_GF_RXDATA (p : Nat) : Nat := 0x728008 + 0x40 * p
/-- SH_GF_WFAIL, R535. -/
def A.SH_GF_WFAIL (p : Nat) : Nat := 0x728010 + 0x40 * p
/-- SH_GF_RFAIL, R535. -/
def A.SH_GF_RFAIL (p : Nat) : Nat := 0x728018 + 0x40 * p
/-- SH_GF_RETX, R535. -/
def A.SH_GF_RETX (p : Nat) : Nat := 0x728020 + 0x40 * p
/-- SH_GF_STALE, R535. -/
def A.SH_GF_STALE (p : Nat) : Nat := 0x728028 + 0x40 * p
/-- SH_GF_SIGDROP, R535. -/
def A.SH_GF_SIGDROP (p : Nat) : Nat := 0x728030 + 0x40 * p
/-- SH_PT_CHG_CORE, R535. -/
def A.SH_PT_CHG_CORE (c : Nat) : Nat := 0x2b0000 + 0x40 * c
/-- SH_PT_CHG_SWITCH, R535. -/
def A.SH_PT_CHG_SWITCH (c : Nat) : Nat := 0x2b0008 + 0x40 * c
/-- SH_PT_CHG_PUMP, R535. -/
def A.SH_PT_CHG_PUMP (c : Nat) : Nat := 0x2b0010 + 0x40 * c
/-- SH_PT_CHG_LIGHTER, R535. -/
def A.SH_PT_CHG_LIGHTER (c : Nat) : Nat := 0x2b0018 + 0x40 * c
/-- SH_PT_CHG_OVERRUN, R535. -/
def A.SH_PT_CHG_OVERRUN (c : Nat) : Nat := 0x2b0020 + 0x40 * c
/-- SH_PW_SKIP, R535. -/
def A.SH_PW_SKIP (n : Nat) : Nat := 0x803000 + 0x40 * n
/-- SH_PW_FILLER, R535. -/
def A.SH_PW_FILLER (n : Nat) : Nat := 0x803008 + 0x40 * n
/-- SH_PW_THROTTLED, R535. -/
def A.SH_PW_THROTTLED (n : Nat) : Nat := 0x803010 + 0x40 * n
/-- SH_PW_PSDOWN, R535. -/
def A.SH_PW_PSDOWN (n : Nat) : Nat := 0x803018 + 0x40 * n
/-- CS_SNAPNUM, R535. -/
def A.CS_SNAPNUM : Nat := 0x341000
/-- MC_SNAPNUM, R535. -/
def A.MC_SNAPNUM : Nat := 0x441000
/-- PU_SNAPNUM, R535. -/
def A.PU_SNAPNUM : Nat := 0x521000
/-- GF_SNAPNUM, R535. -/
def A.GF_SNAPNUM : Nat := 0x729000
/-- PT_SNAPNUM, R535. -/
def A.PT_SNAPNUM : Nat := 0x2c0000
/-- PW_SNAPNUM, R535. -/
def A.PW_SNAPNUM : Nat := 0x803800
/-- PT_FLOG, R64. -/
def A.PT_FLOG (p : Nat) (i : Nat) : Nat := 0x290000 + 0x400 * p + 0x8 * i

def F.PT_VF_APSIZE_SIZE : Fld := ⟨A.PT_VF_APSIZE, 3, 0⟩
def F.PT_VF_APBASE_BASE (v : Nat) : Fld := ⟨A.PT_VF_APBASE v, 39, 30⟩
def F.PT_HWIN_V (i : Nat) : Fld := ⟨A.PT_HWIN i, 0, 0⟩
def F.PT_HWIN_W (i : Nat) : Fld := ⟨A.PT_HWIN i, 1, 1⟩
def F.PT_HWIN_NS (i : Nat) : Fld := ⟨A.PT_HWIN i, 2, 2⟩
def F.PT_HWIN_LOG (i : Nat) : Fld := ⟨A.PT_HWIN i, 3, 3⟩
def F.PT_HWIN_PART (i : Nat) : Fld := ⟨A.PT_HWIN i, 7, 4⟩
def F.PT_HWIN_FUNC (i : Nat) : Fld := ⟨A.PT_HWIN i, 13, 8⟩
def F.PT_HWIN_HADDR (i : Nat) : Fld := ⟨A.PT_HWIN i, 63, 30⟩
def F.PT_HWIN_SYNC_GO : Fld := ⟨A.PT_HWIN_SYNC, 0, 0⟩
def F.PT_HWIN_SYNC_DONE : Fld := ⟨A.PT_HWIN_SYNC, 1, 1⟩
def F.PT_HOSTERR_HOLE : Fld := ⟨A.PT_HOSTERR, 0, 0⟩
def F.PT_HOSTERR_WRITE : Fld := ⟨A.PT_HOSTERR, 1, 1⟩
def F.PT_HOSTERR_FUNC : Fld := ⟨A.PT_HOSTERR, 13, 8⟩
def F.PT_HOSTERR_COUNT : Fld := ⟨A.PT_HOSTERR, 63, 32⟩
def F.PT_XLAT_INV_CTX (v : Nat) : Fld := ⟨A.PT_XLAT_INV v, 9, 0⟩
def F.PT_XLAT_INV_SCOPE (v : Nat) : Fld := ⟨A.PT_XLAT_INV v, 11, 10⟩
def F.PT_XLAT_INV_GO (v : Nat) : Fld := ⟨A.PT_XLAT_INV v, 31, 31⟩
def F.PT_XLAT_INV_BUSY (v : Nat) : Fld := ⟨A.PT_XLAT_INV v, 32, 32⟩
def F.PT_XLAT_INV_ERR (v : Nat) : Fld := ⟨A.PT_XLAT_INV v, 33, 33⟩
def F.PT_XLAT_INV_VA_VA (v : Nat) : Fld := ⟨A.PT_XLAT_INV_VA v, 63, 0⟩
def F.PT_XLAT_INV_PAGES_PAGES (v : Nat) : Fld := ⟨A.PT_XLAT_INV_PAGES v, 31, 0⟩
def F.PT_FAULT_STAT_COUNT (p : Nat) : Fld := ⟨A.PT_FAULT_STAT p, 4, 0⟩
def F.PT_FAULT_STAT_LOST (p : Nat) : Fld := ⟨A.PT_FAULT_STAT p, 31, 16⟩
def F.PT_FAULT_CLR_CLR (p : Nat) : Fld := ⟨A.PT_FAULT_CLR p, 0, 0⟩
def F.PT_FAULT_VEC_FVEC (p : Nat) : Fld := ⟨A.PT_FAULT_VEC p, 10, 0⟩
def F.SL_SHARE_SEAM (p : Nat) : Fld := ⟨A.SL_SHARE p, 6, 0⟩
def F.SL_SHARE_BRIDGE (p : Nat) : Fld := ⟨A.SL_SHARE p, 14, 8⟩
def F.SL_ERR_SUM : Fld := ⟨A.SL_ERR, 0, 0⟩
def F.SL_ERR_BUSY : Fld := ⟨A.SL_ERR, 1, 1⟩
def F.SL_PIPE_STAT_BOUND (n : Nat) : Fld := ⟨A.SL_PIPE_STAT n, 0, 0⟩
def F.SL_PIPE_STAT_DEGRADED (n : Nat) : Fld := ⟨A.SL_PIPE_STAT n, 1, 1⟩
def F.SL_PIPE_STAT_PART (n : Nat) : Fld := ⟨A.SL_PIPE_STAT n, 11, 8⟩
def F.SL_PIPE_STAT_SVC (n : Nat) : Fld := ⟨A.SL_PIPE_STAT n, 63, 32⟩
def F.SL_PIPE_EXCESS_MAXEXC (n : Nat) : Fld := ⟨A.SL_PIPE_EXCESS n, 31, 0⟩
def F.SL_PIPE_EXCESS_LATE (n : Nat) : Fld := ⟨A.SL_PIPE_EXCESS n, 63, 32⟩
def F.SL_PIPE_CLR_CLR (n : Nat) : Fld := ⟨A.SL_PIPE_CLR n, 0, 0⟩
def F.CS_PSLICE_SLICES (p : Nat) (w : Nat) : Fld := ⟨A.CS_PSLICE p w, 63, 0⟩
def F.CS_PART_CTL_PINWAYS (p : Nat) : Fld := ⟨A.CS_PART_CTL p, 4, 0⟩
def F.CS_PART_CTL_SDIS (p : Nat) : Fld := ⟨A.CS_PART_CTL p, 8, 8⟩
def F.CS_FLUSH_GO (p : Nat) : Fld := ⟨A.CS_FLUSH p, 0, 0⟩
def F.CS_FLUSH_BUSY (p : Nat) : Fld := ⟨A.CS_FLUSH p, 1, 1⟩
def F.CS_ERR_BUSY : Fld := ⟨A.CS_ERR, 0, 0⟩
def F.CS_ERR_OVERLAP : Fld := ⟨A.CS_ERR, 1, 1⟩
def F.CS_ERR_PINCAP : Fld := ⟨A.CS_ERR, 2, 2⟩
def F.CS_ERR_FLUSHBUSY : Fld := ⟨A.CS_ERR, 3, 3⟩
def F.CS_REHOME_BUSY : Fld := ⟨A.CS_REHOME, 0, 0⟩
def F.CS_HOMEMAP_PART (c : Nat) : Fld := ⟨A.CS_HOMEMAP c, 3, 0⟩
def F.CS_HOMEMAP_NEARQ (c : Nat) : Fld := ⟨A.CS_HOMEMAP c, 5, 4⟩
def F.CS_PIN_BASE_LINE (p : Nat) : Fld := ⟨A.CS_PIN_BASE p, 56, 7⟩
def F.CS_PIN_LINES_COUNT (p : Nat) : Fld := ⟨A.CS_PIN_LINES p, 23, 0⟩
def F.CS_PIN_CTL_OP (p : Nat) : Fld := ⟨A.CS_PIN_CTL p, 1, 0⟩
def F.CS_PIN_CTL_GO (p : Nat) : Fld := ⟨A.CS_PIN_CTL p, 2, 2⟩
def F.CS_PIN_CTL_BUSY (p : Nat) : Fld := ⟨A.CS_PIN_CTL p, 3, 3⟩
def F.CS_PIN_CTL_STATUS (p : Nat) : Fld := ⟨A.CS_PIN_CTL p, 6, 4⟩
def F.CS_PIN_STAT_NOTPINNED (p : Nat) : Fld := ⟨A.CS_PIN_STAT p, 23, 0⟩
def F.CS_PIN_STAT_PINNED (p : Nat) : Fld := ⟨A.CS_PIN_STAT p, 55, 32⟩
def F.MC_REG_GUAR (p : Nat) : Fld := ⟨A.MC_REG p, 7, 0⟩
def F.MC_REG_CAP (p : Nat) : Fld := ⟨A.MC_REG p, 16, 8⟩
def F.MC_ERR_SUM : Fld := ⟨A.MC_ERR, 0, 0⟩
def F.MC_ERR_RANGE : Fld := ⟨A.MC_ERR, 1, 1⟩
def F.MC_SCRUB_HOURS : Fld := ⟨A.MC_SCRUB, 7, 0⟩
def F.MC_EVAC_CH : Fld := ⟨A.MC_EVAC, 10, 0⟩
def F.MC_EVAC_GO : Fld := ⟨A.MC_EVAC, 16, 16⟩
def F.MC_EVAC_BUSY : Fld := ⟨A.MC_EVAC, 17, 17⟩
def F.MC_EVAC_STATUS : Fld := ⟨A.MC_EVAC, 20, 18⟩
def F.MC_CH_STAT_STATE (c : Nat) : Fld := ⟨A.MC_CH_STAT c, 1, 0⟩
def F.MC_CH_STAT_BAND (c : Nat) : Fld := ⟨A.MC_CH_STAT c, 3, 2⟩
def F.MC_CH_STAT_PHYS (c : Nat) : Fld := ⟨A.MC_CH_STAT c, 15, 4⟩
def F.MC_CH_STAT_ROWS (c : Nat) : Fld := ⟨A.MC_CH_STAT c, 27, 16⟩
def F.MC_CH_STAT_CORR (c : Nat) : Fld := ⟨A.MC_CH_STAT c, 63, 32⟩
def F.MC_STACK_TEMP (m : Nat) : Fld := ⟨A.MC_STACK m, 7, 0⟩
def F.MC_STACK_BAND (m : Nat) : Fld := ⟨A.MC_STACK m, 9, 8⟩
def F.MC_STACK_SPARES (m : Nat) : Fld := ⟨A.MC_STACK m, 12, 10⟩
def F.MC_STACK_EVAC (m : Nat) : Fld := ⟨A.MC_STACK m, 13, 13⟩
def F.MC_STACK_SENSOR_FAULT (m : Nat) : Fld := ⟨A.MC_STACK m, 14, 14⟩
def F.PU_UNIT_STAT_STATE (u : Nat) : Fld := ⟨A.PU_UNIT_STAT u, 1, 0⟩
def F.PU_UNIT_STAT_PART (u : Nat) : Fld := ⟨A.PU_UNIT_STAT u, 11, 8⟩
def F.PU_UNIT_STAT_CMDS (u : Nat) : Fld := ⟨A.PU_UNIT_STAT u, 63, 32⟩
def F.FE_Q_RING_BASE (q : Nat) : Fld := ⟨A.FE_Q_RING q, 56, 12⟩
def F.FE_Q_CQ_BASE (q : Nat) : Fld := ⟨A.FE_Q_CQ q, 56, 12⟩
def F.FE_Q_CQHEAD_ADDR (q : Nat) : Fld := ⟨A.FE_Q_CQHEAD q, 56, 2⟩
def F.FE_Q_CFG_SIZE (q : Nat) : Fld := ⟨A.FE_Q_CFG q, 4, 0⟩
def F.FE_Q_CFG_CQSIZE (q : Nat) : Fld := ⟨A.FE_Q_CFG q, 12, 8⟩
def F.FE_Q_CFG_MAXRUN (q : Nat) : Fld := ⟨A.FE_Q_CFG q, 25, 16⟩
def F.FE_Q_CFG_WDOG (q : Nat) : Fld := ⟨A.FE_Q_CFG q, 47, 32⟩
def F.FE_Q_VEC_CVEC (q : Nat) : Fld := ⟨A.FE_Q_VEC q, 10, 0⟩
def F.FE_Q_VEC_FVEC (q : Nat) : Fld := ⟨A.FE_Q_VEC q, 26, 16⟩
def F.FE_Q_OWN_PART (q : Nat) : Fld := ⟨A.FE_Q_OWN q, 3, 0⟩
def F.FE_Q_OWN_FUNC (q : Nat) : Fld := ⟨A.FE_Q_OWN q, 13, 8⟩
def F.FE_Q_OWN_CTX (q : Nat) : Fld := ⟨A.FE_Q_OWN q, 25, 16⟩
def F.FE_Q_OWN_PRIV (q : Nat) : Fld := ⟨A.FE_Q_OWN q, 32, 32⟩
def F.FE_Q_CTL_ENABLE (q : Nat) : Fld := ⟨A.FE_Q_CTL q, 0, 0⟩
def F.FE_Q_CTL_RESET (q : Nat) : Fld := ⟨A.FE_Q_CTL q, 1, 1⟩
def F.FE_Q_STAT_STATE (q : Nat) : Fld := ⟨A.FE_Q_STAT q, 2, 0⟩
def F.FE_Q_STAT_CAUSE (q : Nat) : Fld := ⟨A.FE_Q_STAT q, 11, 8⟩
def F.FE_Q_STAT_ENERR (q : Nat) : Fld := ⟨A.FE_Q_STAT q, 15, 12⟩
def F.FE_Q_STAT_FCODE (q : Nat) : Fld := ⟨A.FE_Q_STAT q, 23, 16⟩
def F.FE_Q_STAT_HELD (q : Nat) : Fld := ⟨A.FE_Q_STAT q, 30, 24⟩
def F.FE_Q_STAT_DBERR (q : Nat) : Fld := ⟨A.FE_Q_STAT q, 31, 31⟩
def F.FE_Q_STAT_EPOCH (q : Nat) : Fld := ⟨A.FE_Q_STAT q, 39, 32⟩
def F.FE_Q_STAT_DBDROP (q : Nat) : Fld := ⟨A.FE_Q_STAT q, 47, 40⟩
def F.FE_Q_SEQ_NEXT (q : Nat) : Fld := ⟨A.FE_Q_SEQ q, 47, 0⟩
def F.FE_Q_DONE_DONE (q : Nat) : Fld := ⟨A.FE_Q_DONE q, 47, 0⟩
def F.FE_Q_PTR_HEAD (q : Nat) : Fld := ⟨A.FE_Q_PTR q, 31, 0⟩
def F.FE_Q_PTR_TAIL (q : Nat) : Fld := ⟨A.FE_Q_PTR q, 63, 32⟩
def F.FE_Q_CQPTR_WRITTEN (q : Nat) : Fld := ⟨A.FE_Q_CQPTR q, 31, 0⟩
def F.FE_Q_CQPTR_HOSTHEAD (q : Nat) : Fld := ⟨A.FE_Q_CQPTR q, 63, 32⟩
def F.FE_DB_DROP_COUNT : Fld := ⟨A.FE_DB_DROP, 47, 0⟩
def F.FE_DB_DROP_LASTQ : Fld := ⟨A.FE_DB_DROP, 59, 48⟩
def F.FE_DB_DROP_LASTWHY : Fld := ⟨A.FE_DB_DROP, 63, 60⟩
def F.FE_ERR_QBUSY : Fld := ⟨A.FE_ERR, 0, 0⟩
def F.FE_ERR_VFQ : Fld := ⟨A.FE_ERR, 1, 1⟩
def F.FE_ERR_BERTH : Fld := ⟨A.FE_ERR, 2, 2⟩
def F.FE_ERR_GSTORE : Fld := ⟨A.FE_ERR, 3, 3⟩
def F.FE_INFLIGHT_COUNT : Fld := ⟨A.FE_INFLIGHT, 15, 0⟩
def F.FE_DEV_RESET_GO : Fld := ⟨A.FE_DEV_RESET, 0, 0⟩
def F.FE_DEV_RESET_BUSY : Fld := ⟨A.FE_DEV_RESET, 1, 1⟩
def F.FE_DEV_RESET_COUNT : Fld := ⟨A.FE_DEV_RESET, 47, 32⟩
def F.FE_BERTH_CFG_DEPTH (b : Nat) : Fld := ⟨A.FE_BERTH_CFG b, 3, 0⟩
def F.FE_BERTH_CFG_BASE (b : Nat) : Fld := ⟨A.FE_BERTH_CFG b, 56, 12⟩
def F.FE_BERTH_OWN_CTX (b : Nat) : Fld := ⟨A.FE_BERTH_OWN b, 9, 0⟩
def F.FE_BERTH_OWN_PART (b : Nat) : Fld := ⟨A.FE_BERTH_OWN b, 19, 16⟩
def F.FE_BERTH_OWN_EN (b : Nat) : Fld := ⟨A.FE_BERTH_OWN b, 20, 20⟩
def F.FE_BERTH_OWN_COUNT (b : Nat) : Fld := ⟨A.FE_BERTH_OWN b, 47, 32⟩
def F.FE_GSTORE_BASE (p : Nat) : Fld := ⟨A.FE_GSTORE p, 56, 16⟩
def F.FE_GSIZE_SIZE (p : Nat) : Fld := ⟨A.FE_GSIZE p, 15, 0⟩
def F.FE_GSIZE_FREE (p : Nat) : Fld := ⟨A.FE_GSIZE p, 51, 32⟩
def F.FE_GRAPH_DEFINED (p : Nat) (g : Nat) : Fld := ⟨A.FE_GRAPH p g, 0, 0⟩
def F.FE_GRAPH_DELETING (p : Nat) (g : Nat) : Fld := ⟨A.FE_GRAPH p g, 1, 1⟩
def F.FE_GRAPH_LIVE (p : Nat) (g : Nat) : Fld := ⟨A.FE_GRAPH p g, 3, 2⟩
def F.FE_GRAPH_PATCHWAIT (p : Nat) (g : Nat) : Fld := ⟨A.FE_GRAPH p g, 4, 4⟩
def F.FE_GRAPH_CURVER (p : Nat) (g : Nat) : Fld := ⟨A.FE_GRAPH p g, 31, 16⟩
def F.FE_GRAPH_ENTRIES (p : Nat) (g : Nat) : Fld := ⟨A.FE_GRAPH p g, 44, 32⟩
def F.FE_GRAPH_PINS (p : Nat) (g : Nat) : Fld := ⟨A.FE_GRAPH p g, 63, 48⟩
def F.PT_PART_CTL_EN (p : Nat) : Fld := ⟨A.PT_PART_CTL p, 0, 0⟩
def F.PT_PART_CTL_SLICE (p : Nat) : Fld := ⟨A.PT_PART_CTL p, 31, 16⟩
def F.PT_PART_CL_CLUSTERS (p : Nat) (w : Nat) : Fld := ⟨A.PT_PART_CL p w, 63, 0⟩
def F.PT_PART_PU_PUMPS (p : Nat) (w : Nat) : Fld := ⟨A.PT_PART_PU p w, 63, 0⟩
def F.PT_PART_LT_LIGHTERS (p : Nat) : Fld := ⟨A.PT_PART_LT p, 31, 0⟩
def F.PT_PART_STAT_LIVE (p : Nat) : Fld := ⟨A.PT_PART_STAT p, 10, 0⟩
def F.PT_PART_STAT_CLUSTERS (p : Nat) : Fld := ⟨A.PT_PART_STAT p, 23, 16⟩
def F.PT_PART_STAT_SWBOUND (p : Nat) : Fld := ⟨A.PT_PART_STAT p, 32, 32⟩
def F.PT_ERR_OVERLAP : Fld := ⟨A.PT_ERR, 0, 0⟩
def F.PT_ERR_BUSY : Fld := ⟨A.PT_ERR, 1, 1⟩
def F.PT_ERR_CTX : Fld := ⟨A.PT_ERR, 2, 2⟩
def F.PT_ERR_BIND : Fld := ⟨A.PT_ERR, 3, 3⟩
def F.PT_CTX_ROOT_SETUP (c : Nat) : Fld := ⟨A.PT_CTX_ROOT c, 0, 0⟩
def F.PT_CTX_ROOT_ROOT (c : Nat) : Fld := ⟨A.PT_CTX_ROOT c, 56, 16⟩
def F.PT_CTX_CTL_PART (c : Nat) : Fld := ⟨A.PT_CTX_CTL c, 3, 0⟩
def F.PT_CTX_CTL_FUNC (c : Nat) : Fld := ⟨A.PT_CTX_CTL c, 9, 4⟩
def F.PT_CTX_CTL_SHARE (c : Nat) : Fld := ⟨A.PT_CTX_CTL c, 23, 16⟩
def F.PT_CTX_CTL_LIVE (c : Nat) : Fld := ⟨A.PT_CTX_CTL c, 32, 32⟩
def F.PT_CTX_CL_CLUSTERS (c : Nat) (w : Nat) : Fld := ⟨A.PT_CTX_CL c w, 63, 0⟩
def F.PT_CTX_SAVE_BASE (c : Nat) : Fld := ⟨A.PT_CTX_SAVE c, 56, 16⟩
def F.PT_CTX_STAT_STATE (c : Nat) : Fld := ⟨A.PT_CTX_STAT c, 2, 0⟩
def F.PT_CTX_STAT_CAUSE (c : Nat) : Fld := ⟨A.PT_CTX_STAT c, 15, 8⟩
def F.PT_CTX_STAT_CGEN (c : Nat) : Fld := ⟨A.PT_CTX_STAT c, 31, 16⟩
def F.PT_CTX_TEAR_GO (c : Nat) : Fld := ⟨A.PT_CTX_TEAR c, 0, 0⟩
def F.PT_FN_PART (v : Nat) : Fld := ⟨A.PT_FN v, 3, 0⟩
def F.PT_FN_BOUND (v : Nat) : Fld := ⟨A.PT_FN v, 4, 4⟩
def F.PT_FN_GEN (v : Nat) : Fld := ⟨A.PT_FN v, 31, 16⟩
def F.PT_MIG_CTL_VF : Fld := ⟨A.PT_MIG_CTL, 5, 0⟩
def F.PT_MIG_CTL_OP : Fld := ⟨A.PT_MIG_CTL, 10, 8⟩
def F.PT_MIG_CTL_GO : Fld := ⟨A.PT_MIG_CTL, 11, 11⟩
def F.PT_MIG_CTL_BUSY : Fld := ⟨A.PT_MIG_CTL, 12, 12⟩
def F.PT_MIG_CTL_STATUS : Fld := ⟨A.PT_MIG_CTL, 15, 13⟩
def F.PT_MIG_BUF_BASE : Fld := ⟨A.PT_MIG_BUF, 56, 12⟩
def F.PT_MIG_LEN_LEN : Fld := ⟨A.PT_MIG_LEN, 31, 0⟩
def F.PT_DIRTY_BASE_BASE (i : Nat) : Fld := ⟨A.PT_DIRTY_BASE i, 56, 25⟩
def F.PT_DIRTY_CTL_EN : Fld := ⟨A.PT_DIRTY_CTL, 0, 0⟩
def F.PT_DIRTY_CTL_SEL : Fld := ⟨A.PT_DIRTY_CTL, 1, 1⟩
def F.PT_DIRTY_CTL_SYNC : Fld := ⟨A.PT_DIRTY_CTL, 2, 2⟩
def F.PT_DIRTY_CTL_DONE : Fld := ⟨A.PT_DIRTY_CTL, 3, 3⟩
def F.GF_CHIPID_CHIP : Fld := ⟨A.GF_CHIPID, 15, 0⟩
def F.GF_CHIPID_INST : Fld := ⟨A.GF_CHIPID, 31, 16⟩
def F.GF_CONNBASE_BASE : Fld := ⟨A.GF_CONNBASE, 56, 25⟩
def F.GF_XPORT_RTO : Fld := ⟨A.GF_XPORT, 7, 0⟩
def F.GF_XPORT_LIMIT : Fld := ⟨A.GF_XPORT, 13, 8⟩
def F.GF_ERR_BUSY : Fld := ⟨A.GF_ERR, 0, 0⟩
def F.GF_ERR_SUM : Fld := ⟨A.GF_ERR, 1, 1⟩
def F.GF_ERR_RANGE : Fld := ⟨A.GF_ERR, 2, 2⟩
def F.GF_ERR_NOSTART : Fld := ⟨A.GF_ERR, 3, 3⟩
def F.GF_RXDROP_COUNT : Fld := ⟨A.GF_RXDROP, 47, 0⟩
def F.GF_PORT_CTL_EN (j : Nat) : Fld := ⟨A.GF_PORT_CTL j, 0, 0⟩
def F.GF_PORT_CTL_PMD (j : Nat) : Fld := ⟨A.GF_PORT_CTL j, 1, 1⟩
def F.GF_PORT_STAT_STATE (j : Nat) : Fld := ⟨A.GF_PORT_STAT j, 2, 0⟩
def F.GF_PORT_STAT_LANES (j : Nat) : Fld := ⟨A.GF_PORT_STAT j, 4, 3⟩
def F.GF_PORT_STAT_SPARE (j : Nat) : Fld := ⟨A.GF_PORT_STAT j, 6, 5⟩
def F.GF_PORT_STAT_RETRY (j : Nat) : Fld := ⟨A.GF_PORT_STAT j, 63, 32⟩
def F.GF_PORT_FEC_CORR (j : Nat) : Fld := ⟨A.GF_PORT_FEC j, 31, 0⟩
def F.GF_PORT_FEC_UNCORR (j : Nat) : Fld := ⟨A.GF_PORT_FEC j, 63, 32⟩
def F.GF_SPARE_PORTS (k : Nat) : Fld := ⟨A.GF_SPARE k, 17, 0⟩
def F.GF_SPARE_USED (k : Nat) : Fld := ⟨A.GF_SPARE k, 32, 32⟩
def F.GF_SPARE_PORT (k : Nat) : Fld := ⟨A.GF_SPARE k, 37, 33⟩
def F.GF_SPARE_FAILED (k : Nat) : Fld := ⟨A.GF_SPARE k, 38, 38⟩
def F.GF_REG_GUAR (p : Nat) : Fld := ⟨A.GF_REG p, 6, 0⟩
def F.GF_REG_CAP (p : Nat) : Fld := ⟨A.GF_REG p, 14, 8⟩
def F.GF_PERR_COUNT (p : Nat) : Fld := ⟨A.GF_PERR p, 23, 0⟩
def F.GF_PERR_LAST (p : Nat) : Fld := ⟨A.GF_PERR p, 31, 24⟩
def F.GF_PERR_LASTCHIP (p : Nat) : Fld := ⟨A.GF_PERR p, 47, 32⟩
def F.GF_PERR_VEC (p : Nat) : Fld := ⟨A.GF_PERR p, 58, 48⟩
def F.GF_DOMAIN_DOMAIN (p : Nat) : Fld := ⟨A.GF_DOMAIN p, 15, 0⟩
def F.GF_EXPORT_R (c : Nat) : Fld := ⟨A.GF_EXPORT c, 0, 0⟩
def F.GF_EXPORT_W (c : Nat) : Fld := ⟨A.GF_EXPORT c, 1, 1⟩
def F.GF_EXPORT_DOMAIN (c : Nat) : Fld := ⟨A.GF_EXPORT c, 31, 16⟩
def F.GF_MCG_CTL_EN (g : Nat) : Fld := ⟨A.GF_MCG_CTL g, 0, 0⟩
def F.GF_MCG_CTL_PART (g : Nat) : Fld := ⟨A.GF_MCG_CTL g, 7, 4⟩
def F.GF_MCG_MEM_V (g : Nat) (m : Nat) : Fld := ⟨A.GF_MCG_MEM g m, 0, 0⟩
def F.GF_MCG_MEM_CHIP (g : Nat) (m : Nat) : Fld := ⟨A.GF_MCG_MEM g m, 31, 16⟩
def F.GF_MCG_MEM_BASE (g : Nat) (m : Nat) : Fld := ⟨A.GF_MCG_MEM g m, 41, 32⟩
def F.GF_ROUTE_PORTS (c : Nat) : Fld := ⟨A.GF_ROUTE c, 35, 0⟩
def F.GF_ROUTE_V (c : Nat) : Fld := ⟨A.GF_ROUTE c, 36, 36⟩
def F.GF_ROUTE_MODE (c : Nat) : Fld := ⟨A.GF_ROUTE c, 38, 37⟩
def F.PW_PKG_LIMIT_LIMIT : Fld := ⟨A.PW_PKG_LIMIT, 11, 0⟩
def F.PW_CTL_MAXPS : Fld := ⟨A.PW_CTL, 1, 0⟩
def F.PW_CTL_THROT : Fld := ⟨A.PW_CTL, 14, 8⟩
def F.PW_CTL_DROOP : Fld := ⟨A.PW_CTL, 22, 16⟩
def F.PW_CTL_FALLSTEP : Fld := ⟨A.PW_CTL, 44, 32⟩
def F.PW_VTAB_V4 : Fld := ⟨A.PW_VTAB, 9, 0⟩
def F.PW_VTAB_V5 : Fld := ⟨A.PW_VTAB, 19, 10⟩
def F.PW_VTAB_V6 : Fld := ⟨A.PW_VTAB, 29, 20⟩
def F.PW_VTAB_V8 : Fld := ⟨A.PW_VTAB, 39, 30⟩
def F.PW_STAT_PKGW : Fld := ⟨A.PW_STAT, 11, 0⟩
def F.PW_STAT_VRALERT : Fld := ⟨A.PW_STAT, 12, 12⟩
def F.PW_STAT_VRSTUCK : Fld := ⟨A.PW_STAT, 13, 13⟩
def F.PW_STAT_COOLANT : Fld := ⟨A.PW_STAT, 14, 14⟩
def F.PW_STAT_LIMITED : Fld := ⟨A.PW_STAT, 15, 15⟩
def F.PW_TRIP_CAUSE : Fld := ⟨A.PW_TRIP, 3, 0⟩
def F.PW_TRIP_POINT : Fld := ⟨A.PW_TRIP, 12, 4⟩
def F.PW_ERR_RANGE : Fld := ⟨A.PW_ERR, 0, 0⟩
def F.PW_ERR_SENSOR : Fld := ⟨A.PW_ERR, 1, 1⟩
def F.PW_ERR_AVS : Fld := ⟨A.PW_ERR, 2, 2⟩
def F.PW_PART_FLOOR_FLOOR (p : Nat) : Fld := ⟨A.PW_PART_FLOOR p, 6, 0⟩
def F.PW_RAIL_CFG_ILIM (r : Nat) : Fld := ⟨A.PW_RAIL_CFG r, 8, 0⟩
def F.PW_RAIL_STAT_IMEAS (r : Nat) : Fld := ⟨A.PW_RAIL_STAT r, 9, 0⟩
def F.PW_RAIL_STAT_VMEAS (r : Nat) : Fld := ⟨A.PW_RAIL_STAT r, 19, 10⟩
def F.PW_RAIL_STAT_GAIN (r : Nat) : Fld := ⟨A.PW_RAIL_STAT r, 29, 20⟩
def F.PW_RAIL_STAT_INVALID (r : Nat) : Fld := ⟨A.PW_RAIL_STAT r, 30, 30⟩
def F.PW_RAIL_STAT_BAD (r : Nat) : Fld := ⟨A.PW_RAIL_STAT r, 63, 32⟩
def F.PW_DIE_STAT_TEMP (n : Nat) : Fld := ⟨A.PW_DIE_STAT n, 7, 0⟩
def F.PW_DIE_STAT_PSTATE (n : Nat) : Fld := ⟨A.PW_DIE_STAT n, 9, 8⟩
def F.PW_DIE_STAT_LEVEL (n : Nat) : Fld := ⟨A.PW_DIE_STAT n, 22, 16⟩
def F.PW_DIE_STAT_HOT (n : Nat) : Fld := ⟨A.PW_DIE_STAT n, 23, 23⟩
def F.PW_DIE_STAT_DEGRADED (n : Nat) : Fld := ⟨A.PW_DIE_STAT n, 24, 24⟩
def F.PW_TEMP_TEMP (i : Nat) : Fld := ⟨A.PW_TEMP i, 7, 0⟩
def F.PW_TEMP_VALID (i : Nat) : Fld := ⟨A.PW_TEMP i, 8, 8⟩
def F.BT_STAT_READY : Fld := ⟨A.BT_STAT, 0, 0⟩
def F.BT_STAT_LOCK : Fld := ⟨A.BT_STAT, 1, 1⟩
def F.BT_STAT_LEAD : Fld := ⟨A.BT_STAT, 2, 2⟩
def F.BT_STAT_OWNED : Fld := ⟨A.BT_STAT, 3, 3⟩
def F.BT_STAT_IDFAIL : Fld := ⟨A.BT_STAT, 4, 4⟩
def F.BT_STAT_FWSLOT : Fld := ⟨A.BT_STAT, 5, 5⟩
def F.BT_STAT_FAILA : Fld := ⟨A.BT_STAT, 11, 8⟩
def F.BT_STAT_FAILB : Fld := ⟨A.BT_STAT, 15, 12⟩
def F.BT_STAT_CFGSRC : Fld := ⟨A.BT_STAT, 17, 16⟩
def F.BT_STAT_CFGFALL : Fld := ⟨A.BT_STAT, 18, 18⟩
def F.BT_STAT_RECFAIL : Fld := ⟨A.BT_STAT, 19, 19⟩
def F.BT_STAT_BOOTTIME : Fld := ⟨A.BT_STAT, 63, 32⟩
def F.BT_FW_VERSION : Fld := ⟨A.BT_FW, 31, 0⟩
def F.BT_FW_SVN : Fld := ⟨A.BT_FW, 47, 32⟩
def F.BT_FW_SVNFLOOR : Fld := ⟨A.BT_FW, 63, 48⟩
def F.BT_CFG_VERSION : Fld := ⟨A.BT_CFG, 31, 0⟩
def F.BT_CFG_SEQ : Fld := ⟨A.BT_CFG, 63, 32⟩
def F.BT_CFG_SKIP_SKIPPED : Fld := ⟨A.BT_CFG_SKIP, 15, 0⟩
def F.BT_CFG_SKIP_FIRST : Fld := ⟨A.BT_CFG_SKIP, 31, 16⟩
def F.BT_LOCK_SET : Fld := ⟨A.BT_LOCK, 0, 0⟩
def F.BT_POLICY_DBG : Fld := ⟨A.BT_POLICY, 1, 0⟩
def F.BT_POLICY_UPDEN : Fld := ⟨A.BT_POLICY, 2, 2⟩
def F.BT_POLICY_SPDMI3C : Fld := ⟨A.BT_POLICY, 3, 3⟩
def F.BT_UPD_ADDR_ADDR : Fld := ⟨A.BT_UPD_ADDR, 56, 12⟩
def F.BT_UPD_LEN_LEN : Fld := ⟨A.BT_UPD_LEN, 24, 0⟩
def F.BT_UPD_CTL_OP : Fld := ⟨A.BT_UPD_CTL, 2, 0⟩
def F.BT_UPD_CTL_GO : Fld := ⟨A.BT_UPD_CTL, 3, 3⟩
def F.BT_UPD_CTL_BUSY : Fld := ⟨A.BT_UPD_CTL, 4, 4⟩
def F.BT_UPD_CTL_STATUS : Fld := ⟨A.BT_UPD_CTL, 7, 5⟩
def F.CV_CTL_INIT (k : Nat) : Fld := ⟨A.CV_CTL k, 0, 0⟩
def F.CV_CTL_GO (k : Nat) : Fld := ⟨A.CV_CTL k, 1, 1⟩
def F.CV_CTL_BUSY (k : Nat) : Fld := ⟨A.CV_CTL k, 2, 2⟩
def F.CV_CTL_STATUS (k : Nat) : Fld := ⟨A.CV_CTL k, 5, 3⟩
def F.CV_DATA_DATA (k : Nat) : Fld := ⟨A.CV_DATA k, 63, 0⟩
def F.CV_TAIL_DATA (k : Nat) : Fld := ⟨A.CV_TAIL k, 23, 0⟩
def F.CV_TAIL_N (k : Nat) : Fld := ⟨A.CV_TAIL k, 25, 24⟩
def F.CV_STATE_STATE (k : Nat) : Fld := ⟨A.CV_STATE k, 31, 0⟩
def F.CV_RESULT_RESULT (k : Nat) : Fld := ⟨A.CV_RESULT k, 31, 0⟩
def F.CV_COUNT_COUNT (k : Nat) : Fld := ⟨A.CV_COUNT k, 47, 0⟩
def F.CV_ADDR_ADDR (k : Nat) : Fld := ⟨A.CV_ADDR k, 56, 0⟩
def F.CV_LEN_LEN (k : Nat) : Fld := ⟨A.CV_LEN k, 39, 0⟩
def F.SP_WEAR_WINDOW : Fld := ⟨A.SP_WEAR, 7, 0⟩
def F.SP_THR_THR (k : Nat) : Fld := ⟨A.SP_THR k, 31, 0⟩
def F.SP_RETIRE_KIND : Fld := ⟨A.SP_RETIRE, 1, 0⟩
def F.SP_RETIRE_UNIT : Fld := ⟨A.SP_RETIRE, 27, 16⟩
def F.SP_RETIRE_GO : Fld := ⟨A.SP_RETIRE, 32, 32⟩
def F.SP_RETIRE_STATUS : Fld := ⟨A.SP_RETIRE, 35, 33⟩
def F.SP_REC_CTL_GO : Fld := ⟨A.SP_REC_CTL, 0, 0⟩
def F.SP_REC_CTL_BUSY : Fld := ⟨A.SP_REC_CTL, 1, 1⟩
def F.SP_REC_CTL_STATUS : Fld := ⟨A.SP_REC_CTL, 4, 2⟩
def F.SP_REC_STAT_SEQ : Fld := ⟨A.SP_REC_STAT, 31, 0⟩
def F.SP_REC_STAT_NENT : Fld := ⟨A.SP_REC_STAT, 47, 32⟩
def F.SP_REC_STAT_DIRTY : Fld := ⟨A.SP_REC_STAT, 48, 48⟩
def F.SP_REC_STAT_FULL : Fld := ⟨A.SP_REC_STAT, 49, 49⟩
def F.EV_LOG_BASE_BASE (l : Nat) : Fld := ⟨A.EV_LOG_BASE l, 56, 12⟩
def F.EV_LOG_CFG_SIZE (l : Nat) : Fld := ⟨A.EV_LOG_CFG l, 4, 0⟩
def F.EV_LOG_CFG_EN (l : Nat) : Fld := ⟨A.EV_LOG_CFG l, 8, 8⟩
def F.EV_LOG_CFG_VEC (l : Nat) : Fld := ⟨A.EV_LOG_CFG l, 26, 16⟩
def F.EV_LOG_WR_WR (l : Nat) : Fld := ⟨A.EV_LOG_WR l, 31, 0⟩
def F.EV_LOG_RD_RD (l : Nat) : Fld := ⟨A.EV_LOG_RD l, 31, 0⟩
def F.EV_LOG_STAT_FULL (l : Nat) : Fld := ⟨A.EV_LOG_STAT l, 0, 0⟩
def F.EV_LOG_STAT_ERR (l : Nat) : Fld := ⟨A.EV_LOG_STAT l, 1, 1⟩
def F.EV_LOG_STAT_LOST (l : Nat) : Fld := ⟨A.EV_LOG_STAT l, 63, 32⟩
def F.EV_HIST_MEASURE (h : Nat) : Fld := ⟨A.EV_HIST h, 7, 0⟩
def F.EV_HIST_MODE (h : Nat) : Fld := ⟨A.EV_HIST h, 8, 8⟩
def F.EV_HIST_BASE (h : Nat) : Fld := ⟨A.EV_HIST h, 31, 16⟩
def F.EV_HIST_STEP (h : Nat) : Fld := ⟨A.EV_HIST h, 47, 32⟩
def F.EV_HIST_SEL (h : Nat) : Fld := ⟨A.EV_HIST h, 63, 48⟩
def F.EV_EXT_MEASURE (x : Nat) : Fld := ⟨A.EV_EXT x, 7, 0⟩
def F.EV_EXT_SEL (x : Nat) : Fld := ⟨A.EV_EXT x, 63, 48⟩
def F.EV_DROP_COUNT : Fld := ⟨A.EV_DROP, 47, 0⟩
def F.EV_SNAP_GO : Fld := ⟨A.EV_SNAP, 0, 0⟩
def F.EV_SNAP_BUSY : Fld := ⟨A.EV_SNAP, 1, 1⟩
def F.EV_SNAP_INCOMPLETE : Fld := ⟨A.EV_SNAP, 2, 2⟩
def F.EV_SNAP_NUM : Fld := ⟨A.EV_SNAP, 63, 32⟩
def F.TD_DBG_CTL_CTX : Fld := ⟨A.TD_DBG_CTL, 9, 0⟩
def F.TD_DBG_CTL_OP : Fld := ⟨A.TD_DBG_CTL, 12, 10⟩
def F.TD_DBG_CTL_GO : Fld := ⟨A.TD_DBG_CTL, 13, 13⟩
def F.TD_DBG_CTL_HOLD : Fld := ⟨A.TD_DBG_CTL, 14, 14⟩
def F.TD_DBG_CTL_BUSY : Fld := ⟨A.TD_DBG_CTL, 15, 15⟩
def F.TD_DBG_CTL_STATUS : Fld := ⟨A.TD_DBG_CTL, 18, 16⟩
def F.TD_DBG_STAT_ATTACHED : Fld := ⟨A.TD_DBG_STAT, 0, 0⟩
def F.TD_DBG_STAT_HALTED : Fld := ⟨A.TD_DBG_STAT, 1, 1⟩
def F.TD_DBG_STAT_CAUSE : Fld := ⟨A.TD_DBG_STAT, 3, 2⟩
def F.TD_DBG_STAT_CORE : Fld := ⟨A.TD_DBG_STAT, 13, 4⟩
def F.TD_DBG_STAT_GROUP : Fld := ⟨A.TD_DBG_STAT, 17, 14⟩
def F.TD_DBG_STAT_BRK : Fld := ⟨A.TD_DBG_STAT, 19, 18⟩
def F.TD_DBG_STAT_ACCERR : Fld := ⟨A.TD_DBG_STAT, 20, 20⟩
def F.TD_BRK_EN (i : Nat) : Fld := ⟨A.TD_BRK i, 0, 0⟩
def F.TD_BRK_ADDR (i : Nat) : Fld := ⟨A.TD_BRK i, 51, 4⟩
def F.TD_ACC_SEL_CORE : Fld := ⟨A.TD_ACC_SEL, 9, 0⟩
def F.TD_ACC_SEL_THREAD : Fld := ⟨A.TD_ACC_SEL, 18, 10⟩
def F.TD_ACC_SEL_SPACE : Fld := ⟨A.TD_ACC_SEL, 21, 19⟩
def F.TD_ACC_SEL_INDEX : Fld := ⟨A.TD_ACC_SEL, 41, 22⟩
def F.TD_ACC_SEL_GROUP : Fld := ⟨A.TD_ACC_SEL, 45, 42⟩
def F.TD_ACC_DATA_DATA : Fld := ⟨A.TD_ACC_DATA, 63, 0⟩
def F.TD_ICT_FAILED : Fld := ⟨A.TD_ICT, 23, 0⟩
def F.TD_ICT_STEERED : Fld := ⟨A.TD_ICT, 47, 24⟩
def F.TD_ICT_NOSPARE : Fld := ⟨A.TD_ICT, 63, 48⟩
def F.TD_KGD_LOT (d : Nat) : Fld := ⟨A.TD_KGD d, 31, 0⟩
def F.TD_KGD_WAFER (d : Nat) : Fld := ⟨A.TD_KGD d, 36, 32⟩
def F.TD_KGD_X (d : Nat) : Fld := ⟨A.TD_KGD d, 44, 37⟩
def F.TD_KGD_Y (d : Nat) : Fld := ⟨A.TD_KGD d, 52, 45⟩
def F.TD_KGD_BIN (d : Nat) : Fld := ⟨A.TD_KGD d, 56, 53⟩
def F.TD_KGD_VALID (d : Nat) : Fld := ⟨A.TD_KGD d, 57, 57⟩
def F.PW_PIN_STAT_RAW (i : Nat) : Fld := ⟨A.PW_PIN_STAT i, 0, 0⟩
def F.PW_PIN_STAT_FILT (i : Nat) : Fld := ⟨A.PW_PIN_STAT i, 1, 1⟩
def F.PW_PIN_STAT_CHATTER (i : Nat) : Fld := ⟨A.PW_PIN_STAT i, 2, 2⟩
def F.PW_PIN_STAT_CHATSEEN (i : Nat) : Fld := ⟨A.PW_PIN_STAT i, 3, 3⟩
def F.PW_PIN_STAT_STUCK (i : Nat) : Fld := ⟨A.PW_PIN_STAT i, 4, 4⟩
def F.PW_PIN_STAT_EDGES (i : Nat) : Fld := ⟨A.PW_PIN_STAT i, 15, 8⟩
def F.PW_PIN_STAT_ASSERTS (i : Nat) : Fld := ⟨A.PW_PIN_STAT i, 63, 32⟩
def F.CS_HIT_COUNT (p : Nat) (k : Nat) : Fld := ⟨A.CS_HIT p k, 47, 0⟩
def F.CS_MISS_COUNT (p : Nat) (k : Nat) : Fld := ⟨A.CS_MISS p k, 47, 0⟩
def F.CS_THRASH_COUNT (p : Nat) : Fld := ⟨A.CS_THRASH p, 47, 0⟩
def F.CS_RBFULL_COUNT (p : Nat) : Fld := ⟨A.CS_RBFULL p, 47, 0⟩
def F.CS_NA_COUNT (p : Nat) : Fld := ⟨A.CS_NA p, 47, 0⟩
def F.MC_RDLINE_COUNT (p : Nat) : Fld := ⟨A.MC_RDLINE p, 47, 0⟩
def F.MC_RDNARROW_COUNT (p : Nat) : Fld := ⟨A.MC_RDNARROW p, 47, 0⟩
def F.MC_WR_COUNT (p : Nat) : Fld := ⟨A.MC_WR p, 47, 0⟩
def F.MC_CAPWIN_COUNT (p : Nat) : Fld := ⟨A.MC_CAPWIN p, 47, 0⟩
def F.MC_POISON_COUNT (p : Nat) : Fld := ⟨A.MC_POISON p, 47, 0⟩
def F.PU_SRCBYTES_COUNT (p : Nat) : Fld := ⟨A.PU_SRCBYTES p, 47, 0⟩
def F.PU_OUTBYTES_COUNT (p : Nat) : Fld := ⟨A.PU_OUTBYTES p, 47, 0⟩
def F.PU_LBYTES_COUNT (p : Nat) : Fld := ⟨A.PU_LBYTES p, 47, 0⟩
def F.PU_ERR_COUNT (p : Nat) : Fld := ⟨A.PU_ERR p, 47, 0⟩
def F.GF_TXDATA_COUNT (p : Nat) : Fld := ⟨A.GF_TXDATA p, 47, 0⟩
def F.GF_RXDATA_COUNT (p : Nat) : Fld := ⟨A.GF_RXDATA p, 47, 0⟩
def F.GF_WFAIL_COUNT (p : Nat) : Fld := ⟨A.GF_WFAIL p, 47, 0⟩
def F.GF_RFAIL_COUNT (p : Nat) : Fld := ⟨A.GF_RFAIL p, 47, 0⟩
def F.GF_RETX_COUNT (p : Nat) : Fld := ⟨A.GF_RETX p, 47, 0⟩
def F.GF_STALE_COUNT (p : Nat) : Fld := ⟨A.GF_STALE p, 47, 0⟩
def F.GF_SIGDROP_COUNT (p : Nat) : Fld := ⟨A.GF_SIGDROP p, 47, 0⟩
def F.PT_CHG_CORE_COUNT (c : Nat) : Fld := ⟨A.PT_CHG_CORE c, 63, 0⟩
def F.PT_CHG_SWITCH_COUNT (c : Nat) : Fld := ⟨A.PT_CHG_SWITCH c, 63, 0⟩
def F.PT_CHG_PUMP_COUNT (c : Nat) : Fld := ⟨A.PT_CHG_PUMP c, 63, 0⟩
def F.PT_CHG_LIGHTER_COUNT (c : Nat) : Fld := ⟨A.PT_CHG_LIGHTER c, 63, 0⟩
def F.PT_CHG_OVERRUN_COUNT (c : Nat) : Fld := ⟨A.PT_CHG_OVERRUN c, 63, 0⟩
def F.PW_SKIP_COUNT (n : Nat) : Fld := ⟨A.PW_SKIP n, 47, 0⟩
def F.PW_FILLER_COUNT (n : Nat) : Fld := ⟨A.PW_FILLER n, 47, 0⟩
def F.PW_THROTTLED_COUNT (n : Nat) : Fld := ⟨A.PW_THROTTLED n, 47, 0⟩
def F.PW_PSDOWN_COUNT (n : Nat) : Fld := ⟨A.PW_PSDOWN n, 47, 0⟩
def F.SH_CS_HIT_COUNT (p : Nat) (k : Nat) : Fld := ⟨A.SH_CS_HIT p k, 47, 0⟩
def F.SH_CS_MISS_COUNT (p : Nat) (k : Nat) : Fld := ⟨A.SH_CS_MISS p k, 47, 0⟩
def F.SH_CS_THRASH_COUNT (p : Nat) : Fld := ⟨A.SH_CS_THRASH p, 47, 0⟩
def F.SH_CS_RBFULL_COUNT (p : Nat) : Fld := ⟨A.SH_CS_RBFULL p, 47, 0⟩
def F.SH_CS_NA_COUNT (p : Nat) : Fld := ⟨A.SH_CS_NA p, 47, 0⟩
def F.SH_MC_RDLINE_COUNT (p : Nat) : Fld := ⟨A.SH_MC_RDLINE p, 47, 0⟩
def F.SH_MC_RDNARROW_COUNT (p : Nat) : Fld := ⟨A.SH_MC_RDNARROW p, 47, 0⟩
def F.SH_MC_WR_COUNT (p : Nat) : Fld := ⟨A.SH_MC_WR p, 47, 0⟩
def F.SH_MC_CAPWIN_COUNT (p : Nat) : Fld := ⟨A.SH_MC_CAPWIN p, 47, 0⟩
def F.SH_MC_POISON_COUNT (p : Nat) : Fld := ⟨A.SH_MC_POISON p, 47, 0⟩
def F.SH_PU_SRCBYTES_COUNT (p : Nat) : Fld := ⟨A.SH_PU_SRCBYTES p, 47, 0⟩
def F.SH_PU_OUTBYTES_COUNT (p : Nat) : Fld := ⟨A.SH_PU_OUTBYTES p, 47, 0⟩
def F.SH_PU_LBYTES_COUNT (p : Nat) : Fld := ⟨A.SH_PU_LBYTES p, 47, 0⟩
def F.SH_PU_ERR_COUNT (p : Nat) : Fld := ⟨A.SH_PU_ERR p, 47, 0⟩
def F.SH_GF_TXDATA_COUNT (p : Nat) : Fld := ⟨A.SH_GF_TXDATA p, 47, 0⟩
def F.SH_GF_RXDATA_COUNT (p : Nat) : Fld := ⟨A.SH_GF_RXDATA p, 47, 0⟩
def F.SH_GF_WFAIL_COUNT (p : Nat) : Fld := ⟨A.SH_GF_WFAIL p, 47, 0⟩
def F.SH_GF_RFAIL_COUNT (p : Nat) : Fld := ⟨A.SH_GF_RFAIL p, 47, 0⟩
def F.SH_GF_RETX_COUNT (p : Nat) : Fld := ⟨A.SH_GF_RETX p, 47, 0⟩
def F.SH_GF_STALE_COUNT (p : Nat) : Fld := ⟨A.SH_GF_STALE p, 47, 0⟩
def F.SH_GF_SIGDROP_COUNT (p : Nat) : Fld := ⟨A.SH_GF_SIGDROP p, 47, 0⟩
def F.SH_PT_CHG_CORE_COUNT (c : Nat) : Fld := ⟨A.SH_PT_CHG_CORE c, 63, 0⟩
def F.SH_PT_CHG_SWITCH_COUNT (c : Nat) : Fld := ⟨A.SH_PT_CHG_SWITCH c, 63, 0⟩
def F.SH_PT_CHG_PUMP_COUNT (c : Nat) : Fld := ⟨A.SH_PT_CHG_PUMP c, 63, 0⟩
def F.SH_PT_CHG_LIGHTER_COUNT (c : Nat) : Fld := ⟨A.SH_PT_CHG_LIGHTER c, 63, 0⟩
def F.SH_PT_CHG_OVERRUN_COUNT (c : Nat) : Fld := ⟨A.SH_PT_CHG_OVERRUN c, 63, 0⟩
def F.SH_PW_SKIP_COUNT (n : Nat) : Fld := ⟨A.SH_PW_SKIP n, 47, 0⟩
def F.SH_PW_FILLER_COUNT (n : Nat) : Fld := ⟨A.SH_PW_FILLER n, 47, 0⟩
def F.SH_PW_THROTTLED_COUNT (n : Nat) : Fld := ⟨A.SH_PW_THROTTLED n, 47, 0⟩
def F.SH_PW_PSDOWN_COUNT (n : Nat) : Fld := ⟨A.SH_PW_PSDOWN n, 47, 0⟩
def F.CS_SNAPNUM_NUM : Fld := ⟨A.CS_SNAPNUM, 31, 0⟩
def F.MC_SNAPNUM_NUM : Fld := ⟨A.MC_SNAPNUM, 31, 0⟩
def F.PU_SNAPNUM_NUM : Fld := ⟨A.PU_SNAPNUM, 31, 0⟩
def F.GF_SNAPNUM_NUM : Fld := ⟨A.GF_SNAPNUM, 31, 0⟩
def F.PT_SNAPNUM_NUM : Fld := ⟨A.PT_SNAPNUM, 31, 0⟩
def F.PW_SNAPNUM_NUM : Fld := ⟨A.PW_SNAPNUM, 31, 0⟩
def F.PT_FLOG_WORD (p : Nat) (i : Nat) : Fld := ⟨A.PT_FLOG p i, 63, 0⟩

/-- Registers of the PT_ block, part 0. -/
def regMapPT0 : List RegDesc :=
  [⟨0x284000, 0x8, 1, [⟨3, 0, .rw, 0, false⟩]⟩,
   ⟨0x284008, 0x8, 63, [⟨39, 30, .rw, 0, false⟩]⟩,
   ⟨0x280000, 0x8, 1024, [⟨0, 0, .rw, 0, false⟩, ⟨1, 1, .rw, 0, false⟩, ⟨2, 2, .rw, 0, false⟩, ⟨3, 3, .rw, 0, false⟩, ⟨7, 4, .rw, 0, false⟩, ⟨13, 8, .rw, 0, false⟩, ⟨63, 30, .rw, 0, false⟩]⟩,
   ⟨0x282000, 0x8, 1, [⟨0, 0, .wo, 0, false⟩, ⟨1, 1, .ro, 1, false⟩]⟩,
   ⟨0x282008, 0x8, 1, [⟨0, 0, .w1c, 0, false⟩, ⟨1, 1, .ro, 0, false⟩, ⟨13, 8, .ro, 0, false⟩, ⟨63, 32, .ro, 0, false⟩]⟩,
   ⟨0x283000, 0x20, 64, [⟨9, 0, .rw, 0, false⟩, ⟨11, 10, .rw, 0, false⟩, ⟨31, 31, .wo, 0, false⟩, ⟨32, 32, .ro, 0, false⟩, ⟨33, 33, .w1c, 0, false⟩]⟩,
   ⟨0x283008, 0x20, 64, [⟨63, 0, .rw, 0, false⟩]⟩,
   ⟨0x283010, 0x20, 64, [⟨31, 0, .rw, 0, false⟩]⟩,
   ⟨0x290200, 0x400, 16, [⟨4, 0, .ro, 0, false⟩, ⟨31, 16, .ro, 0, false⟩]⟩,
   ⟨0x290208, 0x400, 16, [⟨0, 0, .wo, 0, false⟩]⟩,
   ⟨0x290210, 0x400, 16, [⟨10, 0, .rw, 0, false⟩]⟩,
   ⟨0x200000, 0x100, 16, [⟨0, 0, .rw, 0, true⟩, ⟨31, 16, .rw, 0, true⟩]⟩,
   ⟨0x200008, 0x100, 16, [⟨63, 0, .rw, 0, true⟩]⟩,
   ⟨0x200010, 0x100, 16, [⟨63, 0, .rw, 0, true⟩]⟩,
   ⟨0x200018, 0x100, 16, [⟨63, 0, .rw, 0, true⟩]⟩,
   ⟨0x200020, 0x100, 16, [⟨63, 0, .rw, 0, true⟩]⟩,
   ⟨0x200028, 0x100, 16, [⟨63, 0, .rw, 0, true⟩]⟩,
   ⟨0x200030, 0x100, 16, [⟨31, 0, .rw, 0, true⟩]⟩,
   ⟨0x200038, 0x100, 16, [⟨10, 0, .ro, 0, false⟩, ⟨23, 16, .ro, 0, false⟩, ⟨32, 32, .ro, 0, false⟩]⟩,
   ⟨0x201000, 0x8, 1, [⟨0, 0, .w1c, 0, false⟩, ⟨1, 1, .w1c, 0, false⟩, ⟨2, 2, .w1c, 0, false⟩, ⟨3, 3, .w1c, 0, false⟩]⟩]

/-- Registers of the PT_ block, part 1. -/
def regMapPT1 : List RegDesc :=
  [⟨0x240000, 0x40, 1024, [⟨0, 0, .rw, 0, false⟩, ⟨56, 16, .rw, 0, false⟩]⟩,
   ⟨0x240008, 0x40, 1024, [⟨3, 0, .rw, 0, false⟩, ⟨9, 4, .rw, 0, false⟩, ⟨23, 16, .rw, 1, false⟩, ⟨32, 32, .rw, 0, false⟩]⟩,
   ⟨0x240010, 0x40, 1024, [⟨63, 0, .rw, 0, false⟩]⟩,
   ⟨0x240018, 0x40, 1024, [⟨63, 0, .rw, 0, false⟩]⟩,
   ⟨0x240020, 0x40, 1024, [⟨56, 16, .rw, 0, false⟩]⟩,
   ⟨0x240028, 0x40, 1024, [⟨2, 0, .ro, 0, false⟩, ⟨15, 8, .ro, 0, false⟩, ⟨31, 16, .ro, 0, false⟩]⟩,
   ⟨0x240030, 0x40, 1024, [⟨0, 0, .wo, 0, false⟩]⟩,
   ⟨0x285000, 0x8, 64, [⟨3, 0, .rw, 0, false⟩, ⟨4, 4, .rw, 0, false⟩, ⟨31, 16, .ro, 1, false⟩]⟩,
   ⟨0x287000, 0x8, 1, [⟨5, 0, .rw, 0, false⟩, ⟨10, 8, .rw, 0, false⟩, ⟨11, 11, .wo, 0, false⟩, ⟨12, 12, .ro, 0, false⟩, ⟨15, 13, .ro, 0, false⟩]⟩,
   ⟨0x287008, 0x8, 1, [⟨56, 12, .rw, 0, false⟩]⟩,
   ⟨0x287010, 0x8, 1, [⟨31, 0, .ro, 0, false⟩]⟩,
   ⟨0x286000, 0x8, 2, [⟨56, 25, .rw, 0, false⟩]⟩,
   ⟨0x286010, 0x8, 1, [⟨0, 0, .rw, 0, false⟩, ⟨1, 1, .rw, 0, false⟩, ⟨2, 2, .wo, 0, false⟩, ⟨3, 3, .ro, 1, false⟩]⟩,
   ⟨0x2a0000, 0x40, 1024, [⟨63, 0, .ro, 0, false⟩]⟩,
   ⟨0x2a0008, 0x40, 1024, [⟨63, 0, .ro, 0, false⟩]⟩,
   ⟨0x2a0010, 0x40, 1024, [⟨63, 0, .ro, 0, false⟩]⟩,
   ⟨0x2a0018, 0x40, 1024, [⟨63, 0, .ro, 0, false⟩]⟩,
   ⟨0x2a0020, 0x40, 1024, [⟨63, 0, .ro, 0, false⟩]⟩,
   ⟨0x2c0000, 0x8, 1, [⟨31, 0, .ro, 0, false⟩]⟩,
   ⟨0x290000, 0x400, 16, [⟨63, 0, .ro, 0, false⟩]⟩]

/-- Registers of the PT_ block, part 2. -/
def regMapPT2 : List RegDesc :=
  [⟨0x290008, 0x400, 16, [⟨63, 0, .ro, 0, false⟩]⟩,
   ⟨0x290010, 0x400, 16, [⟨63, 0, .ro, 0, false⟩]⟩,
   ⟨0x290018, 0x400, 16, [⟨63, 0, .ro, 0, false⟩]⟩,
   ⟨0x290020, 0x400, 16, [⟨63, 0, .ro, 0, false⟩]⟩,
   ⟨0x290028, 0x400, 16, [⟨63, 0, .ro, 0, false⟩]⟩,
   ⟨0x290030, 0x400, 16, [⟨63, 0, .ro, 0, false⟩]⟩,
   ⟨0x290038, 0x400, 16, [⟨63, 0, .ro, 0, false⟩]⟩,
   ⟨0x290040, 0x400, 16, [⟨63, 0, .ro, 0, false⟩]⟩,
   ⟨0x290048, 0x400, 16, [⟨63, 0, .ro, 0, false⟩]⟩,
   ⟨0x290050, 0x400, 16, [⟨63, 0, .ro, 0, false⟩]⟩,
   ⟨0x290058, 0x400, 16, [⟨63, 0, .ro, 0, false⟩]⟩,
   ⟨0x290060, 0x400, 16, [⟨63, 0, .ro, 0, false⟩]⟩,
   ⟨0x290068, 0x400, 16, [⟨63, 0, .ro, 0, false⟩]⟩,
   ⟨0x290070, 0x400, 16, [⟨63, 0, .ro, 0, false⟩]⟩,
   ⟨0x290078, 0x400, 16, [⟨63, 0, .ro, 0, false⟩]⟩,
   ⟨0x290080, 0x400, 16, [⟨63, 0, .ro, 0, false⟩]⟩,
   ⟨0x290088, 0x400, 16, [⟨63, 0, .ro, 0, false⟩]⟩,
   ⟨0x290090, 0x400, 16, [⟨63, 0, .ro, 0, false⟩]⟩,
   ⟨0x290098, 0x400, 16, [⟨63, 0, .ro, 0, false⟩]⟩,
   ⟨0x2900a0, 0x400, 16, [⟨63, 0, .ro, 0, false⟩]⟩]

/-- Registers of the PT_ block, part 3. -/
def regMapPT3 : List RegDesc :=
  [⟨0x2900a8, 0x400, 16, [⟨63, 0, .ro, 0, false⟩]⟩,
   ⟨0x2900b0, 0x400, 16, [⟨63, 0, .ro, 0, false⟩]⟩,
   ⟨0x2900b8, 0x400, 16, [⟨63, 0, .ro, 0, false⟩]⟩,
   ⟨0x2900c0, 0x400, 16, [⟨63, 0, .ro, 0, false⟩]⟩,
   ⟨0x2900c8, 0x400, 16, [⟨63, 0, .ro, 0, false⟩]⟩,
   ⟨0x2900d0, 0x400, 16, [⟨63, 0, .ro, 0, false⟩]⟩,
   ⟨0x2900d8, 0x400, 16, [⟨63, 0, .ro, 0, false⟩]⟩,
   ⟨0x2900e0, 0x400, 16, [⟨63, 0, .ro, 0, false⟩]⟩,
   ⟨0x2900e8, 0x400, 16, [⟨63, 0, .ro, 0, false⟩]⟩,
   ⟨0x2900f0, 0x400, 16, [⟨63, 0, .ro, 0, false⟩]⟩,
   ⟨0x2900f8, 0x400, 16, [⟨63, 0, .ro, 0, false⟩]⟩,
   ⟨0x290100, 0x400, 16, [⟨63, 0, .ro, 0, false⟩]⟩,
   ⟨0x290108, 0x400, 16, [⟨63, 0, .ro, 0, false⟩]⟩,
   ⟨0x290110, 0x400, 16, [⟨63, 0, .ro, 0, false⟩]⟩,
   ⟨0x290118, 0x400, 16, [⟨63, 0, .ro, 0, false⟩]⟩,
   ⟨0x290120, 0x400, 16, [⟨63, 0, .ro, 0, false⟩]⟩,
   ⟨0x290128, 0x400, 16, [⟨63, 0, .ro, 0, false⟩]⟩,
   ⟨0x290130, 0x400, 16, [⟨63, 0, .ro, 0, false⟩]⟩,
   ⟨0x290138, 0x400, 16, [⟨63, 0, .ro, 0, false⟩]⟩,
   ⟨0x290140, 0x400, 16, [⟨63, 0, .ro, 0, false⟩]⟩]

/-- Registers of the PT_ block, part 4. -/
def regMapPT4 : List RegDesc :=
  [⟨0x290148, 0x400, 16, [⟨63, 0, .ro, 0, false⟩]⟩,
   ⟨0x290150, 0x400, 16, [⟨63, 0, .ro, 0, false⟩]⟩,
   ⟨0x290158, 0x400, 16, [⟨63, 0, .ro, 0, false⟩]⟩,
   ⟨0x290160, 0x400, 16, [⟨63, 0, .ro, 0, false⟩]⟩,
   ⟨0x290168, 0x400, 16, [⟨63, 0, .ro, 0, false⟩]⟩,
   ⟨0x290170, 0x400, 16, [⟨63, 0, .ro, 0, false⟩]⟩,
   ⟨0x290178, 0x400, 16, [⟨63, 0, .ro, 0, false⟩]⟩,
   ⟨0x290180, 0x400, 16, [⟨63, 0, .ro, 0, false⟩]⟩,
   ⟨0x290188, 0x400, 16, [⟨63, 0, .ro, 0, false⟩]⟩,
   ⟨0x290190, 0x400, 16, [⟨63, 0, .ro, 0, false⟩]⟩,
   ⟨0x290198, 0x400, 16, [⟨63, 0, .ro, 0, false⟩]⟩,
   ⟨0x2901a0, 0x400, 16, [⟨63, 0, .ro, 0, false⟩]⟩,
   ⟨0x2901a8, 0x400, 16, [⟨63, 0, .ro, 0, false⟩]⟩,
   ⟨0x2901b0, 0x400, 16, [⟨63, 0, .ro, 0, false⟩]⟩,
   ⟨0x2901b8, 0x400, 16, [⟨63, 0, .ro, 0, false⟩]⟩,
   ⟨0x2901c0, 0x400, 16, [⟨63, 0, .ro, 0, false⟩]⟩,
   ⟨0x2901c8, 0x400, 16, [⟨63, 0, .ro, 0, false⟩]⟩,
   ⟨0x2901d0, 0x400, 16, [⟨63, 0, .ro, 0, false⟩]⟩,
   ⟨0x2901d8, 0x400, 16, [⟨63, 0, .ro, 0, false⟩]⟩,
   ⟨0x2901e0, 0x400, 16, [⟨63, 0, .ro, 0, false⟩]⟩]

/-- Registers of the PT_ block, part 5. -/
def regMapPT5 : List RegDesc :=
  [⟨0x2901e8, 0x400, 16, [⟨63, 0, .ro, 0, false⟩]⟩,
   ⟨0x2901f0, 0x400, 16, [⟨63, 0, .ro, 0, false⟩]⟩,
   ⟨0x2901f8, 0x400, 16, [⟨63, 0, .ro, 0, false⟩]⟩]

/-- Registers of the SL_ block, part 0. -/
def regMapSL0 : List RegDesc :=
  [⟨0x600000, 0x8, 16, [⟨6, 0, .rw, 4, false⟩, ⟨14, 8, .rw, 4, false⟩]⟩,
   ⟨0x600080, 0x8, 1, [⟨0, 0, .w1c, 0, false⟩, ⟨1, 1, .w1c, 0, false⟩]⟩,
   ⟨0x601000, 0x40, 64, [⟨0, 0, .ro, 0, false⟩, ⟨1, 1, .ro, 0, false⟩, ⟨11, 8, .ro, 0, false⟩, ⟨63, 32, .ro, 0, false⟩]⟩,
   ⟨0x601008, 0x40, 64, [⟨31, 0, .ro, 0, false⟩, ⟨63, 32, .ro, 0, false⟩]⟩,
   ⟨0x601010, 0x40, 64, [⟨0, 0, .wo, 0, false⟩]⟩]

/-- Registers of the CS_ block, part 0. -/
def regMapCS0 : List RegDesc :=
  [⟨0x300000, 0x40, 16, [⟨63, 0, .rw, 0, true⟩]⟩,
   ⟨0x300008, 0x40, 16, [⟨63, 0, .rw, 0, true⟩]⟩,
   ⟨0x300010, 0x40, 16, [⟨63, 0, .rw, 0, true⟩]⟩,
   ⟨0x300018, 0x40, 16, [⟨63, 0, .rw, 0, true⟩]⟩,
   ⟨0x300020, 0x40, 16, [⟨4, 0, .rw, 0, false⟩, ⟨8, 8, .rw, 0, false⟩]⟩,
   ⟨0x300400, 0x8, 16, [⟨0, 0, .wo, 0, false⟩, ⟨1, 1, .ro, 0, false⟩]⟩,
   ⟨0x300800, 0x8, 1, [⟨0, 0, .w1c, 0, false⟩, ⟨1, 1, .w1c, 0, false⟩, ⟨2, 2, .w1c, 0, false⟩, ⟨3, 3, .w1c, 0, false⟩]⟩,
   ⟨0x300808, 0x8, 1, [⟨0, 0, .ro, 0, false⟩]⟩,
   ⟨0x310000, 0x8, 768, [⟨3, 0, .rw, 0, true⟩, ⟨5, 4, .rw, 0, true⟩]⟩,
   ⟨0x320000, 0x40, 16, [⟨56, 7, .rw, 0, false⟩]⟩,
   ⟨0x320008, 0x40, 16, [⟨23, 0, .rw, 0, false⟩]⟩,
   ⟨0x320010, 0x40, 16, [⟨1, 0, .rw, 0, false⟩, ⟨2, 2, .wo, 0, false⟩, ⟨3, 3, .ro, 0, false⟩, ⟨6, 4, .ro, 0, false⟩]⟩,
   ⟨0x320018, 0x40, 16, [⟨23, 0, .ro, 0, false⟩, ⟨55, 32, .ro, 0, false⟩]⟩,
   ⟨0x330000, 0x100, 16, [⟨47, 0, .ro, 0, false⟩]⟩,
   ⟨0x330010, 0x100, 16, [⟨47, 0, .ro, 0, false⟩]⟩,
   ⟨0x330020, 0x100, 16, [⟨47, 0, .ro, 0, false⟩]⟩,
   ⟨0x330030, 0x100, 16, [⟨47, 0, .ro, 0, false⟩]⟩,
   ⟨0x330040, 0x100, 16, [⟨47, 0, .ro, 0, false⟩]⟩,
   ⟨0x330050, 0x100, 16, [⟨47, 0, .ro, 0, false⟩]⟩,
   ⟨0x330060, 0x100, 16, [⟨47, 0, .ro, 0, false⟩]⟩]

/-- Registers of the CS_ block, part 1. -/
def regMapCS1 : List RegDesc :=
  [⟨0x330070, 0x100, 16, [⟨47, 0, .ro, 0, false⟩]⟩,
   ⟨0x330008, 0x100, 16, [⟨47, 0, .ro, 0, false⟩]⟩,
   ⟨0x330018, 0x100, 16, [⟨47, 0, .ro, 0, false⟩]⟩,
   ⟨0x330028, 0x100, 16, [⟨47, 0, .ro, 0, false⟩]⟩,
   ⟨0x330038, 0x100, 16, [⟨47, 0, .ro, 0, false⟩]⟩,
   ⟨0x330048, 0x100, 16, [⟨47, 0, .ro, 0, false⟩]⟩,
   ⟨0x330058, 0x100, 16, [⟨47, 0, .ro, 0, false⟩]⟩,
   ⟨0x330068, 0x100, 16, [⟨47, 0, .ro, 0, false⟩]⟩,
   ⟨0x330078, 0x100, 16, [⟨47, 0, .ro, 0, false⟩]⟩,
   ⟨0x330080, 0x100, 16, [⟨47, 0, .ro, 0, false⟩]⟩,
   ⟨0x330088, 0x100, 16, [⟨47, 0, .ro, 0, false⟩]⟩,
   ⟨0x330090, 0x100, 16, [⟨47, 0, .ro, 0, false⟩]⟩,
   ⟨0x341000, 0x8, 1, [⟨31, 0, .ro, 0, false⟩]⟩]

/-- Registers of the MC_ block, part 0. -/
def regMapMC0 : List RegDesc :=
  [⟨0x400000, 0x8, 16, [⟨7, 0, .rw, 0, true⟩, ⟨16, 8, .rw, 0, true⟩]⟩,
   ⟨0x400080, 0x8, 1, [⟨0, 0, .w1c, 0, false⟩, ⟨1, 1, .w1c, 0, false⟩]⟩,
   ⟨0x400100, 0x8, 1, [⟨7, 0, .rw, 0, true⟩]⟩,
   ⟨0x400200, 0x8, 1, [⟨10, 0, .rw, 0, false⟩, ⟨16, 16, .wo, 0, false⟩, ⟨17, 17, .ro, 0, false⟩, ⟨20, 18, .ro, 0, false⟩]⟩,
   ⟨0x410000, 0x8, 1536, [⟨1, 0, .ro, 0, false⟩, ⟨3, 2, .ro, 0, false⟩, ⟨15, 4, .ro, 0, false⟩, ⟨27, 16, .ro, 0, false⟩, ⟨63, 32, .ro, 0, false⟩]⟩,
   ⟨0x420000, 0x8, 12, [⟨7, 0, .ro, 0, false⟩, ⟨9, 8, .ro, 0, false⟩, ⟨12, 10, .ro, 0, false⟩, ⟨13, 13, .ro, 0, false⟩, ⟨14, 14, .ro, 0, false⟩]⟩,
   ⟨0x430000, 0x40, 16, [⟨47, 0, .ro, 0, false⟩]⟩,
   ⟨0x430008, 0x40, 16, [⟨47, 0, .ro, 0, false⟩]⟩,
   ⟨0x430010, 0x40, 16, [⟨47, 0, .ro, 0, false⟩]⟩,
   ⟨0x430018, 0x40, 16, [⟨47, 0, .ro, 0, false⟩]⟩,
   ⟨0x430020, 0x40, 16, [⟨47, 0, .ro, 0, false⟩]⟩,
   ⟨0x441000, 0x8, 1, [⟨31, 0, .ro, 0, false⟩]⟩]

/-- Registers of the PU_ block, part 0. -/
def regMapPU0 : List RegDesc :=
  [⟨0x500000, 0x8, 224, [⟨1, 0, .ro, 0, false⟩, ⟨11, 8, .ro, 0, false⟩, ⟨63, 32, .ro, 0, false⟩]⟩,
   ⟨0x510000, 0x40, 16, [⟨47, 0, .ro, 0, false⟩]⟩,
   ⟨0x510008, 0x40, 16, [⟨47, 0, .ro, 0, false⟩]⟩,
   ⟨0x510010, 0x40, 16, [⟨47, 0, .ro, 0, false⟩]⟩,
   ⟨0x510018, 0x40, 16, [⟨47, 0, .ro, 0, false⟩]⟩,
   ⟨0x521000, 0x8, 1, [⟨31, 0, .ro, 0, false⟩]⟩]

/-- Registers of the FE_ block, part 0. -/
def regMapFE0 : List RegDesc :=
  [⟨0x180000, 0x80, 4096, [⟨56, 12, .rw, 0, false⟩]⟩,
   ⟨0x180008, 0x80, 4096, [⟨56, 12, .rw, 0, false⟩]⟩,
   ⟨0x180010, 0x80, 4096, [⟨56, 2, .rw, 0, false⟩]⟩,
   ⟨0x180018, 0x80, 4096, [⟨4, 0, .rw, 6, false⟩, ⟨12, 8, .rw, 6, false⟩, ⟨25, 16, .rw, 0, false⟩, ⟨47, 32, .rw, 0, false⟩]⟩,
   ⟨0x180020, 0x80, 4096, [⟨10, 0, .rw, 0, false⟩, ⟨26, 16, .rw, 0, false⟩]⟩,
   ⟨0x180028, 0x80, 4096, [⟨3, 0, .rw, 0, false⟩, ⟨13, 8, .rw, 0, false⟩, ⟨25, 16, .rw, 0, false⟩, ⟨32, 32, .rw, 0, false⟩]⟩,
   ⟨0x180030, 0x80, 4096, [⟨0, 0, .rw, 0, false⟩, ⟨1, 1, .wo, 0, false⟩]⟩,
   ⟨0x180038, 0x80, 4096, [⟨2, 0, .ro, 0, false⟩, ⟨11, 8, .ro, 0, false⟩, ⟨15, 12, .ro, 0, false⟩, ⟨23, 16, .ro, 0, false⟩, ⟨30, 24, .ro, 0, false⟩, ⟨31, 31, .ro, 0, false⟩, ⟨39, 32, .ro, 0, false⟩, ⟨47, 40, .ro, 0, false⟩]⟩,
   ⟨0x180040, 0x80, 4096, [⟨47, 0, .ro, 0, false⟩]⟩,
   ⟨0x180048, 0x80, 4096, [⟨47, 0, .ro, 0, false⟩]⟩,
   ⟨0x180050, 0x80, 4096, [⟨31, 0, .ro, 0, false⟩, ⟨63, 32, .ro, 0, false⟩]⟩,
   ⟨0x180058, 0x80, 4096, [⟨31, 0, .ro, 0, false⟩, ⟨63, 32, .ro, 0, false⟩]⟩,
   ⟨0x100000, 0x8, 1, [⟨47, 0, .ro, 0, false⟩, ⟨59, 48, .ro, 0, false⟩, ⟨63, 60, .ro, 0, false⟩]⟩,
   ⟨0x100008, 0x8, 1, [⟨0, 0, .w1c, 0, false⟩, ⟨1, 1, .w1c, 0, false⟩, ⟨2, 2, .w1c, 0, false⟩, ⟨3, 3, .w1c, 0, false⟩]⟩,
   ⟨0x100010, 0x8, 1, [⟨15, 0, .ro, 0, false⟩]⟩,
   ⟨0x100018, 0x8, 1, [⟨0, 0, .wo, 0, false⟩, ⟨1, 1, .ro, 0, false⟩, ⟨47, 32, .ro, 0, false⟩]⟩,
   ⟨0x110000, 0x10, 4096, [⟨3, 0, .rw, 0, false⟩, ⟨56, 12, .rw, 0, false⟩]⟩,
   ⟨0x110008, 0x10, 4096, [⟨9, 0, .rw, 0, false⟩, ⟨19, 16, .rw, 0, false⟩, ⟨20, 20, .rw, 0, false⟩, ⟨47, 32, .ro, 0, false⟩]⟩,
   ⟨0x120000, 0x10, 16, [⟨56, 16, .rw, 0, false⟩]⟩,
   ⟨0x120008, 0x10, 16, [⟨15, 0, .rw, 0, false⟩, ⟨51, 32, .ro, 0, false⟩]⟩]

/-- Registers of the FE_ block, part 1. -/
def regMapFE1 : List RegDesc :=
  [⟨0x130000, 0x8, 16384, [⟨0, 0, .ro, 0, false⟩, ⟨1, 1, .ro, 0, false⟩, ⟨3, 2, .ro, 0, false⟩, ⟨4, 4, .ro, 0, false⟩, ⟨31, 16, .ro, 0, false⟩, ⟨44, 32, .ro, 0, false⟩, ⟨63, 48, .ro, 0, false⟩]⟩]

/-- Registers of the GF_ block, part 0. -/
def regMapGF0 : List RegDesc :=
  [⟨0x700000, 0x8, 1, [⟨15, 0, .rw, 0, true⟩, ⟨31, 16, .rw, 0, false⟩]⟩,
   ⟨0x700008, 0x8, 1, [⟨56, 25, .rw, 0, true⟩]⟩,
   ⟨0x700010, 0x8, 1, [⟨7, 0, .rw, 8, false⟩, ⟨13, 8, .rw, 32, false⟩]⟩,
   ⟨0x700018, 0x8, 1, [⟨0, 0, .w1c, 0, false⟩, ⟨1, 1, .w1c, 0, false⟩, ⟨2, 2, .w1c, 0, false⟩, ⟨3, 3, .w1c, 0, false⟩]⟩,
   ⟨0x700020, 0x8, 1, [⟨47, 0, .ro, 0, false⟩]⟩,
   ⟨0x701000, 0x40, 36, [⟨0, 0, .rw, 0, true⟩, ⟨1, 1, .rw, 0, true⟩]⟩,
   ⟨0x701008, 0x40, 36, [⟨2, 0, .ro, 0, false⟩, ⟨4, 3, .ro, 0, false⟩, ⟨6, 5, .ro, 0, false⟩, ⟨63, 32, .ro, 0, false⟩]⟩,
   ⟨0x701010, 0x40, 36, [⟨31, 0, .ro, 0, false⟩, ⟨63, 32, .ro, 0, false⟩]⟩,
   ⟨0x702000, 0x8, 4, [⟨17, 0, .rw, 0, true⟩, ⟨32, 32, .ro, 0, false⟩, ⟨37, 33, .ro, 0, false⟩, ⟨38, 38, .ro, 0, false⟩]⟩,
   ⟨0x702100, 0x8, 16, [⟨6, 0, .rw, 0, true⟩, ⟨14, 8, .rw, 0, true⟩]⟩,
   ⟨0x702200, 0x8, 16, [⟨23, 0, .ro, 0, false⟩, ⟨31, 24, .ro, 0, false⟩, ⟨47, 32, .ro, 0, false⟩, ⟨58, 48, .rw, 0, false⟩]⟩,
   ⟨0x702300, 0x8, 16, [⟨15, 0, .rw, 0, true⟩]⟩,
   ⟨0x710000, 0x8, 768, [⟨0, 0, .rw, 0, true⟩, ⟨1, 1, .rw, 0, true⟩, ⟨31, 16, .rw, 0, true⟩]⟩,
   ⟨0x730000, 0x8, 256, [⟨0, 0, .rw, 0, false⟩, ⟨7, 4, .rw, 0, false⟩]⟩,
   ⟨0x740000, 0x8, 16384, [⟨0, 0, .rw, 0, false⟩, ⟨31, 16, .rw, 0, false⟩, ⟨41, 32, .rw, 0, false⟩]⟩,
   ⟨0x780000, 0x8, 65536, [⟨35, 0, .rw, 0, true⟩, ⟨36, 36, .rw, 0, true⟩, ⟨38, 37, .rw, 0, true⟩]⟩,
   ⟨0x720000, 0x40, 16, [⟨47, 0, .ro, 0, false⟩]⟩,
   ⟨0x720008, 0x40, 16, [⟨47, 0, .ro, 0, false⟩]⟩,
   ⟨0x720010, 0x40, 16, [⟨47, 0, .ro, 0, false⟩]⟩,
   ⟨0x720018, 0x40, 16, [⟨47, 0, .ro, 0, false⟩]⟩]

/-- Registers of the GF_ block, part 1. -/
def regMapGF1 : List RegDesc :=
  [⟨0x720020, 0x40, 16, [⟨47, 0, .ro, 0, false⟩]⟩,
   ⟨0x720028, 0x40, 16, [⟨47, 0, .ro, 0, false⟩]⟩,
   ⟨0x720030, 0x40, 16, [⟨47, 0, .ro, 0, false⟩]⟩,
   ⟨0x729000, 0x8, 1, [⟨31, 0, .ro, 0, false⟩]⟩]

/-- Registers of the PW_ block, part 0. -/
def regMapPW0 : List RegDesc :=
  [⟨0x800000, 0x8, 1, [⟨11, 0, .rw, 0, true⟩]⟩,
   ⟨0x800008, 0x8, 1, [⟨1, 0, .rw, 0, true⟩, ⟨14, 8, .rw, 0, true⟩, ⟨22, 16, .rw, 0, true⟩, ⟨44, 32, .rw, 0, true⟩]⟩,
   ⟨0x800010, 0x8, 1, [⟨9, 0, .rw, 0, true⟩, ⟨19, 10, .rw, 0, true⟩, ⟨29, 20, .rw, 0, true⟩, ⟨39, 30, .rw, 0, true⟩]⟩,
   ⟨0x800018, 0x8, 1, [⟨11, 0, .ro, 0, false⟩, ⟨12, 12, .ro, 0, false⟩, ⟨13, 13, .ro, 0, false⟩, ⟨14, 14, .ro, 0, false⟩, ⟨15, 15, .ro, 0, false⟩]⟩,
   ⟨0x800020, 0x8, 1, [⟨3, 0, .ro, 0, false⟩, ⟨12, 4, .ro, 0, false⟩]⟩,
   ⟨0x800028, 0x8, 1, [⟨0, 0, .w1c, 0, false⟩, ⟨1, 1, .w1c, 0, false⟩, ⟨2, 2, .w1c, 0, false⟩]⟩,
   ⟨0x800100, 0x8, 16, [⟨6, 0, .rw, 0, true⟩]⟩,
   ⟨0x800200, 0x8, 8, [⟨8, 0, .rw, 0, true⟩]⟩,
   ⟨0x800300, 0x8, 8, [⟨9, 0, .ro, 0, false⟩, ⟨19, 10, .ro, 0, false⟩, ⟨29, 20, .ro, 256, false⟩, ⟨30, 30, .ro, 0, false⟩, ⟨63, 32, .ro, 0, false⟩]⟩,
   ⟨0x800340, 0x8, 7, [⟨9, 0, .ro, 0, false⟩, ⟨19, 10, .ro, 0, false⟩, ⟨29, 20, .ro, 0, false⟩, ⟨30, 30, .ro, 0, false⟩, ⟨63, 32, .ro, 0, false⟩]⟩,
   ⟨0x800400, 0x8, 8, [⟨7, 0, .ro, 0, false⟩, ⟨9, 8, .ro, 0, false⟩, ⟨22, 16, .ro, 64, false⟩, ⟨23, 23, .ro, 0, false⟩, ⟨24, 24, .ro, 0, false⟩]⟩,
   ⟨0x801000, 0x8, 416, [⟨7, 0, .ro, 0, false⟩, ⟨8, 8, .ro, 0, false⟩]⟩,
   ⟨0x800500, 0x8, 5, [⟨0, 0, .ro, 0, false⟩, ⟨1, 1, .ro, 0, false⟩, ⟨2, 2, .ro, 0, false⟩, ⟨3, 3, .w1c, 0, false⟩, ⟨4, 4, .ro, 0, false⟩, ⟨15, 8, .ro, 0, false⟩, ⟨63, 32, .ro, 0, false⟩]⟩,
   ⟨0x802000, 0x40, 8, [⟨47, 0, .ro, 0, false⟩]⟩,
   ⟨0x802008, 0x40, 8, [⟨47, 0, .ro, 0, false⟩]⟩,
   ⟨0x802010, 0x40, 8, [⟨47, 0, .ro, 0, false⟩]⟩,
   ⟨0x802018, 0x40, 8, [⟨47, 0, .ro, 0, false⟩]⟩,
   ⟨0x803800, 0x8, 1, [⟨31, 0, .ro, 0, false⟩]⟩]

/-- Registers of the BT_ block, part 0. -/
def regMapBT0 : List RegDesc :=
  [⟨0x900000, 0x8, 1, [⟨0, 0, .ro, 0, false⟩, ⟨1, 1, .ro, 0, false⟩, ⟨2, 2, .ro, 0, false⟩, ⟨3, 3, .ro, 0, false⟩, ⟨4, 4, .ro, 0, false⟩, ⟨5, 5, .ro, 0, false⟩, ⟨11, 8, .ro, 0, false⟩, ⟨15, 12, .ro, 0, false⟩, ⟨17, 16, .ro, 0, false⟩, ⟨18, 18, .ro, 0, false⟩, ⟨19, 19, .ro, 0, false⟩, ⟨63, 32, .ro, 0, false⟩]⟩,
   ⟨0x900008, 0x8, 1, [⟨31, 0, .ro, 0, false⟩, ⟨47, 32, .ro, 0, false⟩, ⟨63, 48, .ro, 0, false⟩]⟩,
   ⟨0x900010, 0x8, 1, [⟨31, 0, .ro, 0, false⟩, ⟨63, 32, .ro, 0, false⟩]⟩,
   ⟨0x900018, 0x8, 1, [⟨15, 0, .ro, 0, false⟩, ⟨31, 16, .ro, 0, false⟩]⟩,
   ⟨0x900020, 0x8, 1, [⟨0, 0, .w1s, 0, false⟩]⟩,
   ⟨0x900028, 0x8, 1, [⟨1, 0, .rwl, 0, true⟩, ⟨2, 2, .rwl, 0, true⟩, ⟨3, 3, .rwl, 0, true⟩]⟩,
   ⟨0x900040, 0x8, 1, [⟨56, 12, .rw, 0, false⟩]⟩,
   ⟨0x900048, 0x8, 1, [⟨24, 0, .rw, 0, false⟩]⟩,
   ⟨0x900050, 0x8, 1, [⟨2, 0, .rw, 0, false⟩, ⟨3, 3, .wo, 0, false⟩, ⟨4, 4, .ro, 0, false⟩, ⟨7, 5, .ro, 0, false⟩]⟩]

/-- Registers of the CV_ block, part 0. -/
def regMapCV0 : List RegDesc :=
  [⟨0xa00000, 0x100, 4, [⟨0, 0, .wo, 0, false⟩, ⟨1, 1, .wo, 0, false⟩, ⟨2, 2, .ro, 0, false⟩, ⟨5, 3, .ro, 0, false⟩]⟩,
   ⟨0xa00008, 0x100, 4, [⟨63, 0, .wo, 0, false⟩]⟩,
   ⟨0xa00010, 0x100, 4, [⟨23, 0, .wo, 0, false⟩, ⟨25, 24, .wo, 0, false⟩]⟩,
   ⟨0xa00018, 0x100, 4, [⟨31, 0, .rw, 4294967295, false⟩]⟩,
   ⟨0xa00020, 0x100, 4, [⟨31, 0, .ro, 0, false⟩]⟩,
   ⟨0xa00028, 0x100, 4, [⟨47, 0, .ro, 0, false⟩]⟩,
   ⟨0xa00030, 0x100, 4, [⟨56, 0, .rw, 0, false⟩]⟩,
   ⟨0xa00038, 0x100, 4, [⟨39, 0, .rw, 0, false⟩]⟩]

/-- Registers of the SP_ block, part 0. -/
def regMapSP0 : List RegDesc :=
  [⟨0xb00000, 0x8, 1, [⟨7, 0, .rw, 0, true⟩]⟩,
   ⟨0xb00100, 0x8, 7, [⟨31, 0, .rw, 0, true⟩]⟩,
   ⟨0xb00200, 0x8, 1, [⟨1, 0, .rw, 0, false⟩, ⟨27, 16, .rw, 0, false⟩, ⟨32, 32, .wo, 0, false⟩, ⟨35, 33, .ro, 0, false⟩]⟩,
   ⟨0xb00300, 0x8, 1, [⟨0, 0, .wo, 0, false⟩, ⟨1, 1, .ro, 0, false⟩, ⟨4, 2, .ro, 0, false⟩]⟩,
   ⟨0xb00308, 0x8, 1, [⟨31, 0, .ro, 0, false⟩, ⟨47, 32, .ro, 0, false⟩, ⟨48, 48, .ro, 0, false⟩, ⟨49, 49, .ro, 0, false⟩]⟩]

/-- Registers of the EV_ block, part 0. -/
def regMapEV0 : List RegDesc :=
  [⟨0xc00000, 0x40, 17, [⟨56, 12, .rw, 0, false⟩]⟩,
   ⟨0xc00008, 0x40, 17, [⟨4, 0, .rw, 10, false⟩, ⟨8, 8, .rw, 0, false⟩, ⟨26, 16, .rw, 0, false⟩]⟩,
   ⟨0xc00010, 0x40, 17, [⟨31, 0, .ro, 0, false⟩]⟩,
   ⟨0xc00018, 0x40, 17, [⟨31, 0, .rw, 0, false⟩]⟩,
   ⟨0xc00020, 0x40, 17, [⟨0, 0, .ro, 0, false⟩, ⟨1, 1, .w1c, 0, false⟩, ⟨63, 32, .ro, 0, false⟩]⟩,
   ⟨0xc01000, 0x8, 16, [⟨7, 0, .rw, 0, false⟩, ⟨8, 8, .rw, 0, false⟩, ⟨31, 16, .rw, 0, false⟩, ⟨47, 32, .rw, 0, false⟩, ⟨63, 48, .rw, 65535, false⟩]⟩,
   ⟨0xc01100, 0x8, 16, [⟨7, 0, .rw, 0, false⟩, ⟨63, 48, .rw, 65535, false⟩]⟩,
   ⟨0xc01200, 0x8, 1, [⟨47, 0, .ro, 0, false⟩]⟩,
   ⟨0xc01300, 0x8, 1, [⟨0, 0, .wo, 0, false⟩, ⟨1, 1, .ro, 0, false⟩, ⟨2, 2, .ro, 0, false⟩, ⟨63, 32, .ro, 0, false⟩]⟩]

/-- Registers of the TD_ block, part 0. -/
def regMapTD0 : List RegDesc :=
  [⟨0xd00000, 0x8, 1, [⟨9, 0, .rw, 0, false⟩, ⟨12, 10, .rw, 0, false⟩, ⟨13, 13, .wo, 0, false⟩, ⟨14, 14, .rw, 0, false⟩, ⟨15, 15, .ro, 0, false⟩, ⟨18, 16, .ro, 0, false⟩]⟩,
   ⟨0xd00008, 0x8, 1, [⟨0, 0, .ro, 0, false⟩, ⟨1, 1, .ro, 0, false⟩, ⟨3, 2, .ro, 0, false⟩, ⟨13, 4, .ro, 0, false⟩, ⟨17, 14, .ro, 0, false⟩, ⟨19, 18, .ro, 0, false⟩, ⟨20, 20, .w1c, 0, false⟩]⟩,
   ⟨0xd00010, 0x8, 4, [⟨0, 0, .rw, 0, false⟩, ⟨51, 4, .rw, 0, false⟩]⟩,
   ⟨0xd00040, 0x8, 1, [⟨9, 0, .rw, 0, false⟩, ⟨18, 10, .rw, 0, false⟩, ⟨21, 19, .rw, 0, false⟩, ⟨41, 22, .rw, 0, false⟩, ⟨45, 42, .rw, 0, false⟩]⟩,
   ⟨0xd00048, 0x8, 1, [⟨63, 0, .rw, 0, false⟩]⟩,
   ⟨0xd00100, 0x8, 1, [⟨23, 0, .ro, 0, false⟩, ⟨47, 24, .ro, 0, false⟩, ⟨63, 48, .ro, 0, false⟩]⟩,
   ⟨0xd01000, 0x8, 25, [⟨31, 0, .ro, 0, false⟩, ⟨36, 32, .ro, 0, false⟩, ⟨44, 37, .ro, 0, false⟩, ⟨52, 45, .ro, 0, false⟩, ⟨56, 53, .ro, 0, false⟩, ⟨57, 57, .ro, 0, false⟩]⟩]

/-- Registers of the SH_ block, part 0. -/
def regMapSH0 : List RegDesc :=
  [⟨0x340000, 0x100, 16, [⟨47, 0, .ro, 0, false⟩]⟩,
   ⟨0x340010, 0x100, 16, [⟨47, 0, .ro, 0, false⟩]⟩,
   ⟨0x340020, 0x100, 16, [⟨47, 0, .ro, 0, false⟩]⟩,
   ⟨0x340030, 0x100, 16, [⟨47, 0, .ro, 0, false⟩]⟩,
   ⟨0x340040, 0x100, 16, [⟨47, 0, .ro, 0, false⟩]⟩,
   ⟨0x340050, 0x100, 16, [⟨47, 0, .ro, 0, false⟩]⟩,
   ⟨0x340060, 0x100, 16, [⟨47, 0, .ro, 0, false⟩]⟩,
   ⟨0x340070, 0x100, 16, [⟨47, 0, .ro, 0, false⟩]⟩,
   ⟨0x340008, 0x100, 16, [⟨47, 0, .ro, 0, false⟩]⟩,
   ⟨0x340018, 0x100, 16, [⟨47, 0, .ro, 0, false⟩]⟩,
   ⟨0x340028, 0x100, 16, [⟨47, 0, .ro, 0, false⟩]⟩,
   ⟨0x340038, 0x100, 16, [⟨47, 0, .ro, 0, false⟩]⟩,
   ⟨0x340048, 0x100, 16, [⟨47, 0, .ro, 0, false⟩]⟩,
   ⟨0x340058, 0x100, 16, [⟨47, 0, .ro, 0, false⟩]⟩,
   ⟨0x340068, 0x100, 16, [⟨47, 0, .ro, 0, false⟩]⟩,
   ⟨0x340078, 0x100, 16, [⟨47, 0, .ro, 0, false⟩]⟩,
   ⟨0x340080, 0x100, 16, [⟨47, 0, .ro, 0, false⟩]⟩,
   ⟨0x340088, 0x100, 16, [⟨47, 0, .ro, 0, false⟩]⟩,
   ⟨0x340090, 0x100, 16, [⟨47, 0, .ro, 0, false⟩]⟩,
   ⟨0x440000, 0x40, 16, [⟨47, 0, .ro, 0, false⟩]⟩]

/-- Registers of the SH_ block, part 1. -/
def regMapSH1 : List RegDesc :=
  [⟨0x440008, 0x40, 16, [⟨47, 0, .ro, 0, false⟩]⟩,
   ⟨0x440010, 0x40, 16, [⟨47, 0, .ro, 0, false⟩]⟩,
   ⟨0x440018, 0x40, 16, [⟨47, 0, .ro, 0, false⟩]⟩,
   ⟨0x440020, 0x40, 16, [⟨47, 0, .ro, 0, false⟩]⟩,
   ⟨0x520000, 0x40, 16, [⟨47, 0, .ro, 0, false⟩]⟩,
   ⟨0x520008, 0x40, 16, [⟨47, 0, .ro, 0, false⟩]⟩,
   ⟨0x520010, 0x40, 16, [⟨47, 0, .ro, 0, false⟩]⟩,
   ⟨0x520018, 0x40, 16, [⟨47, 0, .ro, 0, false⟩]⟩,
   ⟨0x728000, 0x40, 16, [⟨47, 0, .ro, 0, false⟩]⟩,
   ⟨0x728008, 0x40, 16, [⟨47, 0, .ro, 0, false⟩]⟩,
   ⟨0x728010, 0x40, 16, [⟨47, 0, .ro, 0, false⟩]⟩,
   ⟨0x728018, 0x40, 16, [⟨47, 0, .ro, 0, false⟩]⟩,
   ⟨0x728020, 0x40, 16, [⟨47, 0, .ro, 0, false⟩]⟩,
   ⟨0x728028, 0x40, 16, [⟨47, 0, .ro, 0, false⟩]⟩,
   ⟨0x728030, 0x40, 16, [⟨47, 0, .ro, 0, false⟩]⟩,
   ⟨0x2b0000, 0x40, 1024, [⟨63, 0, .ro, 0, false⟩]⟩,
   ⟨0x2b0008, 0x40, 1024, [⟨63, 0, .ro, 0, false⟩]⟩,
   ⟨0x2b0010, 0x40, 1024, [⟨63, 0, .ro, 0, false⟩]⟩,
   ⟨0x2b0018, 0x40, 1024, [⟨63, 0, .ro, 0, false⟩]⟩,
   ⟨0x2b0020, 0x40, 1024, [⟨63, 0, .ro, 0, false⟩]⟩]

/-- Registers of the SH_ block, part 2. -/
def regMapSH2 : List RegDesc :=
  [⟨0x803000, 0x40, 8, [⟨47, 0, .ro, 0, false⟩]⟩,
   ⟨0x803008, 0x40, 8, [⟨47, 0, .ro, 0, false⟩]⟩,
   ⟨0x803010, 0x40, 8, [⟨47, 0, .ro, 0, false⟩]⟩,
   ⟨0x803018, 0x40, 8, [⟨47, 0, .ro, 0, false⟩]⟩]

/-- The whole map. -/
def regMap : List RegDesc :=
  regMapPT0 ++ regMapPT1 ++ regMapPT2 ++ regMapPT3 ++ regMapPT4 ++ regMapPT5 ++ regMapSL0 ++ regMapCS0 ++ regMapCS1 ++ regMapMC0 ++ regMapPU0 ++ regMapFE0 ++ regMapFE1 ++ regMapGF0 ++ regMapGF1 ++ regMapPW0 ++ regMapBT0 ++ regMapCV0 ++ regMapSP0 ++ regMapEV0 ++ regMapTD0 ++ regMapSH0 ++ regMapSH1 ++ regMapSH2

/-- Whether offset `off` is one of the registers that `d` describes. -/
def RegDesc.has (d : RegDesc) (off : Nat) : Bool :=
  d.base ≤ off && (off - d.base) % d.stride == 0 && (off - d.base) / d.stride < d.count

/-- The description of the register at a BAR0 offset; none where no register stands (R37). -/
def regDesc? (off : Nat) : Option RegDesc := regMap.find? (·.has off)

/-- The reset value of a register: the fields' reset values, 0 for a cfg field before the configuration step. -/
def regReset (off : Nat) : BitVec 64 :=
  match regDesc? off with
  | none => 0
  | some d => BitVec.ofNat 64 (d.fields.foldl (fun a f => a + f.reset * 2 ^ f.lo) 0)

end Sys2Proof
end

