-- ==== Sys2Proof/Machine/Types.lean ====
section
/-! DEFINITION. The parts that State is made of, one structure per unit of the Peold, as plain data. -/

namespace Sys2Proof.Machine

/-- Where the start-up of R479 stands. -/
inductive Phase where
  /-- Held at PKG_RESET_N, or as at it (R551, R552, R554). -/
  | held
  /-- Running: the step of R479 that runs now. -/
  | running (step : Nat)
  /-- READY (step 11 done). -/
  | ready
  /-- Stays unready: the step that stopped and the reason (R481). -/
  | unready (step reason : Nat)
  /-- ROM recovery serves I3C (R490). -/
  | recovery (reason : Nat)
  deriving DecidableEq, Repr

/-- A flash operation in progress, R489, R504, R523. -/
structure FlashOp where
  /-- 1 firmware, 2 configuration, 3 owner record, 4 other firmware slot; 8 CONFIG_SELECT. -/
  op : Nat
  /-- Device of the target region. -/
  dev : Nat
  /-- Flash offset of the target region. -/
  off : Nat
  /-- The bytes checked at the start, header included. -/
  image : List Byte
  /-- Status already decided at the start (0: none). -/
  status : Nat
  /-- The staging buffer's bytes as checked at the start; empty where nothing is staged. -/
  staged : List Byte
  /-- The CONFIG_SELECT command, for op 8. -/
  cmd : Nat
  deriving DecidableEq, Repr

/-- The trust and start-up state beside the BT_ registers. -/
structure Boot where
  phase : Phase
  /-- The package stopped by a trip or a coolant fault (R462, R472), until PKG_RESET_N. -/
  stopped : Bool
  /-- Supplies out of range, rising (R552). -/
  supplyBad : List Nat
  /-- REFCLK or the root PLL is lost (R554). -/
  clockBad : Bool
  /-- Results of step 2 for the complexes of QB0 and QB1. -/
  rom0 : Bool
  rom1 : Bool
  /-- The lead complex has failed in steps 9 to 11, and the configuration step has not completed since (R483). -/
  leadFailed : Bool
  /-- Flash devices present (R481). -/
  dev0 : Bool
  dev1 : Bool
  /-- Contents of flash device 0 and 1 by byte address; an erased byte reads 0xFF. -/
  flash0 : Tab Byte
  flash1 : Tab Byte
  /-- The identity seed of the lead complex, when rebuilt (R495). -/
  seed : Option (List Byte)
  /-- BODYHASH of the firmware in force. -/
  bodyHash : List Byte
  /-- The owner record in force: bytes 0 to 255, all zeros when unowned without a record. -/
  owner : List Byte
  /-- The configuration slot applied: bytes 0 to 64 + 16 × NENT − 1. -/
  cfgBytes : List Byte
  /-- Configuration has been applied since the boot began (R541). -/
  cfgDone : Bool
  /-- Step 9 onward run again because of a whole-device reset. -/
  rerun : Bool
  /-- CONFIG_SELECT commands whose flash write has ended: 1 done, 2 failed. -/
  selDone : Tab Nat
  /-- The flash operation behind BT_UPD_CTL.BUSY, or a CONFIG_SELECT write. -/
  upd : Option FlashOp
  /-- Recovery: the first WRITE has erased slot A; the held header bytes by offset (R494). -/
  recErased : Bool
  recHdr : Tab Byte
  /-- A signature nonce counter: the free value behind each signature (R498). -/
  sigCount : Nat
  /-- The last 100 raw samples of each board input, newest first (R555). -/
  pinHist : Tab (List Bool)
  /-- Dies, by position in the chain of R539, that the start-up test left without a working service path, rising. -/
  noPath : List Nat
  /-- Bytes of the repair record copy in use (R498, R522). -/
  repairUse : List Byte
  deriving DecidableEq, Repr

/-- The management interfaces, R494, R497, R560. -/
structure Mgmt where
  /-- The dynamic I3C address, when assigned. -/
  i3cAddr : Option Nat
  /-- Fragments held for reassembly; the rows carry whole messages, so none is left here. -/
  mctp : List Byte
  /-- MCTP packets discarded for a bad PEC, header version or destination (R560); the rows carry none. -/
  mctpDrop : Nat
  deriving DecidableEq, Repr

/-- The test access port, R538, R539. -/
structure Tap where
  /-- The instruction register, 8 bits. -/
  ir : Nat
  /-- The dies selected, bit i for die i of the chain order. -/
  sel : BitVec 24
  /-- The boundary register. -/
  boundary : List Bool
  /-- Boundary cells drive the lands (EXTEST, CLAMP, HIGHZ). -/
  drive : Bool
  /-- The last access of the IEEE 1687 network: instrument, and the value it left. -/
  instr : Tab Nat
  deriving DecidableEq, Repr

/-- One event record before it is laid out, R527. -/
structure EvRec where
  seq : Nat
  snap : Nat
  kind : Nat
  cls : Nat
  src : Nat
  code : Nat
  part : Option Nat
  unit : Nat
  ctx : Nat
  detail : List Nat
  /-- The record was made while the log of its partition was enabled (R563). -/
  toPart : Bool
  deriving DecidableEq, Repr

/-- One histogram channel's samples, R532. -/
structure Hist where
  samples : Nat
  bins : List Nat
  deriving DecidableEq, Repr

/-- One extreme channel's samples, R532. -/
structure Extreme where
  samples : Nat
  minV : Int
  minU : Nat
  maxV : Int
  maxU : Nat
  sum : Nat
  deriving DecidableEq, Repr

/-- The event recorder and the snapshot machinery, R527 to R536. -/
structure Recorder where
  /-- SEQ of the next record. -/
  seq : Nat
  /-- The internal queue, at most 1,024 records (R531). -/
  queue : List EvRec
  /-- Records held until log 16 is enabled, at most 256 (R531). -/
  held : List EvRec
  /-- Records beyond those 256, for LOST of log 16 once it is enabled. -/
  heldLost : Nat
  /-- Logs whose last record has been sent to memory and whose WR has not advanced (R530). -/
  adv : List Nat
  /-- Number of the last snapshot started. -/
  snapNum : Nat
  /-- A snapshot in progress, its acknowledged units in rising order. -/
  snapAcks : Option (List Nat)
  /-- Requests waiting for the snapshot in progress: command ids. -/
  snapWait : List Nat
  /-- The command that started the snapshot in progress, if any. -/
  snapCmd : Option Nat
  /-- Commands whose snapshot has completed, with its number. -/
  snapDone : Tab Nat
  hist : Tab Hist
  ext : Tab Extreme
  deriving DecidableEq, Repr

/-- The power controllers beside the PW_ registers, R455 to R475. -/
structure Power where
  /-- die_est of each compute die, in milliwatts. -/
  est : Tab Nat
  /-- Sum and count of unscaled estimates since the rail's last reading (R465). -/
  estSum : Tab Nat
  estCnt : Tab Nat
  /-- Last valid power of rails 0 to 14, in milliwatts. -/
  railMw : Tab Nat
  /-- Set voltage of each core rail, in millivolts: what its last acknowledged write set (R455, R463). -/
  setMv : Tab Nat
  /-- A voltage written to a core rail and not acknowledged, in millivolts; 0 none (R455). -/
  newMv : Tab Nat
  /-- Last reading of each temperature point, °C (R460). -/
  temps : Tab Int
  /-- Consecutive invalid and valid readings of each rail (R464). -/
  railBad : Tab Nat
  railGood : Tab Nat
  /-- Consecutive readings whose GAIN target lay outside 128–512 (R465). -/
  gainOut : Tab Nat
  /-- Target level of each die (R466). -/
  tgt : Tab Nat
  /-- A step of a die's performance state: key die, value 1 raise waiting for its acknowledgement, 2 raise
  acknowledged, 3 lower waiting for its switch, 4 lowered, its write waiting for the acknowledgement (R455). -/
  step : Tab Nat
  /-- Halves with an open droop window, key 2 × die + half (R457). -/
  droop : List Nat
  /-- Consecutive intervals that qualified a die for a step down, and for a step up (R467). -/
  downRun : Tab Nat
  upRun : Tab Nat
  /-- Limiter level applied to the cores of each logical cluster since their half's last frame boundary, and the beats of
  each half's previous limiter frame (R138, R466, R470). -/
  clLevel : Tab Nat
  halfBeats : Tab Nat
  /-- Consecutive readings at or above 110 °C of each point (R461). -/
  tripRun : Tab Nat
  /-- Quay or I/O dies whose T keeps every compute die of a Quay HOT (R461): Quay die numbers 8, 9, I/O 22, 23. -/
  quayHot : List Nat
  /-- Compute dies whose own reading set HOT (R461). -/
  ownHot : List Nat
  /-- Points whose last reading is invalid, rising (R460, R309). -/
  badPts : List Nat
  /-- The floor-limited minimum is forced on these dies for the next interval (R468). -/
  overIlim : List Nat
  /-- A VR_ALERT hold runs after deassertion (R473). -/
  vrHold : Bool
  /-- The follower has missed decisions and stepped its dies down (R466). -/
  missed : Bool
  /-- THERMTRIP_N is asserted (R462). -/
  trip : Bool
  /-- PF0 is in D3hot (R475). -/
  d3 : Bool
  /-- Gated cores, logical numbers, in rising order (R475). -/
  gated : List Nat
  deriving DecidableEq, Repr

/-- One entry of the running repair state, R521, without its kind and physical number (the table's key). -/
structure RepEnt where
  state : Nat
  reason : Nat
  logical : Nat
  count : Nat
  deriving DecidableEq, Repr

/-- A replacement in progress, R23, R295, R314, R315, R517. -/
structure Repl where
  /-- Kind of R515: 0 wire, 1 channel evacuation, 2 row remap, 4 slice, 5 cluster. -/
  kind : Nat
  /-- Logical unit (cluster, slice, channel), or the wire's PHYS of R521, or the row's PHYS. -/
  unit : Nat
  /-- The physical spare, or the spare wire, or the spare row. -/
  spare : Nat
  /-- Where it stands: the step of its owning rule. -/
  stage : Nat
  /-- The watermark of an evacuation (R315), in rows copied. -/
  mark : Nat
  reason : Nat
  deriving DecidableEq, Repr

/-- Wear, sparing and the die-to-die wires, R17 to R30, R513 to R525. -/
structure Spare where
  /-- Wear counts, keyed by kind × 2^40 + unit (R514). -/
  wear : Tab Nat
  /-- Units whose action was taken in this window (R515). -/
  acted : List Nat
  /-- The running repair state, keyed by KIND × 2^32 + PHYS (R521). -/
  rep : Tab RepEnt
  /-- The record in force: the same table as last written or read. -/
  inForce : Tab RepEnt
  updates : Nat
  /-- Physical unit plus one in each logical slot, 0 when absent; unlisted slots read as shipped (R28). -/
  clSlot : Tab Nat
  slSlot : Tab Nat
  chSlot : Tab Nat
  laneSlot : Tab Nat
  /-- Retired Quay-bridge links, seams, UCIe modules, halves, Pumps and Lighters, by KIND × 2^32 + number. -/
  retired : List Nat
  /-- Replacements in progress. -/
  repl : List Repl
  /-- Signal wires substituted in each window: key window × 512 + wire, value the spare (R23). -/
  wires : Tab Nat
  /-- Failed spares and wires, key window × 512 + wire. -/
  failed : List Nat
  /-- A repair record update waits or runs. -/
  recBusy : Bool
  /-- The entries that the update in progress writes: the repair state when the lead signed (R523). -/
  recCap : Option (Tab RepEnt)
  deriving DecidableEq, Repr

/-- A cached translation, R60. -/
structure TlbEnt where
  /-- 0 core, 1 Pump, 2 Lighter, 3 front end (R63). -/
  agent : Nat
  unit : Nat
  ctx : Nat
  /-- First virtual address and log2 of the page size. -/
  va : Nat
  lg : Nat
  pa : Nat
  w : Bool
  x : Bool
  cc : Nat
  near : Bool
  /-- The root pointer had SETUP set at the walk (R59). -/
  setup : Bool
  deriving DecidableEq, Repr

/-- A page walk in progress, R54 to R59. -/
structure Walk where
  agent : Nat
  unit : Nat
  ctx : Nat
  part : Nat
  va : Nat
  /-- 0 read, 1 write, 2 fetch. -/
  acc : Nat
  /-- The level whose entry is read next, and the table's address. -/
  level : Nat
  table : Nat
  setup : Bool
  /-- Who waits: the original group, the program counter, the lanes of the access and the instruction word. -/
  group : Nat
  pc : Nat
  lanes : List Nat
  word : Nat
  deriving DecidableEq, Repr

/-- An invalidation in progress, R60, R61. -/
structure XInv where
  func : Nat
  /-- Contexts covered: `none` every context of partition `part` (every context for PF0). -/
  ctx : Option Nat
  part : Option Nat
  lo : Nat
  hi : Nat
  deriving DecidableEq, Repr

/-- A read sent to the host and not answered, R53. -/
structure HRead where
  id : Nat
  /-- 0 thread load of a core, 2 Lighter command (R63). -/
  agent : Nat
  unit : Nat
  part : Nat
  ctx : Nat
  va : Nat
  pa : Nat
  len : Nat
  /-- For a core the original group, program counter, lanes and instruction word; for a Lighter the command. -/
  group : Nat
  pc : Nat
  lanes : List Nat
  word : Nat
  deriving DecidableEq, Repr

/-- The host attachment, R31 to R65. -/
structure HostIf where
  /-- SR-IOV VF Enable (R406). -/
  vfEn : Bool
  /-- Configuration space words written, keyed function × 4,096 + word. -/
  cfg : Tab Nat
  /-- MSI-X tables, keyed function × 2,048 + vector: address, data and the mask bit, as the table's 128 bits. -/
  msix : Tab (BitVec 128)
  /-- Pending bits, as function × 2,048 + vector, rising. -/
  pba : List Nat
  tlb : List TlbEnt
  walks : List Walk
  invs : List XInv
  reads : List HRead
  /-- Next identifier of a host read. -/
  nextId : Nat
  /-- Reads that a synchronisation waits for (R52). -/
  sync : List Nat
  /-- It also awaits the store-buffer entries opened before this serial (R52). -/
  syncTo : Nat
  /-- VFs whose FLR runs (R407). -/
  flr : List Nat
  /-- A synchronisation of the dirty log awaits the logged store-buffer entries opened before this serial (R412). -/
  dirtyTo : Nat
  deriving DecidableEq, Repr

/-- The memory controllers, R298 to R319. -/
structure MemCtl where
  /-- Open rows, by physical channel × 32 + bank (R304). -/
  opened : Tab Nat
  /-- Bursts served in the channel's window, by channel × 16 + partition, bursts of posted accesses that wait for the next
  windows, and the CAP in force there (R319). -/
  charge : Tab Nat
  late : Tab Nat
  caps : Tab Nat
  /-- Channels that have failed, rising (R311, R317). -/
  failed : List Nat
  /-- Sectors written in a failed channel that is being evacuated, rising (R311). -/
  kept : List Nat
  /-- Parity failures in a row, by channel (R311). -/
  parity : Tab Nat
  /-- Sector requests that hold an entry, by channel × 16 + partition (R305). -/
  entries : Tab Nat
  /-- Reads that wait for entries in their home slices' memory queues, in arrival order: line and sectors (R305). -/
  waiting : List (Nat × Nat)
  /-- GUAR in force in the channel's window, as `caps` (R319). -/
  guars : Tab Nat
  /-- Channels whose window is held to 208 bursts because their stack is at 105 °C or above, rising (R461). -/
  hot : List Nat
  /-- Sectors whose stored pattern the check cannot correct, rising: every read finds the error again until a write
  replaces the sector (R311). -/
  bad : List Nat
  /-- Sectors written while a remap copies their row, rising (R314). -/
  rowWrites : List Nat
  /-- Spare rows that no longer serve, rising: (physical channel × 32 + bank) × 64 + spare row (R314). -/
  badRows : List Nat
  deriving DecidableEq, Repr

def MemCtl.reset : MemCtl :=
  { opened := [], charge := [], late := [], caps := [], failed := [], kept := [], parity := [], entries := [], waiting := [], guars := []
    hot := [], bad := [], rowWrites := [], badRows := [] }

/-- Debug, R543 to R545: the target context, a step that is armed (core, group, program counter), and a teardown
deferred by HOLD (its cause). -/
structure Debug where
  target : Option Nat
  step : Option (Nat × Nat × Nat)
  held : Option Nat
  deriving DecidableEq, Repr

end Sys2Proof.Machine
end

