-- ==== Sys2Proof/Machine/State.lean ====
section
/-! DEFINITION. The state of the Peold as plain data, the reasons a step can stop, and the state after reset. -/

namespace Sys2Proof.Machine

/-- Reasons for a fault. No meaning of this model raises one: every event the spec describes has its effect. -/
inductive Fault where
  /-- Raised by nobody: kept so that the type has a name for a machine that cannot go on (safe). -/
  | stuck
  deriving DecidableEq, Repr

/-- Reasons for a refusal. -/
inductive Refusal where
  /-- Raised by the dispatch for a command without a meaning, by its mnemonic (safe: the machine stops). -/
  | notModelled (mnemonic : String)
  deriving DecidableEq, Repr

/-- The whole machine. -/
structure State where
  /-- Commands waiting, first in, first out (the model's own queue). -/
  pending : List Instr
  /-- Messages sent, oldest first (the model's own record of the outputs). -/
  out : List Emit
  /-- The BAR0 registers that differ from their reset value, by offset (R36, Regs.lean). -/
  regs : Tab (BitVec 64)
  /-- Local memory by physical address; an unlisted byte is 0 (R48, R318). -/
  mem : List Host.Cell
  /-- Poisoned 32-byte sectors of memory, by sector number, rising (R293, R311). -/
  poison : List Nat
  /-- The model's own counter of free values drawn. -/
  free : Nat
  boot : Boot
  mgmt : Mgmt
  tap : Tap
  evr : Recorder
  pow : Power
  sp : Spare
  host : HostIf
  /-- Cores by logical number; an unlisted core is idle. -/
  cores : Tab Core
  sluices : List Sluice
  coh : Coh
  dbg : Debug
  mc : MemCtl
  fab : Fab
  fe : Front
  deriving DecidableEq, Repr

/-- Start-up state after reset: held in the test hold, flash erased. -/
def Boot.reset : Boot :=
  { phase := .held, stopped := false, supplyBad := [], clockBad := false, rom0 := false, rom1 := false,
    leadFailed := false, dev0 := false, dev1 := false, flash0 := [], flash1 := [], seed := none, bodyHash := [],
    owner := [], cfgBytes := [], cfgDone := false, rerun := false, selDone := [], upd := none, recErased := false, recHdr := [],
    sigCount := 0, pinHist := [], noPath := [], repairUse := [] }

def Mgmt.reset : Mgmt :=
  { i3cAddr := none, mctp := [], mctpDrop := 0 }

/-- After TRST_N and after PKG_RESET_N only QB0 is selected (R539); the reset state of IEEE 1149.1 holds IDCODE. -/
def Tap.reset : Tap := { ir := 0x01, sel := 1, boundary := [], drive := false, instr := [] }

def Recorder.reset : Recorder :=
  { seq := 0, queue := [], held := [], heldLost := 0, adv := [], snapNum := 0, snapAcks := none, snapWait := [], snapCmd := none, snapDone := [], hist := [],
    ext := [] }

def Power.reset : Power :=
  { est := [], estSum := [], estCnt := [], railMw := [], setMv := [], newMv := [], temps := [], railBad := [], railGood := [], gainOut := [], tgt := [],
    step := [], droop := [], downRun := [], upRun := [], clLevel := [], halfBeats := [], tripRun := [],
    quayHot := [], ownHot := [], badPts := [], overIlim := [], vrHold := false, missed := false, trip := false, d3 := false, gated := [] }

def Spare.reset : Spare :=
  { wear := [], acted := [], rep := [], inForce := [], updates := 0, clSlot := [], slSlot := [], chSlot := [],
    laneSlot := [], retired := [], repl := [], wires := [], failed := [], recBusy := false, recCap := none }

def HostIf.reset : HostIf :=
  { vfEn := false, cfg := [], msix := [], pba := [], tlb := [], walks := [], invs := [], reads := [], nextId := 0,
    sync := [], syncTo := 0, flr := [], dirtyTo := 0 }

/-- The filter state of PWR_GOOD (asserted) and PKG_RESET_N (asserted): the test hold (R551, R558). -/
def pinHold : Tab (BitVec 64) := [(A.PW_PIN_STAT 0, 3), (A.PW_PIN_STAT 1, 3)]

/-- The machine after reset: PWR_GOOD asserted, PKG_RESET_N still held, every register at its reset value. -/
def State.reset : State :=
  { pending := [], out := [], regs := pinHold, mem := [], poison := [], free := 0, boot := .reset, mgmt := .reset,
    tap := .reset, evr := .reset, pow := .reset, sp := .reset, host := .reset, cores := [], sluices := [], coh := .reset,
    dbg := ⟨none, none, none⟩, mc := .reset, fab := ⟨[], [], [], [], [], [], []⟩,
    fe := .reset }

end Sys2Proof.Machine
end

