-- ==== Sys2Proof/Machine/Ops.lean ====
section
/-! DEFINITION. The shared operations over registers, memory, outputs, interrupts, event records and samples. -/

namespace Sys2Proof.Machine

/-- What a command answers. -/
abbrev Out := Host.Outcome State Fault Refusal

/-! ### Registers -/

/-- A BAR0 register, whole. -/
def State.raw (s : State) (off : Nat) : BitVec 64 := tabGet (regReset off) s.regs off

/-- A BAR0 register replaced whole. -/
def State.setRaw (s : State) (off : Nat) (v : BitVec 64) : State :=
  { s with regs := tabSet (regReset off) s.regs off v }

/-- A field of a register, as a number. -/
def State.get (s : State) (f : Fld) : Nat := bits (s.raw f.off).toNat f.hi f.lo

/-- A one-bit field, as a truth value. -/
def State.on (s : State) (f : Fld) : Bool := s.get f == 1

/-- A field set, the rest of its register kept. -/
def State.set (s : State) (f : Fld) (n : Nat) : State :=
  s.setRaw f.off (BitVec.ofNat 64 (setBits (s.raw f.off).toNat f.hi f.lo n))

/-- A counter field advanced by k, stopping at its largest value. -/
def State.count (s : State) (f : Fld) (k : Nat) : State := s.set f (satAdd (f.hi + 1 - f.lo) (s.get f) k)

/-- A counter field advanced by k, wrapping. -/
def State.countWrap (s : State) (f : Fld) (k : Nat) : State := s.set f (s.get f + k)

/-- The indices of an array of registers, at `base` and every `stride` bytes on, that differ from their reset value: the
only ones with a field set where every field of the array resets to 0. -/
def State.regsAt (s : State) (base stride count : Nat) : List Nat :=
  s.regs.filterMap fun e =>
    if base ≤ e.1 ∧ e.1 < base + stride * count ∧ (e.1 - base) % stride = 0 then some ((e.1 - base) / stride) else none

/-! ### Cores -/

def State.core (s : State) (c : Nat) : Core := tabGet Core.idle s.cores c
def State.setCore (s : State) (c : Nat) (k : Core) : State := { s with cores := tabSet Core.idle s.cores c k }

/-! ### Outputs and free values -/

/-- One more message sent. -/
def State.emit (s : State) (e : Emit) : State := { s with out := s.out ++ [e] }

/-- Draw a free value: nothing constrains it. -/
def State.draw (s : State) : BitVec 64 × State := (Config.free64 s.free, { s with free := s.free + 1 })

/-! ### Local memory -/

/-- One byte of local memory (R318: cleared memory reads 0). -/
def State.byte (s : State) (a : Nat) : Byte := tabGet 0 s.mem a

/-- One byte stored. -/
def State.setByte (s : State) (a : Nat) (b : Byte) : State := { s with mem := tabSet 0 s.mem a b }

/-- k bytes of local memory from address a. -/
def State.bytes (s : State) (a k : Nat) : List Byte := (List.range k).map fun i => s.byte (a + i)

/-- A little-endian number in local memory (R5). -/
def State.num (s : State) (a k : Nat) : Nat := ofBytes (s.bytes a k)

/-- Bytes stored from address a upward. -/
def State.setBytes (s : State) (a : Nat) : List Byte → State
  | [] => s
  | b :: bs => (s.setByte a b).setBytes (a + 1) bs

/-- The canonical form of memory: keys strictly rising, no zero byte listed. -/
def Memory.wf (m : List Host.Cell) : Bool := tabWf (fun _ => (0 : Byte)) m

/-! ### The physical address map, R48 -/

/-- The first address above local memory. -/
def localTop : Nat := 0x00C000000000

inductive Region where
  | localMem | hole | hostWin | setup0 | setup2 | fabric
  deriving DecidableEq, Repr

/-- The region of R48 that a 57-bit physical address lies in. -/
def region (a : Nat) : Region :=
  if bit a 56 then .fabric
  else if a < localTop then .localMem
  else if a < 0x010000000000 then .hole
  else if a < 0x020000000000 then .hostWin
  else if a < 0x020001000000 then .setup0
  else if a < 0x020002000000 then .setup2
  else .hole

/-! ### The way to the host, R32, R34 -/

/-- A UCIe module is retired. -/
def State.moduleOut (s : State) (m : Nat) : Bool := s.sp.retired.contains (8 * 2 ^ 32 + m)

/-- The Quay whose modules carry a request of an agent on Quay q: its own, or the other one where all four are retired. -/
def State.exitQuay (s : State) (q : Nat) : Option Nat :=
  [q, 1 - q].find? fun v => (List.range 4).any fun m => !s.moduleOut (4 * v + m)

/-- A request leaves for the host; with every module retired none does. -/
def State.toHost (s : State) (q : Nat) (m : Nat → Emit) : State :=
  match s.exitQuay q with
  | some v => s.emit (m v)
  | none => s

/-- The size of a VF's BAR4. -/
def State.apSize (s : State) : Nat := 2 ^ (30 + min 9 (s.get F.PT_VF_APSIZE_SIZE))

/-- A completion leaves by the Quay of the module that received the request, or by the other (R32). -/
def State.complete (s : State) (mod : Nat) (m : Nat → Emit) : State := s.toHost (mod / 4 % 2) m

/-! ### Interrupts, R40, R41, R565 -/

/-- Entries in a function's MSI-X table. -/
def msixSize (func : Nat) : Nat := if func = 0 then 2048 else 64

/-- An MSI-X table entry: an unwritten entry is masked. -/
def State.msixEntry (s : State) (func vec : Nat) : BitVec 128 :=
  tabGet (BitVec.ofNat 128 (2 ^ 96)) s.host.msix (func * 2048 + vec)

/-- An interrupt cause on a function's vector: no message and no pending bit beyond the table; a masked vector sets
its pending bit; otherwise the message leaves. -/
def State.interrupt (s : State) (func vec : Nat) : State :=
  if vec ≥ msixSize func then s
  else
    let e := (s.msixEntry func vec).toNat
    if bit e 96 then { s with host := { s.host with pba := setIns s.host.pba (func * 2048 + vec) } }
    else s.toHost 0 (.msix func vec (bits e 63 0) (bits e 95 64))

/-- VF v is bound to partition p and VF Enable is set. -/
def State.boundTo (s : State) (v p : Nat) : Bool :=
  s.host.vfEn && s.on (F.PT_FN_BOUND v) && s.get (F.PT_FN_PART v) == p

/-- The signalling function of a partition: its lowest-numbered bound VF, or PF0. -/
def State.signalFn (s : State) (p : Nat) : Nat :=
  ((s.regsAt (A.PT_FN 1) 8 63).map (· + 1)).find? (fun v => s.boundTo v p) |>.getD 0

/-! ### Event records, R527, R531, R566 -/

/-- A record joins the recorder's queue of 1,024; it takes its number even when it is lost. -/
def State.record (s : State) (kind cls src code : Nat) (part : Option Nat) (unit ctx : Nat) (detail : List Nat) : State :=
  let r : EvRec := ⟨s.evr.seq, s.evr.snapNum, kind, cls, src, code, part, unit, ctx, detail, part.any fun p => s.on (F.EV_LOG_CFG_EN p)⟩
  let s := { s with evr := { s.evr with seq := (s.evr.seq + 1) % 2 ^ 32 } }
  if s.evr.queue.length < 1024 then { s with evr := { s.evr with queue := s.evr.queue ++ [r] } }
  else s.count F.EV_DROP_COUNT 1

/-- An event record of kind 1. -/
def State.event (s : State) (cls src code : Nat) (part : Option Nat := none) (unit : Nat := 0) (ctx : Nat := 0x3FF)
    (detail : List Nat := []) : State :=
  s.record 1 cls src code part unit ctx detail

/-! ### Histograms and extremes, R532 -/

/-- The bin of a value: log2 bins in mode 0, linear bins in mode 1. -/
def histBin (mode : Nat) (base step v : Int) : Nat :=
  if mode = 0 then
    if v < 1 then 0 else min 15 (v.toNat.log2 + 1)
  else
    let st := if step = 0 then 1 else step
    if v < base + st then 0 else min 15 ((v - base) / st).toNat

/-- One sample of measure m, selector sel, taken by the enabled channels that watch it. -/
def State.sample (s : State) (m sel : Nat) (v : Int) : State :=
  let hist := (List.range 16).foldl (fun (t : Tab Hist) h =>
    let x := s.get (F.EV_HIST_SEL h)
    if s.get (F.EV_HIST_MEASURE h) = m ∧ (x = 0xFFFF ∨ x = sel) then
      let c := (tabFind t h).getD ⟨0, List.replicate 16 0⟩
      let b := histBin (s.get (F.EV_HIST_MODE h)) (toSigned 16 (s.get (F.EV_HIST_BASE h))) (s.get (F.EV_HIST_STEP h)) v
      tabIns t h ⟨c.samples + 1, c.bins.set b (satAdd 32 (c.bins.getD b 0) 1)⟩
    else t) s.evr.hist
  let ext := (List.range 16).foldl (fun (t : Tab Extreme) x =>
    let y := s.get (F.EV_EXT_SEL x)
    if s.get (F.EV_EXT_MEASURE x) = m ∧ (y = 0xFFFF ∨ y = sel) then
      match tabFind t x with
      | none => tabIns t x ⟨1, v, sel, v, sel, wrap 64 v⟩
      | some c =>
        tabIns t x
          { samples := c.samples + 1
            minV := if v < c.minV then v else c.minV
            minU := if v < c.minV then sel else c.minU
            maxV := if v > c.maxV then v else c.maxV
            maxU := if v > c.maxV then sel else c.maxU
            sum := wrap 64 (c.sum + v) }
    else t) s.evr.ext
  { s with evr := { s.evr with hist := hist, ext := ext } }

/-- An enabled channel watches measure m of a selector. -/
def State.watched (s : State) (m sel : Nat) : Bool :=
  (List.range 16).any fun i =>
    (s.get (F.EV_HIST_MEASURE i) == m && (s.get (F.EV_HIST_SEL i) == 0xFFFF || s.get (F.EV_HIST_SEL i) == sel)) ||
    (s.get (F.EV_EXT_MEASURE i) == m && (s.get (F.EV_EXT_SEL i) == 0xFFFF || s.get (F.EV_EXT_SEL i) == sel))

/-- One sample of a measure of time: the model has no clock, so the value is free (R532). -/
def State.sampleTime (s : State) (m sel : Nat) : State :=
  if s.watched m sel then
    let r := s.draw
    r.2.sample m sel (r.1.toNat % 2 ^ 32 : Nat)
  else s

/-! ### Fault records, R63, R64 -/

/-- A fault to be recorded. -/
structure FaultRec where
  code : Nat
  level : Nat := 7
  write : Bool := false
  fetch : Bool := false
  agent : Nat
  unit : Nat
  ctx : Nat
  part : Nat
  va : Nat := 0
  pa : Nat := 0
  deriving DecidableEq, Repr

/-- A fault record joins the partition's fault log, or is counted in LOST; FVEC is signalled when a record is added
and when LOST first becomes non-zero. The matching event record comes first and gives EVSEQ. -/
def State.faultAs (s : State) (src cls : Nat) (f : FaultRec) (detail : List Nat := [f.va, f.pa]) : State :=
  let seq := s.evr.seq
  let s := s.event cls src f.code (some f.part) f.unit f.ctx detail
  let n := s.get (F.PT_FAULT_STAT_COUNT f.part)
  if n < 16 then
    let w0 := f.code + f.level * 2 ^ 8 + b2n f.write * 2 ^ 11 + b2n f.fetch * 2 ^ 12 + f.agent * 2 ^ 13
      + f.unit % 2 ^ 16 * 2 ^ 16 + f.ctx % 2 ^ 10 * 2 ^ 32 + f.part * 2 ^ 42
    let at' := fun i => A.PT_FLOG f.part (4 * n + i)
    let s := s.setRaw (at' 0) (BitVec.ofNat 64 w0)
    let s := s.setRaw (at' 1) (BitVec.ofNat 64 f.va)
    let s := s.setRaw (at' 2) (BitVec.ofNat 64 f.pa)
    let s := s.setRaw (at' 3) (BitVec.ofNat 64 seq)
    let s := s.set (F.PT_FAULT_STAT_COUNT f.part) (n + 1)
    s.interrupt (s.signalFn f.part) (s.get (F.PT_FAULT_VEC_FVEC f.part))
  else
    let lost := s.get (F.PT_FAULT_STAT_LOST f.part)
    let s := s.set (F.PT_FAULT_STAT_LOST f.part) (satAdd 16 lost 1)
    if lost = 0 then s.interrupt (s.signalFn f.part) (s.get (F.PT_FAULT_VEC_FVEC f.part)) else s

/-- The event SOURCE of a faulting agent. -/
def faultSource (agent : Nat) : Nat := if agent = 0 then 1 else if agent = 1 then 6 else if agent = 2 then 7 else 8

def State.fault (s : State) (cls : Nat) (f : FaultRec) (detail : List Nat := [f.va, f.pa]) : State :=
  s.faultAs (faultSource f.agent) cls f detail

/-! ### Lists -/

/-- Fold a state over a list. -/
def State.each {α : Type} (s : State) (l : List α) (f : State → α → State) : State := l.foldl f s

end Sys2Proof.Machine
end

