-- ==== Sys2Proof/Machine/Flash.lean ====
section
/-! DEFINITION. The check value (R509), the flash regions (R485, R486), the checks of firmware, owner records,
configuration slots and repair records (R487 to R492, R500, R501, R520 to R522). -/

namespace Sys2Proof.Machine

/-! ### CRC-32C, R509 -/

/-- One bit of the reflected division. -/
def crcBit (st : Nat) : Nat := if st % 2 = 1 then (st / 2) ^^^ 0x82F63B78 else st / 2

/-- One byte fed to the running register. -/
def crcByte (st : Nat) (b : Byte) : Nat :=
  crcBit (crcBit (crcBit (crcBit (crcBit (crcBit (crcBit (crcBit (st ^^^ b.toNat))))))))

/-- Bytes fed in ascending order. -/
def crcFeed (st : Nat) (l : List Byte) : Nat := l.foldl crcByte st

/-- The check value of a byte list. -/
def crc32c (l : List Byte) : Nat := crcFeed 0xFFFFFFFF l ^^^ 0xFFFFFFFF

/-! ### Flash regions, R485 -/

def offOwner : Nat := 0x0
def offIdent : Nat := 0x10000
def offFactory : Nat := 0x20000
def offCfg : Nat := 0x30000
def offRepair : Nat := 0x100000
def offFw : Nat := 0x200000
/-- The bytes of a firmware slot, R485, R494. -/
def fwSlotSize : Nat := 31457280

/-- Bytes of a flash device. -/
def State.flash (s : State) (dev off k : Nat) : List Byte :=
  let t := if dev = 0 then s.boot.flash0 else s.boot.flash1
  (List.range k).map fun i => tabGet 0xFF t (off + i)

/-- A flash device is present in this boot (R481). -/
def State.flashThere (s : State) (dev : Nat) : Bool := if dev = 0 then s.boot.dev0 else s.boot.dev1

/-- The table with the bytes of a region erased. -/
def eraseTab (t : Tab Byte) (off k : Nat) : Tab Byte := t.filter fun e => decide (e.1 < off ∨ off + k ≤ e.1)

/-- The table with bytes programmed from an offset. -/
def progTab (t : Tab Byte) (off : Nat) : List Byte → Tab Byte
  | [] => t
  | b :: bs => progTab (tabSet 0xFF t off b) (off + 1) bs

/-- A region erased; nothing reaches a device that is absent in this boot (R481). -/
def State.flashErase (s : State) (dev off k : Nat) : State :=
  if !s.flashThere dev then s
  else if dev = 0 then { s with boot := { s.boot with flash0 := eraseTab s.boot.flash0 off k } }
  else { s with boot := { s.boot with flash1 := eraseTab s.boot.flash1 off k } }

/-- Bytes programmed. -/
def State.flashProg (s : State) (dev off : Nat) (l : List Byte) : State :=
  if !s.flashThere dev then s
  else if dev = 0 then { s with boot := { s.boot with flash0 := progTab s.boot.flash0 off l } }
  else { s with boot := { s.boot with flash1 := progTab s.boot.flash1 off l } }

/-- A region written whole as R486 orders it: erased, then everything but the header, then the header. -/
def State.flashWrite (s : State) (dev off size : Nat) (l : List Byte) : State :=
  (s.flashErase dev off size).flashProg dev off l

/-- The MAGIC word of a region. -/
def State.flashMagic (s : State) (dev off : Nat) : Nat := ofBytes (s.flash dev off 4)

/-- SEQ of a region, at byte 8 of every header. -/
def State.flashSeq (s : State) (dev off : Nat) : Nat := ofBytes (s.flash dev (off + 8) 4)

/-- A copy of the identity record is a candidate: its device is present and its MAGIC right. -/
def State.identThere (s : State) (dev : Nat) : Bool := s.flashThere dev && s.flashMagic dev offIdent == Config.identMagic.toNat

/-- The device whose copy of the identity record is used: the candidate with the higher SEQ (R486). -/
def State.identDev (s : State) : Option Nat :=
  if s.identThere 0 && s.identThere 1 then some (if s.flashSeq 0 offIdent ≥ s.flashSeq 1 offIdent then 0 else 1)
  else if s.identThere 0 then some 0 else if s.identThere 1 then some 1 else none

/-- A byte list with a 32-bit field replaced. -/
def patch32 (l : List Byte) (i n : Nat) : List Byte := l.take i ++ toBytes 4 n ++ l.drop (i + 4)

/-! ### Firmware, R487, R488 -/

def fwMagic : Nat := 0x46504B43

def allZero (l : List Byte) : Bool := l.all (· == 0)

def slice (l : List Byte) (i k : Nat) : List Byte := (l.drop i).take k

/-- D of R487: the digest of bytes 0–367 with SEQ taken as 0. -/
def fwDigest (img : List Byte) : List Byte := Config.sha384 (patch32 (slice img 0 368) 8 0)

/-- The owner record in force says owned. -/
def ownerOwned (o : List Byte) : Bool := bytesAt o 6 2 == 1
def ownerFloor (o : List Byte) : Nat := bytesAt o 12 2
def ownerSeq (o : List Byte) : Nat := bytesAt o 8 4
def ownerKey (o : List Byte) : List Byte := slice o 16 96

/-- The checks of R488 in order: 0 when the image passes, the reason of the first check that fails otherwise.
`rdOk` tells whether every flash read succeeded. -/
def fwCheck (img owner : List Byte) (rdOk : Bool) : Nat :=
  let bodyLen := bytesAt img 20 4
  if !rdOk then 8
  else if bytesAt img 0 4 ≠ fwMagic ∨ bytesAt img 4 2 ≠ 1 ∨ bytesAt img 6 2 ≠ 0 ∨ bytesAt img 18 2 ≠ 0 ∨
      bytesAt img 24 8 ≠ 0 ∨ !allZero (slice img 560 464) ∨ bodyLen % 16 ≠ 0 ∨ bodyLen < 16 ∨ bodyLen > 31456256 ∨
      img.length < 1024 + bodyLen then 1
  else if Config.sha384 (slice img 80 96) ≠ Config.romRootHash then 2
  else if !Config.ecdsaVerify (slice img 80 96) (slice img 272 96) (Config.sha384 (slice img 176 96)) then 3
  else if !Config.ecdsaVerify (slice img 176 96) (slice img 368 96) (fwDigest img) then 4
  else if Config.sha384 (slice img 1024 bodyLen) ≠ slice img 32 48 then 5
  else if ownerOwned owner && !Config.ecdsaVerify (ownerKey owner) (slice img 464 96) (fwDigest img) then 6
  else if bytesAt img 16 2 < ownerFloor owner then 7
  else 0

/-- Header and body of the firmware slot of a device (A on device 0, B on device 1). -/
def State.fwImage (s : State) (dev : Nat) : List Byte :=
  s.flash dev offFw (1024 + min (ofBytes (s.flash dev (offFw + 20) 4)) 31456256)

/-- A firmware slot's reason code for BT_STAT: 15 when empty. -/
def State.fwReason (s : State) (dev : Nat) (rdOk : Bool) : Nat :=
  if s.flashMagic dev offFw ≠ fwMagic then 15 else fwCheck (s.fwImage dev) s.boot.owner rdOk

/-! ### The owner record, R491 -/

/-- A copy is valid: its fields are as the table gives and, when owned, its SELFSIG verifies. -/
def ownerFields (o : List Byte) : Bool :=
  bytesAt o 0 4 == 0x4E574F43 && bytesAt o 4 2 == 1 && decide (bytesAt o 6 2 ≤ 1) && bytesAt o 14 2 == 0 &&
  allZero (slice o 208 48) && (ownerOwned o || (allZero (slice o 16 96) && allZero (slice o 112 96)))

def ownerSigned (o : List Byte) : Bool :=
  !ownerOwned o || Config.ecdsaVerify (ownerKey o) (slice o 112 96) (Config.sha384 (slice o 0 112))

def ownerValid (o : List Byte) : Bool := ownerFields o && ownerSigned o

/-- The owner record in force at step 4: the valid copy with the higher SEQ; unowned with floor 0 otherwise. -/
def State.ownerInForce (s : State) (dev0 dev1 : Bool) : List Byte :=
  let a := s.flash 0 offOwner 256
  let b := s.flash 1 offOwner 256
  let va := dev0 && ownerValid a
  let vb := dev1 && ownerValid b
  if va && vb then (if ownerSeq a ≥ ownerSeq b then a else b)
  else if va then a else if vb then b else List.replicate 256 0

/-! ### Configuration slots, R500, R501 -/

def cfgMagic : Nat := 0x47464343

/-- The bytes of a slot that its check covers. -/
def cfgLen (l : List Byte) : Nat := 64 + 16 * bytesAt l 6 2

/-- The check of R501. -/
def cfgCheck (l : List Byte) : Bool :=
  bytesAt l 0 4 == cfgMagic && bytesAt l 4 2 == 1 && decide (bytesAt l 6 2 ≤ 4092) && allZero (slice l 20 44) &&
  decide (cfgLen l ≤ l.length) && bytesAt l 16 4 == crc32c (patch32 (l.take (cfgLen l)) 16 0)

/-- A configuration slot of flash: dev and offset. -/
def State.cfgSlot (s : State) (dev off : Nat) : List Byte :=
  s.flash dev off (64 + 16 * min (ofBytes (s.flash dev (off + 6) 2)) 4092)

/-- The slot is a candidate: its MAGIC is right (R486). -/
def State.cfgThere (s : State) (dev off : Nat) : Bool := s.flashThere dev && s.flashMagic dev off == cfgMagic

/-- The current slot of R503: the candidate of A and B with the higher SEQ, as its device. -/
def State.cfgCurrent (s : State) : Option Nat :=
  let a := s.cfgThere 0 offCfg
  let b := s.cfgThere 1 offCfg
  if a && b then some (if s.flashSeq 0 offCfg ≥ s.flashSeq 1 offCfg then 0 else 1)
  else if a then some 0 else if b then some 1 else none

/-- What R503 applies: CFGSRC, CFGFALL, the slot's bytes (none for the built-in defaults). -/
def State.cfgChoice (s : State) : Nat × Bool × Option (List Byte) :=
  let factory := fun (fell : Bool) =>
    if s.cfgThere 0 offFactory && cfgCheck (s.cfgSlot 0 offFactory) then (2, fell, some (s.cfgSlot 0 offFactory))
    else if s.cfgThere 1 offFactory && cfgCheck (s.cfgSlot 1 offFactory) then
      (2, fell, some (s.cfgSlot 1 offFactory))
    else (3, true, none)
  match s.cfgCurrent with
  | some d => if cfgCheck (s.cfgSlot d offCfg) then (d, false, some (s.cfgSlot d offCfg)) else factory true
  | none => factory false

/-! ### The repair record, R520 to R522 -/

/-- Bytes of a repair record copy: header and entries. -/
def State.repairBytes (s : State) (dev : Nat) : List Byte :=
  s.flash dev offRepair (256 + 16 * min (ofBytes (s.flash dev (offRepair + 12) 4)) 65520)

/-- What the signatures of a record cover. -/
def repairDigest (l : List Byte) : List Byte := Config.sha384 (slice l 0 64 ++ l.drop 256)

/-- Entry i of a record: its key and its values. -/
def repairEntry (l : List Byte) (i : Nat) : Nat × RepEnt :=
  let e := slice l (256 + 16 * i) 16
  (bytesAt e 0 1 * 2 ^ 32 + bytesAt e 4 4, ⟨bytesAt e 1 1 % 16, bytesAt e 1 1 / 16, bytesAt e 8 4, bytesAt e 12 4⟩)

def repairEntries (l : List Byte) : Tab RepEnt := (List.range (bytesAt l 12 4)).map (repairEntry l)

/-- No reserved value in an entry. -/
def repairEntryOk (l : List Byte) (i : Nat) : Bool :=
  let e := slice l (256 + 16 * i) 16
  let k := bytesAt e 0 1
  decide (1 ≤ k ∧ k ≤ 12) && decide (bytesAt e 1 1 % 16 ≤ 3) && decide (bytesAt e 1 1 / 16 ≤ 4) && bytesAt e 2 2 == 0

/-- A copy is valid under R522 for the lead complex `lead` whose Repair public key is `key`. -/
def repairValid (l : List Byte) (lead : Nat) (key : List Byte) : Bool :=
  let n := bytesAt l 12 4
  bytesAt l 0 4 == 0x50524B43 && bytesAt l 4 2 == 1 && bytesAt l 6 2 == 0 && decide (n ≤ 65520) &&
  allZero (slice l 20 44) && (List.range n).all (repairEntryOk l) && tabSorted 0 (repairEntries l) &&
  Config.ecdsaVerify key (slice l (64 + 96 * lead) 96) (repairDigest l)

/-- One entry laid out, R521. -/
def repairBytesOf (e : Nat × RepEnt) : List Byte :=
  toBytes 1 (e.1 / 2 ^ 32) ++ toBytes 1 (e.2.state + 16 * e.2.reason) ++ [0, 0] ++ toBytes 4 (e.1 % 2 ^ 32) ++
  toBytes 4 e.2.logical ++ toBytes 4 e.2.count

/-- Entry counts above 65,520 leave out row entries (kind 4), highest PHYS first (R524). -/
def repairFit (t : Tab RepEnt) : Tab RepEnt :=
  let extra := t.length - 65520
  let rows := t.filter fun e => e.1 / 2 ^ 32 == 4
  let dropped := (rows.drop (rows.length - extra)).map Prod.fst
  t.filter fun e => !dropped.contains e.1

end Sys2Proof.Machine
end

