-- ==== Sys2Proof/Machine/Sparing.lean ====
section
/-! DEFINITION. Units and their slots: the running repair state, retirement, steering of spares, windows of wires
(R17 to R30, R482, R521). -/

namespace Sys2Proof.Machine

/-- The key of a unit in the running repair state. -/
def unitKey (kind num : Nat) : Nat := kind * 2 ^ 32 + num

/-- A change to the running repair state: the entry set, DIRTY shown (R523, R525). -/
def State.repSet (s : State) (kind phys : Nat) (e : RepEnt) : State :=
  { s with sp := { s.sp with rep := tabIns s.sp.rep (unitKey kind phys) e } }.set F.SP_REC_STAT_DIRTY 1

/-- The 16-byte entry as two words (R521). -/
def entryWords (kind phys : Nat) (e : RepEnt) : List Nat :=
  [kind + e.state * 2 ^ 8 + e.reason * 2 ^ 12 + phys % 2 ^ 32 * 2 ^ 32, e.logical % 2 ^ 32 + e.count % 2 ^ 32 * 2 ^ 32]

/-- A unit leaves service. -/
def State.retire (s : State) (kind phys reason count : Nat) : State :=
  let s := s.repSet kind phys ⟨0, reason, 0xFFFFFFFF, count⟩
  { s with sp := { s.sp with retired := setIns s.sp.retired (unitKey kind phys) } }

/-- A unit is retired. -/
def State.isRetired (s : State) (kind phys : Nat) : Bool := s.sp.retired.contains (unitKey kind phys)

/-! ### Slots, R28, R29. A slot table holds the physical number plus one, 0 for an absent slot. -/

def clDefault (l : Nat) : Nat := l / 16 * 18 + l % 16 / 8 * 9 + l % 8 + 1
def slDefault (l : Nat) : Nat := l / 128 * 136 + l % 128 / 16 * 17 + l % 16 + 1
def chDefault (l : Nat) : Nat := l / 128 * 132 + l % 128 + 1

/-- Physical cluster plus one in a logical slot; 0 when absent. -/
def State.clPhys (s : State) (l : Nat) : Nat := if l < 128 then tabGet (clDefault l) s.sp.clSlot l else 0
def State.slPhys (s : State) (l : Nat) : Nat := if l < 256 then tabGet (slDefault l) s.sp.slSlot l else 0
def State.chPhys (s : State) (l : Nat) : Nat := if l < 1536 then tabGet (chDefault l) s.sp.chSlot l else 0

/-- A logical cluster is in service. -/
def State.clThere (s : State) (l : Nat) : Bool := s.clPhys l != 0
def State.slThere (s : State) (l : Nat) : Bool := s.slPhys l != 0
def State.chThere (s : State) (l : Nat) : Bool := s.chPhys l != 0

def State.setClSlot (s : State) (l v : Nat) : State :=
  { s with sp := { s.sp with clSlot := tabSet (clDefault l) s.sp.clSlot l v } }
def State.setSlSlot (s : State) (l v : Nat) : State :=
  { s with sp := { s.sp with slSlot := tabSet (slDefault l) s.sp.slSlot l v } }
def State.setChSlot (s : State) (l v : Nat) : State :=
  { s with sp := { s.sp with chSlot := tabSet (chDefault l) s.sp.chSlot l v } }

/-- Physical units of a domain in service, ascending: neither retired nor a spare that has failed. -/
def State.goodUnits (s : State) (kind base n : Nat) : List Nat :=
  ((List.range n).map (base + ·)).filter fun u => !s.isRetired kind u &&
    (match tabFind s.sp.rep (unitKey kind u) with | some e => e.state != 2 | none => true)

/-- The slot the record gives to a spare in service (STATE 1). -/
def State.recordSlot (s : State) (kind phys : Nat) : Option Nat :=
  match tabFind s.sp.rep (unitKey kind phys) with
  | some e => if e.state = 1 then some e.logical else none
  | none => none

/-- The slots of a domain filled: units the record places keep their slot, the other good units fill the free slots in
ascending order, and the highest slots stay empty (R29, R482). Answers slot and physical number plus one. -/
def fillSlots (good : List Nat) (placed : Nat → Option Nat) (slots : List Nat) : List (Nat × Nat) :=
  let kept := good.filterMap fun u => (placed u).bind fun l => if slots.contains l then some (l, u + 1) else none
  let free := slots.filter fun l => !(kept.any fun e => e.1 == l)
  let rest := good.filter fun u => !(kept.any fun e => e.2 == u + 1)
  let filled := free.zip rest |>.map fun e => (e.1, e.2 + 1)
  let empty := (free.drop rest.length).map fun l => (l, 0)
  kept ++ filled ++ empty

/-- Spare rows in use of a physical channel (ROWS of R321). -/
def State.rowsUsed (s : State) (phys : Nat) : Nat :=
  (s.sp.rep.filter fun e => e.1 / 2 ^ 32 == 4 && e.2.state == 3 && e.1 % 2 ^ 32 / 2 ^ 19 == phys).length

/-- A channel slot takes a physical channel (number plus one); a slot without one stands as a failed channel without spare,
since the map of R299 needs it (R317). -/
def State.steerChannel (s : State) (ch v : Nat) : State :=
  let s := s.setChSlot ch v
  if v = 0 then { s with mc := { s.mc with failed := setIns s.mc.failed ch } }.set (F.MC_CH_STAT_STATE ch) 2
  else (s.set (F.MC_CH_STAT_PHYS ch) (v - 1)).set (F.MC_CH_STAT_ROWS ch) (s.rowsUsed (v - 1))

/-- Every domain's slots filled from the running repair state. -/
def State.steerAll (s : State) : State :=
  let cl := (List.range 16).flatMap fun d =>
    fillSlots (s.goodUnits 1 (d * 9) 9) (s.recordSlot 1) ((List.range 8).map (d * 8 + ·))
  let sl := (List.range 16).flatMap fun d =>
    fillSlots (s.goodUnits 2 (d * 17) 17) (s.recordSlot 2) ((List.range 16).map (d * 16 + ·))
  let ch := (List.range 12).flatMap fun d =>
    fillSlots (s.goodUnits 3 (d * 132) 132) (s.recordSlot 3) ((List.range 128).map (d * 128 + ·))
  ((s.each cl fun s e => s.setClSlot e.1 e.2).each sl fun s e => s.setSlSlot e.1 e.2).each ch
    fun s e => s.steerChannel e.1 e.2

/-- Free physical spares of a domain: good units that hold no slot and have not failed as a spare. -/
def State.freeSpares (s : State) (kind base n : Nat) (held : Nat → Bool) : List Nat :=
  (s.goodUnits kind base n).filter fun u => !held u

/-- The free spare clusters of the half that holds a logical cluster. -/
def State.spareClusters (s : State) (l : Nat) : List Nat :=
  let d := l / 8
  s.freeSpares 1 (d * 9) 9 fun u => (List.range 8).any fun i => s.clPhys (d * 8 + i) == u + 1
def State.spareSlices (s : State) (l : Nat) : List Nat :=
  let d := l / 16
  s.freeSpares 2 (d * 17) 17 fun u => (List.range 16).any fun i => s.slPhys (d * 16 + i) == u + 1
def State.spareChannels (s : State) (stack : Nat) : List Nat :=
  s.freeSpares 3 (stack * 132) 132 fun u => (List.range 128).any fun i => s.chPhys (stack * 128 + i) == u + 1

/-- A stack's count of free spare channels shown in MC_STACK (R321). -/
def State.showSpares (s : State) (m : Nat) : State := s.set (F.MC_STACK_SPARES m) (s.spareChannels m).length

/-- The bits of n units from number 64 × w that a test accepts. -/
def unitMask (f : Nat → Bool) (w n : Nat) : Nat :=
  (List.range n).foldl (fun m i => if f (64 * w + i) then m + 2 ^ i else m) 0

/-- The in-service clusters of a partition as one number, bit l for logical cluster l (R389). -/
def State.partClusters (s : State) (p : Nat) : Nat :=
  (s.get (F.PT_PART_CL_CLUSTERS p 0) &&& unitMask s.clThere 0 64) +
  (s.get (F.PT_PART_CL_CLUSTERS p 1) &&& unitMask s.clThere 1 64) * 2 ^ 64

/-- The bits of the slices of word w that are absent read as 0 and ignore writes (R268). -/
def State.presentSlices (s : State) (w n : Nat) : Nat :=
  (List.range 64).foldl (fun m i => if s.slThere (64 * w + i) && bit n i then m + 2 ^ i else m) 0

/-! ### Service events, R24, R227 -/

/-- SVC of every pipeline with a Sluice that a test picks counts one event. -/
def State.svcPipes (s : State) (f : Sluice → Bool) : State :=
  let slots := (List.range 64).filter fun n => s.sluices.any fun x => x.slot == n && f x
  s.each slots fun s n => s.count (F.SL_PIPE_STAT_SVC n) 1

/-! ### Windows and wires, R17, R23 to R27 -/

/-- The window of a wire's PHYS (R521). -/
def wireWindow (phys : Nat) : Nat := phys / 512
/-- The wire within its window: 0–255 signal, 256–263 spare. -/
def wireIdx (phys : Nat) : Nat := phys % 512

/-- Instances and windows of a bundle, both directions together (R20): seam, cluster port, service port, Quay bridge, Quay to
I/O die. -/
def bundleSize (bundle : Nat) : Nat × Nat := [(8, 16), (144, 14), (16, 2), (1, 64), (2, 12)].getD bundle (0, 0)

/-- The device has the window. -/
def winReal (win : Nat) : Bool :=
  let z := bundleSize (win / 2 ^ 19)
  decide (win / 64 % 2 ^ 13 < z.1) && decide (win % 64 < z.2)

/-- The device has the wire: 256 signal wires and 8 spares in each window. -/
def wireReal (phys : Nat) : Bool := winReal (wireWindow phys) && decide (wireIdx phys < 264)

/-- The window carries the bundle's second direction (R521). -/
def winBack (win : Nat) : Bool := decide ((bundleSize (win / 2 ^ 19)).2 / 2 ≤ win % 64)

/-- The spares of a window that no wire uses and that have not failed. -/
def State.freeWires (s : State) (win : Nat) : List Nat :=
  if !winReal win then [] else ((List.range 8).map (256 + ·)).filter fun x =>
    !s.sp.failed.contains (win * 512 + x) && !(s.sp.wires.any fun e => e.1 / 512 == win && e.2 == x) &&
    !(s.sp.repl.any fun r => r.kind == 0 && wireWindow r.unit == win && r.spare == x)

/-- The unit that a window serves: KIND and number (R27). -/
def windowUnit (win : Nat) : Nat × Nat :=
  let bundle := win / 2 ^ 19
  let inst := win / 64 % 2 ^ 13
  if bundle = 0 then (7, inst) else if bundle = 1 then (1, inst) else if bundle = 2 then (12, inst)
  else if bundle = 3 then (6, win % 32 / 8) else (100, win)

/-- A window retired with the unit it serves (R27): a service port takes its half's nine clusters with it. -/
def State.retireWindow (s : State) (win reason : Nat) : State :=
  let u := windowUnit win
  let s := if u.1 = 100 then { s with sp := { s.sp with retired := setIns s.sp.retired (unitKey 100 win) } }
    else s.retire u.1 u.2 reason 0
  let s := if u.1 = 12 then s.each (List.range 9) fun s i => s.retire 1 (u.2 * 9 + i) reason 0 else s
  s.event 5 14 3 none 0 0x3FF
    (if u.1 = 100 then entryWords 5 (win * 512) ⟨0, reason, 0xFFFFFFFF, 0⟩ else entryWords u.1 u.2 ⟨0, reason, 0xFFFFFFFF, 0⟩)

/-- A failed wire of the start-up test: the lowest free spare is steered, or the window retires; answers the state and
whether a spare was steered. -/
def State.steerWire (s : State) (phys reason : Nat) : State × Bool :=
  let win := wireWindow phys
  let t := ({ s with sp := { s.sp with failed := setIns s.sp.failed phys } } : State).repSet 5 phys ⟨0, reason, 0xFFFFFFFF, 0⟩
  match s.freeWires win with
  | x :: _ => ({ t with sp := { t.sp with wires := tabIns t.sp.wires phys x } }, true)
  | [] => (t, false)

/-- The entry of a spare wire in service names the wire that it replaces (R521). -/
def spareWireEnt (reason wire : Nat) : RepEnt := ⟨1, reason, wire, 0⟩

/-- A failed signal wire that no spare serves takes the lowest free spare of its window, or the window retires. -/
def State.resteer (s : State) (w : Nat) : State :=
  if (tabFind s.sp.wires w).isSome then s
  else
    let u := windowUnit (wireWindow w)
    match s.freeWires (wireWindow w) with
    | x :: _ => { s with sp := { s.sp with wires := tabIns s.sp.wires w x } }
    | [] => if s.isRetired u.1 u.2 then s else s.retireWindow (wireWindow w) 0

/-- The spares steered at step 7 from the record's entries and the failures of step 6: a spare that the record names and
that passed keeps its wire, the lowest free spares take the rest, and the repair state names every spare in service
(R479, R482). -/
def State.steerWires (s : State) (t : Tab RepEnt) : State :=
  let w := (t.filter fun e => e.1 / 2 ^ 32 == 5).map fun e => (e.1 % 2 ^ 32, e.2)
  let bad := ((w.filter fun e => e.2.state != 1).map Prod.fst).foldl setIns s.sp.failed
  let kept := w.filterMap fun e =>
    if e.2.state = 1 ∧ 256 ≤ wireIdx e.1 ∧ wireIdx e.2.logical < 256 ∧ wireWindow e.2.logical = wireWindow e.1 ∧ e.1 ∉ bad then
      some (e.2.logical, wireIdx e.1) else none
  let s : State := { s with sp := { s.sp with failed := bad, wires := kept.foldl (fun a e => tabIns a e.1 e.2) [] } }
  let s := s.each (bad.filter (wireIdx · < 256)) State.resteer
  s.each s.sp.wires fun s e =>
    let x := wireWindow e.1 * 512 + e.2
    match tabFind s.sp.rep (unitKey 5 x) with
    | some r => if r.state = 1 ∧ r.logical = e.1 then s else s.repSet 5 x (spareWireEnt 0 e.1)
    | none => s.repSet 5 x (spareWireEnt 0 e.1)

/-- Logical clusters of the half that holds a physical cluster lose the slot a retired cluster held, when no spare
takes it (R518). -/
def State.dropCluster (s : State) (l : Nat) : State := s.setClSlot l 0

/-- Modules of the UCIe link in service (R33). -/
def State.modules (s : State) : Nat := ((List.range 8).filter fun m => !s.isRetired 8 m).length

/-! ### Ports and lanes of the fabric, R28, R417, R482 -/

def Port.idle : Port :=
  { fseq := 0, replay := [], exp := 0, asked := 0, cred := [0, 0, 0, 0], gotInit := false, rx := [], inbox := [],
    txq := [], charge := [], turn := 15, bad := [] }

def State.port (s : State) (j : Nat) : Port := tabGet Port.idle s.fab.ports j
def State.setPort (s : State) (j : Nat) (p : Port) : State :=
  { s with fab := { s.fab with ports := tabSet Port.idle s.fab.ports j p } }

/-- The logical number and the physical lane of lane i of a port. -/
def laneLogical (j i : Nat) : Nat := 72 * (j / 18) + 4 * (j % 18) + i
def State.lanePhys (s : State) (j i : Nat) : Nat :=
  tabGet (74 * (j / 18) + 4 * (j % 18) + i + 1) s.sp.laneSlot (laneLogical j i) - 1

/-- What the repair state says of a spare lane, index k of GF_SPARE: in service in its slot, or failed. -/
def State.steerSpareLane (s : State) (k : Nat) : State :=
  let phys := 74 * (k / 2) + 72 + k % 2
  match tabFind s.sp.rep (unitKey 9 phys) with
  | none => s
  | some e =>
    let l := e.logical
    if e.state = 1 ∧ l / 72 = k / 2 ∧ !s.isRetired 9 phys then
      let s := ((s.set (F.GF_SPARE_USED k) 1).set (F.GF_SPARE_PORT k) (l % 72 / 4)).set
        (F.GF_PORT_STAT_SPARE (18 * (k / 2) + l % 72 / 4)) (k % 2 + 1)
      { s with sp := { s.sp with laneSlot := tabIns s.sp.laneSlot l (phys + 1) } }
    else s.set (F.GF_SPARE_FAILED k) 1

/-- Lanes that stay retired are failed lanes of their ports, unless a spare serves. -/
def State.steerLanes (s : State) : State :=
  (s.each (List.range 4) State.steerSpareLane).each (List.range 36) fun s j =>
    let bad := (List.range 4).filter fun i => s.isRetired 9 (s.lanePhys j i)
    if bad = [] then s else s.setPort j { s.port j with bad := bad }

end Sys2Proof.Machine
end

