-- ==== Sys2Proof/Machine/Boot.lean ====
section
/-! DEFINITION. Board inputs and their filter (R551 to R559), and the start-up steps 1 to 8 (R479 to R496). -/

namespace Sys2Proof.Machine

/-! ### The filtered inputs -/

def State.pinFilt (s : State) (p : Pin) : Bool := s.on (F.PW_PIN_STAT_FILT p.index)
def State.pinChatter (s : State) (p : Pin) : Bool := s.on (F.PW_PIN_STAT_CHATTER p.index)

/-- The samples of an input before any is taken: PWR_GOOD and PKG_RESET_N rest asserted in State.reset. -/
def pinRest (i : Nat) : List Bool := List.replicate 100 (decide (i < 2))

/-- The trailing 100 raw samples of an input, newest first (R555). -/
def State.pinSamples (s : State) (p : Pin) : List Bool := tabGet (pinRest p.index) s.boot.pinHist p.index

/-- Changes of the raw value in a list of samples. -/
def pinChanges : List Bool → Nat
  | a :: b :: l => b2n (a != b) + pinChanges (b :: l)
  | _ => 0

/-- The majority has had this value on the last 4 samples; at each it is the value of two of the last three. -/
def pinSteady (l : List Bool) (v : Bool) : Bool :=
  (List.range 4).all fun i => decide (2 ≤ ((l.drop i).take 3).count v)

/-- Filtered value and chatter after the sample at the head of the list, from those before it: chatter starts above 8
changes and asserts the value, and ends at 2 or fewer; outside it the value follows 4 equal majorities (R555). -/
def pinNext (l : List Bool) (filt chat : Bool) : Bool × Bool :=
  let c := if chat then decide (2 < pinChanges l) else decide (8 < pinChanges l)
  (if chat || c then true else if pinSteady l true then true else if pinSteady l false then false else filt, c)

/-- PWR_GOOD permits operation: filtered asserted, no chatter in force, every supply in range (R552, R556). -/
def State.powerOk (s : State) : Bool :=
  s.pinFilt .pwrGood && !s.pinChatter .pwrGood && s.boot.supplyBad.isEmpty

/-- What counts for an input: PWR_GOOD itself always, the others while PWR_GOOD permits operation (R557). -/
def State.pinCounts (s : State) (p : Pin) : Bool := p == .pwrGood || s.powerOk

/-- A sample, the filtered value and the chatter of an input shown; ASSERTS and CHATSEEN latch what counts (R558). -/
def State.pinShow (s : State) (p : Pin) (l : List Bool) (r : Bool × Bool) : State :=
  let i := p.index
  let count := s.pinCounts p
  let s := { s with boot := { s.boot with pinHist := tabSet (pinRest i) s.boot.pinHist i l } }
  let s := if count && r.1 && !s.pinFilt p then s.count (F.PW_PIN_STAT_ASSERTS i) 1 else s
  let s := if count && r.2 && !s.pinChatter p then s.set (F.PW_PIN_STAT_CHATSEEN i) 1 else s
  (((s.set (F.PW_PIN_STAT_RAW i) (b2n (l.headD false))).set (F.PW_PIN_STAT_FILT i) (b2n r.1)).set
    (F.PW_PIN_STAT_CHATTER i) (b2n r.2)).set (F.PW_PIN_STAT_EDGES i) (pinChanges l)

/-- The device is held as at PKG_RESET_N (R554, R556). -/
def State.holdCond (s : State) : Bool := !s.powerOk || s.pinFilt .pkgReset || s.boot.clockBad

/-- A whole-device reset runs the start-up again from step 9, with the UCIe link kept (R386). -/
def State.inRerun (s : State) : Bool := s.boot.rerun && (s.boot.phase == .running 9 || s.boot.phase == .running 10 || s.boot.phase == .running 11)

/-- BAR accesses follow R37 to R39: READY is set or a whole-device reset runs, nothing stopped the package, a UCIe module
is in service (R34, R386, R480). -/
def State.barOk (s : State) : Bool :=
  (s.boot.phase == .ready || s.inRerun) && !s.boot.stopped && decide (s.modules > 0)

/-- The device runs: not held and not stopped by a trip (R462). -/
def State.running (s : State) : Bool := s.boot.phase != .held && !s.boot.stopped

/-- What a reset keeps of the pin registers: the filters' present values, not their latches and counts. -/
def State.keptPins (s : State) : Tab (BitVec 64) :=
  (List.range 5).foldl (fun t i =>
    let v := (s.raw (A.PW_PIN_STAT i)).toNat
    tabSet 0 t (A.PW_PIN_STAT i) (BitVec.ofNat 64 (v % 8 + bits v 15 8 * 256))) []

/-- Reset: every part of the device at its reset value; the command queue, the sent messages, the flash devices, the
inputs and PW_TRIP stay (R179, R462, R484). -/
def State.pkgReset (s : State) : State :=
  let trip := s.raw A.PW_TRIP
  let t : State :=
    { State.reset with
      pending := s.pending, out := s.out, free := s.free, regs := s.keptPins,
      boot := { Boot.reset with flash0 := s.boot.flash0, flash1 := s.boot.flash1, supplyBad := s.boot.supplyBad,
                                clockBad := s.boot.clockBad, pinHist := s.boot.pinHist },
      pow := { Power.reset with setMv := s.pow.setMv },
      tap := { Tap.reset with ir := s.tap.ir, boundary := s.tap.boundary } }
  let t := t.setRaw A.PW_TRIP trip
  if s.pow.trip then t.emit (.thermtrip false) else t

/-- The device is held as at PKG_RESET_N: reset unless it is held already. PW_TRIP and the rails' set voltages are lost
when power is (R462, R550, R556). -/
def State.goHeld (s : State) (power : Bool) : State :=
  if power then { s.pkgReset with pow := Power.reset }.setRaw A.PW_TRIP 0
  else if s.boot.phase = .held ∧ !s.boot.stopped then s else s.pkgReset

/-! ### Forced power states, R471 to R474 -/

/-- A compute die forced straight to a state and level, its pending step dropped; its halves apply the level at their next
limiter frame boundary (R471, R472). -/
def State.forceDie (s : State) (n ps lvl : Nat) : State :=
  let s := (s.set (F.PW_DIE_STAT_PSTATE n) ps).set (F.PW_DIE_STAT_LEVEL n) lvl
  { s with pow := { s.pow with step := tabSet 0 s.pow.step n 0, tgt := tabSet 64 s.pow.tgt n lvl } }

/-- Every compute die forced. -/
def State.forceAll (s : State) (ps lvl : Nat) : State := s.each (List.range 8) fun s n => s.forceDie n ps lvl

/-- Steps 2 to 4 of R462: A-clocks stopped, ports DOWN, stacks in self-refresh, requests answered by Completer Abort. The
work in flight is lost at once (R179, R462): nothing is left that could go on. -/
def State.stopPackage (s : State) : State :=
  let s := s.each (List.range 36) fun s j => s.set (F.GF_PORT_STAT_STATE j) 0
  let s := (s.setRaw A.TD_DBG_STAT 0).set F.TD_DBG_CTL_BUSY 0
  { s with
    cores := []
    sluices := []
    coh := .reset
    fe := .reset
    dbg := ⟨none, none, none⟩
    fab := ⟨[], [], [], [], [], [], []⟩
    host := { s.host with tlb := [], walks := [], invs := [], reads := [], sync := [], syncTo := 0, flr := [] }
    boot := { s.boot with stopped := true, upd := none, selDone := [] } }

/-- COOLANT_FAULT_ASSERT's response, R472. -/
def State.coolantFault (s : State) : State :=
  if s.running && s.boot.phase != .running 1 then
    let s := (s.forceAll 3 1).set F.PW_STAT_COOLANT 1
    let s := s.event 6 11 7
    (s.set F.PW_TRIP_CAUSE 3).stopPackage
  else s

/-- A die's step put at a stage. -/
def State.stepTo (s : State) (n k : Nat) : State := { s with pow := { s.pow with step := tabSet 0 s.pow.step n k } }

/-- A raise that would pass the slowest state permitted is dropped, and a die faster than that is stepped down one state at
a time (R455). -/
def State.stepFor (s : State) (n cap : Nat) : State :=
  let ps := s.get (F.PW_DIE_STAT_PSTATE n)
  let st := tabGet 0 s.pow.step n
  let st := if (st = 1 ∨ st = 2) ∧ ps ≤ cap then 0 else st
  s.stepTo n (if st = 0 ∧ ps < cap then 3 else st)

/-- VR_ALERT_ASSERT's response, R473: level 1 at the next frame boundary, and the dies go to ÷8. -/
def State.vrAlert (s : State) : State :=
  if s.running then
    let s := s.each (List.range 8) fun s n =>
      let s := (s.set (F.PW_DIE_STAT_LEVEL n) 1).stepFor n 3
      { s with pow := { s.pow with tgt := tabSet 64 s.pow.tgt n 1 } }
    let s := s.set F.PW_STAT_VRALERT 1
    { s with pow := { s.pow with vrHold := false } }.event 6 11 8
  else s

/-- The test hold: PWR_GOOD asserted and PKG_RESET_N held. -/
def State.testHold (s : State) : Bool := s.powerOk && s.pinFilt .pkgReset

/-- Leaving the test hold releases the lands and stops its instruments (R538, R541). -/
def State.leaveHold (s : State) : State := { s with tap := { s.tap with drive := false, instr := [] } }
def State.endHold (s t : State) : State := if s.testHold && !t.testHold then t.leaveHold else t

/-- Start-up begins when nothing holds the device; an asserted VR_ALERT_N acts from the start (R557), and step 1 does not
pass while COOLANT_FAULT_N is asserted (R479, R556). -/
def State.startBoot (s : State) : State :=
  if s.boot.phase = .held ∧ !s.holdCond then
    let s : State := { s with boot := { s.boot with phase := .running 1 } }
    if s.pinFilt .vrAlert then s.vrAlert else s
  else s

/-! ### The filter, sample by sample, R555 to R557 -/

/-- The test access port reset: IDCODE, only QB0 selected (R539, R556). -/
def State.tapReset (s : State) : State :=
  { s with tap := { Tap.reset with boundary := s.tap.boundary } }

/-- What a filtered assertion does, input by input (R556). -/
def State.pinRise (s : State) : Pin → State
  | .pwrGood => s
  | .pkgReset => s.pkgReset
  | .coolant => s.coolantFault
  | .vrAlert => s.vrAlert
  | .trst => s.tapReset

/-- What a filtered deassertion does: PKG_RESET_N lets start-up begin; VR_ALERT_N starts the hold of R473, unless it is
latched as stuck. -/
def State.pinFall (s : State) : Pin → State
  | .pkgReset => s.startBoot
  | .vrAlert => if s.on F.PW_STAT_VRALERT && !s.on F.PW_STAT_VRSTUCK then { s with pow := { s.pow with vrHold := true } } else s
  | _ => s

/-- What an input's change of filtered value, or of chatter, does. PWR_GOOD is lost by its deassertion and by chatter, and
the others act while it permits operation (R556, R557). -/
def State.pinEffect (s t : State) (p : Pin) : State :=
  if p = .pwrGood then
    if s.pinFilt p && !s.pinChatter p then if t.pinFilt p && !t.pinChatter p then t else t.goHeld true else t.startBoot
  else if !t.powerOk then t
  else if t.pinFilt p && !s.pinFilt p then t.pinRise p
  else if s.pinFilt p && !t.pinFilt p then t.pinFall p
  else t

/-- One raw sample of an input through its filter: where the device is running the start of chatter is recorded, and the
effects follow. -/
def State.pinSample (p : Pin) (s : State) (raw : Bool) : State :=
  let l := (raw :: s.pinSamples p).take 100
  let r := pinNext l (s.pinFilt p) (s.pinChatter p)
  let t := s.pinShow p l r
  let t := if r.2 && !s.pinChatter p && s.running && s.pinCounts p then t.event 7 11 0x10 none 0 0x3FF [p.index] else t
  s.endHold (s.pinEffect t p)

/-- The raw samples that a row brings, oldest first, up to its event. -/
def State.pinRun (s : State) (p : Pin) (samples : List Bool) : State := samples.foldl (State.pinSample p) s

/-! ### Power and reset commands -/

/-- END_OF_RESET, R479: the filtered PKG_RESET_N deasserts. -/
def execEndOfReset (samples : List Bool) (s : State) : Out := .next (s.pinRun .pkgReset samples)

/-- PWR_GOOD_ASSERT, R556. -/
def execPwrGoodAssert (samples : List Bool) (s : State) : Out := .next (s.pinRun .pwrGood samples)

/-- PWR_GOOD_DEASSERT, R556: held as at PKG_RESET_N, PW_TRIP cleared. -/
def execPwrGoodDeassert (samples : List Bool) (s : State) : Out := .next (s.pinRun .pwrGood samples)

/-- PKG_RESET_ASSERT, R484. -/
def execPkgResetAssert (samples : List Bool) (s : State) : Out := .next (s.pinRun .pkgReset samples)

/-- A rail's set or nominal voltage in millivolts (R463, R550): a core rail stands at 0.75 V until AVSBus sets it. -/
def State.railMv (s : State) (r : Nat) : Nat :=
  if r < 8 then tabGet 750 s.pow.setMv r else if r < 10 then 750 else if r < 12 then 1100
  else if r < 14 then 850 else Config.hostRailMv

/-- The set or nominal values of a supply that its monitor uses, low and high: rails 0 to 14, VDD_AUX (15), VDD_PLL (16);
while a core rail changes, the old value and the new one (R552). -/
def State.supplyMv (s : State) (k : Nat) : Nat × Nat :=
  if k = 15 then (1800, 1800) else if k = 16 then (900, 900)
  else
    let v := s.railMv k
    let w := tabGet 0 s.pow.newMv k
    if w = 0 then (v, v) else (min v w, max v w)

/-- A supply at `mv` lies below 90% or above 110% of its value. -/
def State.supplyOut (s : State) (k mv : Nat) : Bool :=
  decide (mv * 10 < (s.supplyMv k).1 * 9) || decide ((s.supplyMv k).2 * 11 < mv * 10)

/-- SUPPLY_OUT_OF_RANGE, R552: seen while PWR_GOOD is asserted. -/
def execSupplyOutOfRange (supply mv : Nat) (s : State) : Out :=
  .next <| if supply < 17 ∧ s.pinFilt .pwrGood ∧ s.supplyOut supply mv then
    s.endHold ({ s with boot := { s.boot with supplyBad := setIns s.boot.supplyBad supply } }.goHeld true) else s

/-- SUPPLY_RETURN, R552. -/
def execSupplyReturn (supply : Nat) (s : State) : Out :=
  .next ({ s with boot := { s.boot with supplyBad := setDel s.boot.supplyBad supply } }.startBoot)

/-- REFCLK_LOSS, R554. -/
def execRefclkLoss (s : State) : Out :=
  .next ({ s with boot := { s.boot with clockBad := true } }.goHeld false)

/-- REFCLK_RECOVERED, R554. -/
def execRefclkRecovered (s : State) : Out :=
  .next ({ s with boot := { s.boot with clockBad := false } }.startBoot)

/-! ### The other inputs -/

/-- COOLANT_FAULT_ASSERT, R472. -/
def execCoolantFaultAssert (samples : List Bool) (s : State) : Out := .next (s.pinRun .coolant samples)

/-- COOLANT_FAULT_DEASSERT, R557. -/
def execCoolantFaultDeassert (samples : List Bool) (s : State) : Out := .next (s.pinRun .coolant samples)

/-- VR_ALERT_ASSERT, R473. -/
def execVrAlertAssert (samples : List Bool) (s : State) : Out := .next (s.pinRun .vrAlert samples)

/-- VR_ALERT_DEASSERT, R473. -/
def execVrAlertDeassert (samples : List Bool) (s : State) : Out := .next (s.pinRun .vrAlert samples)

/-- VR_ALERT_HOLD_END, R473. -/
def execVrAlertHoldEnd (s : State) : Out :=
  .next <| if s.pow.vrHold then { s with pow := { s.pow with vrHold := false } }.set F.PW_STAT_VRALERT 0 else s

/-- TAP_RESET, R556; samples that deassert TRST_N end the reset. -/
def execTapReset (samples : List Bool) (s : State) : Out := .next (s.pinRun .trst samples)

/-- INPUT_CHATTER_START, R555: more than 8 raw changes in the trailing 100 samples. -/
def execInputChatterStart (pin : Pin) (samples : List Bool) (s : State) : Out := .next (s.pinRun pin samples)

/-- INPUT_CHATTER_END, R555: at most 2 raw changes; the filtered value then follows the rule for a change. -/
def execInputChatterEnd (pin : Pin) (samples : List Bool) (s : State) : Out := .next (s.pinRun pin samples)

/-- INPUT_STUCK, R555: only COOLANT_FAULT_N and VR_ALERT_N have a bound (R556); ignored without PWR_GOOD (R557). -/
def execInputStuck (pin : Pin) (s : State) : Out :=
  .next <| if s.powerOk && s.pinFilt pin && (pin == .coolant || pin == .vrAlert) && !s.on (F.PW_PIN_STAT_STUCK pin.index) then
    let s := s.set (F.PW_PIN_STAT_STUCK pin.index) 1
    let s := if pin = .vrAlert then s.set F.PW_STAT_VRSTUCK 1 else s
    if s.running then s.event 7 11 0x11 none 0 0x3FF [pin.index] else s
  else s

/-! ### Start-up steps, R479 -/

def State.phaseTo (s : State) (p : Phase) : State := { s with boot := { s.boot with phase := p } }

/-- The step of R479 that runs now. -/
def State.atStep (s : State) (n : Nat) : Bool := s.boot.phase == .running n && !s.boot.stopped

/-- PLL_LOCKED, step 1: an asserted COOLANT_FAULT_N does not let the boot pass (R556). -/
def execPllLocked (ok : Bool) (s : State) : Out :=
  .next <| if s.atStep 1 && !s.pinFilt .coolant then
    (if ok then s.phaseTo (.running 2) else s.phaseTo (.unready 1 1)) else s

/-- ROM_SELF_TEST_DONE, step 2: the results of QB0's and QB1's complex. -/
def execRomSelfTestDone (ok0 ok1 : Bool) (s : State) : Out :=
  .next <| if s.atStep 2 then
    let s := { s with boot := { s.boot with rom0 := ok0, rom1 := ok1 } }
    if ok0 || ok1 then s.phaseTo (.running 3) else s.phaseTo (.unready 2 1)
  else s

/-- LEAD_DECISION, step 3, R483: QB0 leads when it passes within the bound, otherwise QB1. -/
def execLeadDecision (inTime : Bool) (s : State) : Out :=
  .next <| if s.atStep 3 then
    if s.boot.rom0 && inTime then (s.set F.BT_STAT_LEAD 0).phaseTo (.running 4)
    else if s.boot.rom1 then (s.set F.BT_STAT_LEAD 1).phaseTo (.running 4)
    else s.phaseTo (.unready 3 1)
  else s

def State.lead (s : State) : Nat := s.get F.BT_STAT_LEAD

/-- The known-good-die table copied into TD_KGD (R542). -/
def State.copyKgd (s : State) : State :=
  match s.identDev with
  | some dev => s.each (List.range 25) fun s d =>
      s.setRaw (A.TD_KGD d) (BitVec.ofNat 64 (ofBytes (s.flash dev (offIdent + 0x8000 + 8 * d) 8) % 2 ^ 58))
  | none => s

/-- FIRMWARE_VERIFIED, step 4, R481, R485 to R496: owner record, firmware slots by SEQ, identity. A device with a failed
read is absent from then on. -/
def execFirmwareVerified (dev0 dev1 readA readB : Bool) (seed : Option (List Byte)) (s : State) : Out :=
  .next <| if s.atStep 4 then
    let owner := s.ownerInForce dev0 dev1
    let s := { s with boot := { s.boot with dev0 := dev0, dev1 := dev1, owner := owner, seed := seed } }
    let s := (s.set F.BT_STAT_OWNED (b2n (ownerOwned owner))).set F.BT_STAT_IDFAIL (b2n seed.isNone)
    let rA := if dev0 then s.fwReason 0 readA else 15
    let rB := if dev1 then s.fwReason 1 readB else 15
    let s := { s with boot := { s.boot with dev0 := dev0 && readA, dev1 := dev1 && readB } }
    let s := (s.set F.BT_FW_SVNFLOOR (ownerFloor owner)).copyKgd
    let aFirst := rB = 15 ∨ (rA ≠ 15 ∧ s.flashSeq 0 offFw ≥ s.flashSeq 1 offFw)
    let take := fun (s : State) (d : Nat) =>
      let img := s.fwImage d
      let s := { s with boot := { s.boot with bodyHash := slice img 32 48 } }
      let s := (s.set F.BT_FW_VERSION (bytesAt img 12 4)).set F.BT_FW_SVN (bytesAt img 16 2)
      (s.set F.BT_STAT_FWSLOT d).phaseTo (.running 5)
    let failed := fun (s : State) (a b : Nat) => (s.set F.BT_STAT_FAILA a).set F.BT_STAT_FAILB b
    if aFirst then
      if rA = 0 then take (failed s 0 (if rB = 15 then 15 else 0)) 0
      else if rB = 0 then take (failed s rA 0) 1 else (failed s rA rB).phaseTo (.recovery (if rA = 15 then rB else rA))
    else
      if rB = 0 then take (failed s (if rA = 15 then 15 else 0) 0) 1
      else if rA = 0 then take (failed s 0 rB) 0 else (failed s rA rB).phaseTo (.recovery rB)
  else s

/-- A UCIe module retired (R33); the last one leaves the device without a link (R34). -/
def State.retireModule (s : State) (m reason : Nat) : State :=
  if s.isRetired 8 m || m ≥ 8 then s
  else
    let s := (s.retire 8 m reason 0).event 5 15 1 none m 0x3FF [m]
    if s.modules = 0 then s.event 5 15 2 else s

/-- UCIE_TRAINED, step 5: `mods` are the modules that cannot be repaired. -/
def execUcieTrained (mods : List Nat) (s : State) : Out :=
  .next <| if s.atStep 5 then (s.each mods fun s m => s.retireModule m 0).phaseTo (.running 6) else s

/-- Steer the failed signal wires of step 6 and retire the windows that run out of spares. Answers the wires steered
and the windows without spares. -/
def State.steerFailed (s : State) : List Nat → State × Nat × List Nat
  | [] => (s, 0, [])
  | w :: ws =>
    let (s, n, r) := s.steerFailed ws
    if wireIdx w ≥ 256 then (s, n, r)
    else
      let (s, ok) := s.steerWire w 0
      if ok then (s, n + 1, r)
      else
        let u := windowUnit (wireWindow w)
        (if s.isRetired u.1 u.2 then s else s.retireWindow (wireWindow w) 0, n, setIns r (wireWindow w))

/-- INTERCONNECT_TEST_DONE, step 6: `failed` are the wires that failed, by PHYS, spares included. -/
def execInterconnectTestDone (failed : List Nat) (stitchOk : Bool) (s : State) : Out :=
  .next <| if s.atStep 6 then
    let failed := failed.filter wireReal
    let spares := failed.filter (wireIdx · ≥ 256)
    let s := { s with sp := { s.sp with failed := spares.foldl setIns s.sp.failed } }.each spares fun s w =>
      s.repSet 5 w ⟨0, 0, 0xFFFFFFFF, 0⟩
    let (s, n, r) := s.steerFailed failed.reverse
    let s := ((s.set F.TD_ICT_FAILED failed.length).set F.TD_ICT_STEERED n).set F.TD_ICT_NOSPARE r.length
    if !stitchOk then s.phaseTo (.unready 6 1) else s.phaseTo (.running 7)
  else s

/-- The lead's Repair public key (R496). -/
def State.repairKey (s : State) : Option (List Byte) :=
  s.boot.seed.map fun x => Config.publicKey (Config.deriveKey x [0x52, 0x45, 0x50, 0x41, 0x49, 0x52] [])

/-- The copy of the repair record that is used: the valid one with the higher SEQ (R522). -/
def State.repairChoice (s : State) (read0 read1 : Bool) : Option Nat :=
  let ok := fun (d : Nat) (rd : Bool) => match s.repairKey with
    | some k => rd && s.flashThere d && repairValid (s.repairBytes d) s.lead k
    | none => false
  if ok 0 read0 && ok 1 read1 then some (if s.flashSeq 0 offRepair ≥ s.flashSeq 1 offRepair then 0 else 1)
  else if ok 0 read0 then some 0 else if ok 1 read1 then some 1 else none

/-- The record of a device's copy is taken: what it retires stays retired, and what step 6 has found stands (R27, R482). -/
def State.takeRecord (s : State) (d : Nat) : State :=
  let l := s.repairBytes d
  let t := repairEntries l
  let retired := (t.filter fun e => decide (e.2.state = 0) && e.1 / 2 ^ 32 != 5).map Prod.fst
  let s := { s with sp := { s.sp with rep := t.foldl (fun a (e : Nat × RepEnt) => if (tabFind a e.1).isSome then a else tabIns a e.1 e.2) s.sp.rep, inForce := t
                                      updates := bytesAt l 16 4, retired := retired.foldl setIns s.sp.retired } }
  (s.set F.SP_REC_STAT_SEQ (bytesAt l 8 4)).set F.SP_REC_STAT_NENT (bytesAt l 12 4)

/-- REPAIR_RECORD_READ, step 7: the record or RECFAIL, then the spare wires steered. -/
def execRepairRecordRead (read0 read1 : Bool) (s : State) : Out :=
  .next <| if s.atStep 7 then
    let s := match s.repairChoice read0 read1 with
      | some d => { s.takeRecord d with boot := { s.boot with repairUse := s.repairBytes d } }
      | none => s.set F.BT_STAT_RECFAIL 1
    let s := s.steerWires s.sp.inForce
    (s.set F.SP_REC_STAT_DIRTY (b2n (decide (s.sp.rep ≠ s.sp.inForce)))).phaseTo (.running 8)
  else s

/-- SELF_TEST_DONE, step 8: units that fail, by KIND and physical number, and the dies left without a service path (R539); a control complex or a Quay bridge with no
link in service stops the boot (R481). -/
def execSelfTestDone (failed : List (Nat × Nat)) (noPath : List Nat) (complexOk : Bool) (s : State) : Out :=
  .next <| if s.atStep 8 then
    let s := { s with boot := { s.boot with noPath := noPath.foldl setIns s.boot.noPath } }
    let s := s.each failed fun s u => if s.isRetired u.1 u.2 then s else s.retire u.1 u.2 0 0
    let s := s.each (List.range 16) fun s h =>
      if s.isRetired 12 h then s.each (List.range 9) fun s i =>
        if s.isRetired 1 (h * 9 + i) then s else s.retire 1 (h * 9 + i) 0 0
      else s
    let s := (s.steerAll.each (List.range 12) State.showSpares).steerLanes
    let s := s.each (List.range 24) fun s m => (List.range 8).foldl (fun s i =>
      if s.isRetired 10 (m * 8 + i) then s.set (F.PU_UNIT_STAT_STATE (m * 8 + i)) 2 else s) s
    let s := s.each (List.range 32) fun s l =>
      if s.isRetired 11 l then s.set (F.PU_UNIT_STAT_STATE (192 + l)) 2 else s
    if !complexOk || (List.range 4).all (s.isRetired 6) then s.phaseTo (.unready 8 1) else s.phaseTo (.running 9)
  else s

end Sys2Proof.Machine
end

