-- ==== Sys2Proof/Machine/Dram.lean ====
section
/-! DEFINITION. Channels, banks and rows of local memory, failed channels, and evacuation (R298 to R319). -/

namespace Sys2Proof.Machine

/-! ### The controller map, R299, R300 -/

/-- The logical channel of a local-memory address. -/
def chanOf (a : Nat) : Nat :=
  let g := a / 0xC0000000
  let j := a % 0xC0000000 / 128
  let r := j / 1536
  let h := (g * 16384 + r) * 0x9E3779B9 % 2 ^ 32 * 1536 / 2 ^ 32
  (j + h) % 1536

/-- The address within the channel. -/
def chanAddr (a : Nat) : Nat := a / 0xC0000000 * 2 ^ 21 + a % 0xC0000000 / 128 / 1536 * 128 + a % 128

/-- The local-memory address of a byte of a channel: the inverse of the map. -/
def chanMem (ch c : Nat) : Nat :=
  let g := c / 2 ^ 21
  let r := c % 2 ^ 21 / 128
  let h := (g * 16384 + r) * 0x9E3779B9 % 2 ^ 32 * 1536 / 2 ^ 32
  g * 0xC0000000 + (r * 1536 + (ch + 1536 - h) % 1536) * 128 + c % 128

def chanBank (c : Nat) : Nat := bits c 14 10
def chanRow (c : Nat) : Nat := bits c 28 15

/-- The 1 KiB rows of a channel. -/
def chanRows : Nat := 2 ^ 19

/-! ### Evacuation and failure -/

/-- The evacuation of a channel that is copying. -/
def State.copyingCh (s : State) (ch : Nat) : Option Repl :=
  s.sp.repl.find? fun r => r.kind == 1 && r.unit == ch && r.stage == 3

def State.chFailed (s : State) (ch : Nat) : Bool := s.mc.failed.contains ch

/-- An address lies on a failed channel, at or above the watermark of its evacuation where one runs (R315). -/
def State.lostAt (s : State) (a : Nat) : Bool :=
  s.chFailed (chanOf a) &&
  (match s.copyingCh (chanOf a) with
   | some r => decide (r.mark * 1024 ≤ chanAddr a)
   | none => true)

/-- Writes to the address are discarded: the channel has failed without a spare (R317). -/
def State.dropsAt (s : State) (a : Nat) : Bool :=
  s.chFailed (chanOf a) && !(s.sp.repl.any fun r => r.kind == 1 && r.unit == chanOf a)

/-- A sector reads as poison whatever its cells say: the marker, or a failed channel's data that no later write replaced. -/
def State.sectorMarked (s : State) (sec : Nat) : Bool :=
  s.poison.contains sec || (s.lostAt (sec * 32) && !s.mc.kept.contains sec)

/-- Poison of a sector in memory: the marker, a failed channel's data, or a pattern that the check cannot correct. -/
def State.sectorPoison (s : State) (sec : Nat) : Bool := s.sectorMarked sec || s.mc.bad.contains sec

/-! ### Physical channels and rows, R300, R314, R315 -/

/-- The physical channel that serves an address: below the watermark of an evacuation the spare (R315). -/
def State.servePhys (s : State) (a : Nat) : Nat :=
  match s.copyingCh (chanOf a) with
  | some r => if chanAddr a < r.mark * 1024 then r.spare else s.chPhys (chanOf a) - 1
  | none => s.chPhys (chanOf a) - 1

/-- The row's PHYS (R521). -/
def rowPhys (phys bank row : Nat) : Nat := phys * 2 ^ 19 + bank * 2 ^ 14 + row

/-- The spare row that the remap table gives a row. -/
def State.rowSpare (s : State) (row : Nat) : Option Nat :=
  match tabFind s.sp.rep (unitKey 4 row) with
  | some e => if e.state = 3 then some e.logical else none
  | none => none

/-- The physical row that serves a row, as a unit of wear: its PHYS, or 2^32 + (channel × 32 + bank) × 64 + spare row. -/
def State.rowUnit (s : State) (row : Nat) : Nat :=
  match s.rowSpare row with
  | some k => 2 ^ 32 + row / 2 ^ 14 * 64 + k
  | none => row

/-- The row that a physical row serves. -/
def State.rowServed (s : State) (unit : Nat) : Option Nat :=
  if unit < 2 ^ 32 then some unit
  else
    (s.sp.rep.find? fun e => e.1 / 2 ^ 32 == 4 && e.2.state == 3 &&
      2 ^ 32 + e.1 % 2 ^ 32 / 2 ^ 14 * 64 + e.2.logical == unit).map fun e => e.1 % 2 ^ 32

/-- The row of an address, by PHYS. -/
def State.rowAt (s : State) (a : Nat) : Nat := rowPhys (s.servePhys a) (chanBank (chanAddr a)) (chanRow (chanAddr a))

/-- The row number that a bank opens for an address: a spare row stands above the 16,384 others. -/
def State.rowOpen (s : State) (a : Nat) : Nat :=
  match s.rowSpare (s.rowAt a) with
  | some k => 2 ^ 14 + k
  | none => chanRow (chanAddr a)

/-- The row of an address is being copied to a spare row: its requests are held (R314). -/
def State.rowHeld (s : State) (a : Nat) : Bool := s.sp.repl.any fun r => r.kind == 2 && r.unit == s.rowAt a

/-- The bank that serves an address: physical channel × 32 + bank. -/
def State.bankAt (s : State) (a : Nat) : Nat := s.servePhys a * 32 + chanBank (chanAddr a)

/-- The address's row is open. -/
def State.openRow (s : State) (a : Nat) : State :=
  { s with mc := { s.mc with opened := tabIns s.mc.opened (s.bankAt a) (s.rowOpen a) } }

/-- The channel has taken a command: its parity failures are no longer in a row (R311). -/
def State.parityOk (s : State) (ch : Nat) : State := { s with mc := { s.mc with parity := tabDel s.mc.parity ch } }

/-! ### Windows, R319, R461 -/

/-- CAP of a partition: 0 and values above 384 act as 384 (R321). -/
def State.capReg (s : State) (p : Nat) : Nat :=
  let c := s.get (F.MC_REG_CAP p)
  if c = 0 ∨ 384 < c then 384 else c

/-- The CAP in force in a channel's window. -/
def State.capOf (s : State) (ch p : Nat) : Nat := tabGet (s.capReg p) s.mc.caps (ch * 16 + p)

/-- The GUAR in force in a channel's window. -/
def State.guarOf (s : State) (ch p : Nat) : Nat := tabGet (s.get (F.MC_REG_GUAR p)) s.mc.guars (ch * 16 + p)

/-- Bursts charged to a partition in the channel's window, and to all of them; bursts that wait for the next windows. -/
def State.chargeOf (s : State) (ch p : Nat) : Nat := tabGet 0 s.mc.charge (ch * 16 + p)
def State.chargeAll (s : State) (ch : Nat) : Nat := (List.range 16).foldl (fun n p => n + s.chargeOf ch p) 0
def State.lateOf (s : State) (ch p : Nat) : Nat := tabGet 0 s.mc.late (ch * 16 + p)

/-- Bursts that a partition may still take in the channel's window: up to CAP, and on the channel of a hot stack up to 208 of
all partitions (R319, R461). -/
def State.roomOf (s : State) (ch p : Nat) : Nat :=
  let n := s.capOf ch p - s.chargeOf ch p
  if s.mc.hot.contains ch then min n (208 - s.chargeAll ch) else n

/-- n bursts of a partition: those that the window has room for are charged to it, the others wait. -/
def State.chargeAdd (s : State) (ch p n : Nat) : State :=
  let k := min n (s.roomOf ch p)
  { s with mc := { s.mc with
      charge := tabSet 0 s.mc.charge (ch * 16 + p) (s.chargeOf ch p + k)
      late := tabSet 0 s.mc.late (ch * 16 + p) (s.lateOf ch p + (n - k)) } }

/-- An access of n sectors opens the row and is charged to the partition that homes the line (R304, R319). -/
def State.chanAccess (s : State) (p a n : Nat) : State := ((s.openRow a).parityOk (chanOf a)).chargeAdd (chanOf a) p n

/-- A read of n sectors waits for the channel's next window: it would take its partition beyond CAP (R319), or the
channel of a hot stack beyond 208 bursts (R461). A read of more sectors than CAP takes whole windows. -/
def State.capped (s : State) (p a n : Nat) : Bool :=
  let ch := chanOf a
  let u := s.chargeOf ch p
  (decide (s.capOf ch p < u + n) && decide (u ≠ 0 ∨ n ≤ s.capOf ch p)) ||
  (s.mc.hot.contains ch && decide (208 < s.chargeAll ch + n))

/-! ### Entries of a channel, R305 -/

/-- Entries that a partition holds on a channel, with its posted accesses that wait for a window, those reserved for it, and
how many of its own are shared ones when it holds n. -/
def State.entsOf (s : State) (ch p : Nat) : Nat := tabGet 0 s.mc.entries (ch * 16 + p) + s.lateOf ch p
def State.entsKept (s : State) (ch p : Nat) : Nat := s.guarOf ch p * 48 / 208
def State.entsShared (s : State) (ch p n : Nat) : Nat := n - s.entsKept ch p

/-- n more sector requests of a partition find entries among its reserved ones and the free shared ones of the 64. -/
def State.entsFit (s : State) (ch p n : Nat) : Bool :=
  let kept := (List.range 16).foldl (fun m q => m + s.entsKept ch q) 0
  let used := (List.range 16).foldl (fun m q => m + s.entsShared ch q (s.entsOf ch q)) 0
  let more := s.entsShared ch p (s.entsOf ch p + n) - s.entsShared ch p (s.entsOf ch p)
  decide (more = 0 ∨ used + more ≤ 64 - kept)

/-- A request that needs shared entries waits behind an earlier one that does. -/
def State.entsTurn (s : State) (ch p n : Nat) (before : List (Nat × Nat)) : Bool :=
  decide (s.entsShared ch p (s.entsOf ch p + n) = s.entsShared ch p (s.entsOf ch p)) ||
  !(before.any fun e => chanOf (e.1 * 128) == ch)

def State.entsAdd (s : State) (ch p n : Nat) : State :=
  { s with mc := { s.mc with entries := tabSet 0 s.mc.entries (ch * 16 + p) (tabGet 0 s.mc.entries (ch * 16 + p) + n) } }
def State.entsSub (s : State) (ch p n : Nat) : State :=
  { s with mc := { s.mc with entries := tabSet 0 s.mc.entries (ch * 16 + p) (tabGet 0 s.mc.entries (ch * 16 + p) - n) } }

/-! ### Wear and sparing records, R514, R521, R528 -/

/-- The wear count of a unit. -/
def wearKey (kind unit : Nat) : Nat := kind * 2 ^ 40 + unit
def State.wearOf (s : State) (kind unit : Nat) : Nat := tabGet 0 s.sp.wear (wearKey kind unit)
/-- The counts of a channel's rows held to the 64 highest: beyond them the lowest goes, of equals the highest row (R515). -/
def wearTop (t : Tab Nat) (phys : Nat) : Tab Nat :=
  let mine := t.filter fun e => e.1 / 2 ^ 19 == 2 ^ 22 + phys
  if mine.length ≤ 64 then t
  else
    match mine.foldl (fun a e => match a with | none => some e | some b => if e.2 ≤ b.2 then some e else a) none with
    | some e => tabDel t e.1
    | none => t

/-- The wear count of a monitored unit advanced (R514). -/
def State.wear (s : State) (kind unit k : Nat) : State :=
  let t := tabSet 0 s.sp.wear (wearKey kind unit) (s.wearOf kind unit + k)
  { s with sp := { s.sp with wear := if kind = 2 then wearTop t (unit / 2 ^ 19) else t } }

/-- A codeword of a window could not be corrected: the wire that caused it counts 256, and the detection is recorded
(R18, R513, R514). -/
def State.badCodeword (s : State) (wire : Nat) : State := (s.wear 0 wire 256).event 2 14 0xFF none 0 0x3FF []

/-- Data that crosses a window of which a command names a wire: true where one of its codewords could not be corrected, which
is then counted and reported. -/
def State.linkMark (s : State) (link : Option Nat) : State × Bool :=
  match link.filter wireReal with
  | some w => (s.badCodeword w, true)
  | none => (s, false)

/-- A sparing record (R528) about an entry, for a partition or none. -/
def State.spareEventFor (s : State) (part : Option Nat) (code kind phys unit : Nat) (e : RepEnt) : State :=
  s.event (if code = 1 then 1 else 5) 13 code part unit 0x3FF (entryWords kind phys e)
def State.spareEvent (s : State) (code kind phys unit : Nat) (e : RepEnt) : State := s.spareEventFor none code kind phys unit e

/-- The check result of one sector: 0 good, 1 to 18 corrected on that pin (counted from 1), 19 uncorrectable. A stored
poison marker is no new error; a sector that could not be corrected fails its check until it is written (R311). -/
def State.sectorCheck (s : State) (sec err : Nat) : State :=
  let a := sec * 32
  let ch := chanOf a
  let u := s.servePhys a
  let row := s.rowUnit (s.rowAt a)
  if s.sectorMarked sec ∨ (err = 0 ∧ sec ∉ s.mc.bad) then s
  else if err ≤ 18 ∧ sec ∉ s.mc.bad then
    (((s.count (F.MC_CH_STAT_CORR ch) 1).wear 1 (u * 18 + err - 1) 1).wear 3 u 1).wear 2 row 1
  else
    let s := { s with mc := { s.mc with bad := setIns s.mc.bad sec } }
    ((s.wear 3 u 256).wear 2 row 256).event 2 5 1 none ch 0x3FF [ch, chanAddr a]

/-! ### Channel evacuation, R315 to R317 -/

def State.setRepl (s : State) (l : List Repl) : State := { s with sp := { s.sp with repl := l } }
def State.replFind (s : State) (kind unit : Nat) : Option Repl := s.sp.repl.find? fun r => r.kind == kind && r.unit == unit
def State.replSet (s : State) (r : Repl) : State :=
  s.setRepl (updFirst (fun x => x.kind == r.kind && x.unit == r.unit) (fun _ => r) s.sp.repl)
def State.replDel (s : State) (kind unit : Nat) : State :=
  s.setRepl (dropFirst (fun x => x.kind == kind && x.unit == unit) s.sp.repl)

/-- A replacement that SP_RETIRE asked for is over (R525). -/
def State.retireEnd (s : State) (kind unit st : Nat) : State :=
  if s.get F.SP_RETIRE_KIND = kind ∧ s.get F.SP_RETIRE_UNIT = unit ∧ s.get F.SP_RETIRE_STATUS = 1 then s.set F.SP_RETIRE_STATUS st
  else s
def State.retireDone (s : State) (kind unit : Nat) : State := s.retireEnd kind unit 0

/-- STATUS of MC_EVAC when the evacuation of the channel that it names ends (R321): 0 done, 2 no spare was left. -/
def State.evacStatus (s : State) (ch n : Nat) : State := if s.get F.MC_EVAC_CH = ch then s.set F.MC_EVAC_STATUS n else s

/-- Writes that a failed channel kept for its evacuation are discarded. -/
def State.keptDrop (s : State) (ch : Nat) : State :=
  { s with mc := { s.mc with kept := s.mc.kept.filter fun k => chanOf (k * 32) != ch } }

/-- No spare for a channel: a failed one stays in its slot as STATE 2 (R317), another stays in service. -/
def State.evacNone (s : State) (ch : Nat) : State :=
  let s := (((if s.chFailed ch then s.keptDrop ch else s).replDel 1 ch).set (F.MC_CH_STAT_STATE ch) (if s.chFailed ch then 2 else 0)).evacStatus ch 2
  if s.sp.repl.any fun r => r.kind == 1 && r.unit / 128 == ch / 128 then s else s.set (F.MC_STACK_EVAC (ch / 128)) 0

/-- The spare that an evacuation trains next, or none. -/
def State.evacTry (s : State) (ch reason : Nat) : State :=
  match s.spareChannels (ch / 128) with
  | [] => s.evacNone ch
  | x :: _ =>
    let s := s.replSet ⟨1, ch, x, 1, 0, reason⟩
    ((s.set (F.MC_CH_STAT_STATE ch) 1).set (F.MC_STACK_EVAC (ch / 128)) 1)

/-- An evacuation is wanted: it runs, or waits while its stack evacuates another channel; a second trigger has no
effect (R316, R516). -/
def State.evacWant (s : State) (ch reason : Nat) : State :=
  if (s.replFind 1 ch).isSome ∨ !s.chThere ch then s
  else
    let busy := s.sp.repl.any fun r => r.kind == 1 && r.unit / 128 == ch / 128
    let s := s.setRepl (s.sp.repl ++ [⟨1, ch, 0, 0, 0, reason⟩])
    if busy then s else s.evacTry ch reason

/-- The evacuations that wait in a stack are tried in turn, at most n, until one trains a spare. -/
def State.evacTurn (s : State) (stack : Nat) : Nat → State
  | 0 => s
  | n + 1 =>
    if s.sp.repl.any fun r => r.kind == 1 && r.unit / 128 == stack && r.stage != 0 then s
    else
      match s.sp.repl.find? fun r => r.kind == 1 && r.unit / 128 == stack with
      | some r => (s.evacTry r.unit r.reason).evacTurn stack n
      | none => s

/-- The next evacuation that waits in a stack starts; without a spare every one that waits ends (R316, R317). -/
def State.evacNext (s : State) (stack : Nat) : State := s.evacTurn stack s.sp.repl.length

/-- A channel has failed: an event record, and its evacuation (R311). `why` is 1, 2 or 3 of R566. -/
def State.failChannel (s : State) (ch why : Nat) : State :=
  if s.chFailed ch ∨ ch ≥ 1536 ∨ !s.chThere ch then s
  else
    let s := { s with mc := { s.mc with failed := setIns s.mc.failed ch } }
    let s := s.event 2 5 2 none ch 0x3FF [ch, why]
    match s.spareChannels (ch / 128), s.replFind 1 ch with
    | [], none => s.set (F.MC_CH_STAT_STATE ch) 2
    | _, _ => s.evacWant ch 2

end Sys2Proof.Machine
end

