-- ==== Sys2Proof/Machine/Number.lean ====
section
/-! DEFINITION. Number formats (R66 to R100): exact values, decoding, rounding in two stages, conversion, the scalar
operations, block scales and exact-sum accumulation. -/

namespace Sys2Proof

/-- The exact value of an operand: a NaN, an infinity, or (−1)^neg × m × 2^e. -/
inductive Val where
  | nan (signalling : Bool)
  | inf (neg : Bool)
  | fin (neg : Bool) (m : Nat) (e : Int)
  deriving DecidableEq, Repr

/-! ### Flags, R79 -/

def flNV : Nat := 1
def flDZ : Nat := 2
def flOF : Nat := 4
def flUF : Nat := 8
def flNX : Nat := 16
def flSA : Nat := 32
def flNL : Nat := 64

/-! ### Element types, R66, R69 -/

/-- Width in bits of an element code; 0 for a reserved code. -/
def elWidth (c : Nat) : Nat :=
  [32, 64, 16, 16, 8, 8, 6, 6, 4, 8, 4, 4, 6, 32, 8].getD c 0

/-- Exponent bits, mantissa bits and bias of a floating-point code (CB4 and CB6 as E4M3). -/
def elEbits (c : Nat) : Nat := [8, 11, 5, 8, 4, 5, 3, 2, 2, 0, 0, 4, 4, 0, 8].getD c 0
def elMbits (c : Nat) : Nat := [23, 52, 10, 7, 3, 2, 2, 3, 1, 0, 0, 3, 3, 0, 0].getD c 0
def elBias (c : Nat) : Nat := [127, 1023, 15, 127, 7, 15, 3, 1, 1, 0, 0, 7, 7, 0, 127].getD c 0

def isInt (c : Nat) : Bool := c == 9 || c == 10 || c == 13
def isCodebook (c : Nat) : Bool := c == 11 || c == 12
/-- All-ones exponent means infinity and NaN. -/
def isIeee (c : Nat) : Bool := decide (c ≤ 3) || c == 5
def elValid (c : Nat) : Bool := decide (c ≤ 14)

/-- Dense MACs per A-clock (R98). -/
def elMacs (c : Nat) : Nat :=
  if c = 2 ∨ c = 3 then 1024 else if c = 4 ∨ c = 5 ∨ c = 9 ∨ c = 11 ∨ c = 12 then 2048
  else if c = 6 ∨ c = 7 ∨ c = 8 ∨ c = 10 then 4096 else 0

/-- Codes usable as matrix operands, and codes that take scales and exact-sum. -/
def isMatrix (c : Nat) : Bool := decide (2 ≤ c ∧ c ≤ 12)
def isScaled (c : Nat) : Bool := decide (4 ≤ c ∧ c ≤ 12)

/-- The matrix format table entry of a code, R98. -/
def formatEntry (c : Nat) : Nat :=
  if !elValid c then 0
  else
    elWidth c + elEbits c * 2 ^ 8 + elMbits c * 2 ^ 12 + elBias c * 2 ^ 18 + b2n (isIeee c) * 2 ^ 28 +
    b2n (isIeee c || c == 4 || c == 14 || isCodebook c) * 2 ^ 29 + b2n (isInt c) * 2 ^ 30 +
    b2n (isCodebook c) * 2 ^ 31 + b2n (isMatrix c) * 2 ^ 32 + b2n (isScaled c) * 2 ^ 33 + b2n (isScaled c) * 2 ^ 34 +
    b2n (isScaled c) * 2 ^ 35 + 2 ^ 36 + elMacs c * 2 ^ 48

/-- The canonical NaN of a type, R71. -/
def canonNaN (c : Nat) : Nat :=
  if c = 1 then 0x7FF8000000000000 else if c = 0 then 0x7FC00000 else if c = 2 then 0x7E00
  else if c = 3 then 0x7FC0 else if c = 5 then 0x7E else if c = 4 then 0x7F else 0xFF

/-! ### Decoding, R68 to R73 -/

/-- The value of an integer. -/
def Val.ofInt (i : Int) : Val := .fin (decide (i < 0)) i.natAbs 0

/-- A floating-point encoding's value. -/
def decodeFloat (c n : Nat) : Val :=
  let eb := elEbits c
  let mb := elMbits c
  let M := n % 2 ^ mb
  let E := n / 2 ^ mb % 2 ^ eb
  let S := bit n (eb + mb)
  if isIeee c && E == 2 ^ eb - 1 then
    if M = 0 then .inf S else .nan (!bit M (mb - 1))
  else if (c == 4 || isCodebook c) && E == 15 && M == 7 then .nan false
  else if E = 0 then .fin S M (1 - (elBias c : Int) - mb)
  else .fin S (2 ^ mb + M) ((E : Int) - elBias c - mb)

/-- The value of an element of code c (CB4 and CB6 after their table: an E4M3 byte). -/
def decodeEl (c n : Nat) : Val :=
  if c = 9 then .ofInt (toSigned 8 n) else if c = 10 then .ofInt (toSigned 4 n) else if c = 13 then .ofInt (toSigned 32 n)
  else if c = 14 then (if n % 256 = 255 then .nan false else .fin false 1 ((n % 256 : Nat) - 127))
  else decodeFloat c n

/-! ### Rounding, R76, R77 -/

/-- Whether a remainder r of a division by 2^s rounds the magnitude up: mode 0 RNE, 1 RZ, 2 RD, 3 RU. -/
def roundsUp (mode : Nat) (neg odd : Bool) (r s : Nat) : Bool :=
  if r = 0 then false
  else if mode = 0 then decide (2 * r > 2 ^ s) || (decide (2 * r = 2 ^ s) && odd)
  else if mode = 1 then false
  else if mode = 2 then neg else !neg

/-- A magnitude m × 2^e rounded to a multiple of 2^q: the multiple and whether it is inexact. -/
def roundAt (mode : Nat) (neg : Bool) (m : Nat) (e q : Int) : Nat × Bool :=
  if q ≤ e then (m * 2 ^ (e - q).toNat, false)
  else
    let s := (q - e).toNat
    let k := m / 2 ^ s
    let r := m % 2 ^ s
    (k + b2n (roundsUp mode neg (k % 2 == 1) r s), decide (r ≠ 0))

/-- The spacing exponent at a non-zero magnitude for a destination: its precision, or the subnormal spacing. -/
def spacing (c m : Nat) (e : Int) : Int := max ((m.log2 : Int) + e - elMbits c) (1 - (elBias c : Int) - elMbits c)

/-- m × 2^e > k × 2^x. -/
def magGt (m : Nat) (e : Int) (k : Nat) (x : Int) : Bool :=
  if e ≥ x then decide (m * 2 ^ (e - x).toNat > k) else decide (m > k * 2 ^ (x - e).toNat)

/-- The largest finite magnitude of a floating-point type as k × 2^x, R69. -/
def largest (c : Nat) : Nat × Int :=
  if c = 4 then (14, 5) else if c = 6 then (7, 2) else if c = 7 then (15, -1) else if c = 8 then (3, 1)
  else (2 ^ (elMbits c + 1) - 1, (elBias c : Int) - elMbits c)

/-- The encoding of a rounded magnitude k × 2^q with a sign. -/
def encodeMag (c : Nat) (neg : Bool) (k : Nat) (q : Int) : Nat :=
  let mb := elMbits c
  let s := b2n neg * 2 ^ (elEbits c + mb)
  if k < 2 ^ mb then s + k
  else
    let (k, q) := if k = 2 ^ (mb + 1) then (k / 2, q + 1) else (k, q)
    s + (q + mb + elBias c).toNat * 2 ^ mb + (k - 2 ^ mb)

def signBit (c : Nat) (neg : Bool) : Nat := b2n neg * 2 ^ (elEbits c + elMbits c)

def infOf (c : Nat) (neg : Bool) : Nat := signBit c neg + (2 ^ elEbits c - 1) * 2 ^ elMbits c

def maxOf (c : Nat) (neg : Bool) : Nat := encodeMag c neg (largest c).1 (largest c).2

/-- Whether the directed overflow of a mode gives an infinity (R81). -/
def directedInf (mode : Nat) (neg : Bool) : Bool := mode == 0 || (mode == 2 && neg) || (mode == 3 && !neg)

/-- An overflowed result, R81. -/
def overflow (c mode : Nat) (sat neg : Bool) : Nat × Nat :=
  if c = 6 ∨ c = 7 ∨ c = 8 then (maxOf c neg, flOF + flNX + flSA)
  else if sat then (maxOf c neg, flOF + flNX + flSA)
  else if directedInf mode neg then ((if c = 4 then signBit c neg + 0x7F else infOf c neg), flOF + flNX)
  else (maxOf c neg, flOF + flNX)

/-- An infinity converted, R81. -/
def convInf (c : Nat) (sat neg : Bool) : Nat × Nat :=
  if c = 6 ∨ c = 7 ∨ c = 8 then (maxOf c neg, flSA)
  else if sat then (maxOf c neg, flSA)
  else if c = 4 then (signBit c neg + 0x7F, 0) else (infOf c neg, 0)

/-- Conversion to an integer of width w: rounded to an integer, then the range check (R81). -/
def convInt (w mode : Nat) (v : Val) : Nat × Nat :=
  let hi : Int := 2 ^ (w - 1) - 1
  let lo : Int := -2 ^ (w - 1)
  match v with
  | .nan _ => (0, flNV)
  | .inf neg => (wrap w (if neg then lo else hi), flNV + flSA)
  | .fin neg m e =>
    let (k, ix) := roundAt mode neg m e 0
    let i : Int := if neg then -(k : Int) else k
    if i > hi then (wrap w hi, flOF + flNX + flSA) else if i < lo then (wrap w lo, flOF + flNX + flSA)
    else (wrap w i, if ix then flNX else 0)

/-- floor(log2) of a non-zero magnitude. -/
def floorLog (m : Nat) (e : Int) : Int := (m.log2 : Int) + e

/-- Conversion to E8M0, R82. -/
def convE8M0 (mode : Nat) (v : Val) : Nat × Nat :=
  match v with
  | .nan _ => (0xFF, 0)
  | .inf _ => (0xFF, 0)
  | .fin neg m e =>
    if m = 0 then (0, flUF + flNX)
    else
      let fl := floorLog m e
      let pow := decide (m = 2 ^ m.log2)
      let ce := if pow then fl else fl + 1
      let E := if mode = 1 ∨ mode = 2 then fl else if mode = 3 then ce
        else if 2 * m < 3 * 2 ^ m.log2 then fl else ce
      let X : Nat := if E < -127 then 0 else if E > 127 then 0xFE else (E + 127).toNat
      let exact := pow && !neg && decide (fl = (X : Int) - 127)
      (X, (if E < -127 then flUF else if E > 127 then flOF + flSA else 0) + (if exact then 0 else flNX))

/-- Conversion to a floating-point type: rounded in two stages, R77, R81. -/
def convFloat (c mode : Nat) (sat : Bool) (v : Val) : Nat × Nat :=
  match v with
  | .nan _ => if c = 6 ∨ c = 7 ∨ c = 8 then (0, flNL) else (canonNaN c, 0)
  | .inf neg => convInf c sat neg
  | .fin neg m e =>
    if m = 0 then (signBit c neg, 0)
    else
      let q := spacing c m e
      let (k, ix) := roundAt mode neg m e q
      if magGt k q (largest c).1 (largest c).2 then overflow c mode sat neg
      else
        let tiny := decide (k < 2 ^ elMbits c)
        (encodeMag c neg k q, (if tiny && ix then flUF else 0) + (if ix then flNX else 0))

/-- The flag of reading a value: NV for a signalling NaN. -/
def readFlag (v : Val) : Nat := match v with | .nan true => flNV | _ => 0

/-- Conversion of a value to a destination code, R80 to R82. -/
def convTo (c mode : Nat) (sat : Bool) (v : Val) : Nat × Nat :=
  let r := if c = 9 then convInt 8 mode v else if c = 10 then convInt 4 mode v else if c = 13 then convInt 32 mode v
    else if c = 14 then convE8M0 mode v else convFloat c mode sat v
  (r.1, r.2 ||| readFlag v)

/-- Conversion between codes: equal codes copy, a NaN becoming the canonical one (R71, R80). -/
def convert (src dst mode : Nat) (sat : Bool) (n : Nat) : Nat × Nat :=
  let v := decodeEl src n
  if src = dst then
    match v with
    | .nan s => (canonNaN dst, if s then flNV else 0)
    | _ => (n % 2 ^ elWidth dst, 0)
  else convTo dst mode sat v

/-! ### Exact arithmetic on values -/

/-- The signed integer of a finite value in units of 2^x, for x at most its exponent. -/
def scaledInt (neg : Bool) (m : Nat) (e x : Int) : Int :=
  let k : Int := (m * 2 ^ (e - x).toNat : Nat)
  if neg then -k else k

/-- Exact sum; mode 2 (RD) makes a zero of opposite signs negative (R77). -/
def Val.add (mode : Nat) : Val → Val → Val × Nat
  | .nan a, .nan b => (.nan false, if a || b then flNV else 0)
  | .nan a, _ => (.nan false, if a then flNV else 0)
  | _, .nan b => (.nan false, if b then flNV else 0)
  | .inf a, .inf b => if a = b then (.inf a, 0) else (.nan false, flNV)
  | .inf a, _ => (.inf a, 0)
  | _, .inf b => (.inf b, 0)
  | .fin a m e, .fin b k f =>
    let x := min e f
    let i := scaledInt a m e x + scaledInt b k f x
    if i = 0 then
      (.fin (if m = 0 ∧ k = 0 ∧ a = b then a else if a = b then a else mode == 2) 0 x, 0)
    else (.fin (decide (i < 0)) i.natAbs x, 0)

/-- Exact product. -/
def Val.mul : Val → Val → Val × Nat
  | .nan a, .nan b => (.nan false, if a || b then flNV else 0)
  | .nan a, _ => (.nan false, if a then flNV else 0)
  | _, .nan b => (.nan false, if b then flNV else 0)
  | .inf a, .inf b => (.inf (a != b), 0)
  | .inf a, .fin b k _ => if k = 0 then (.nan false, flNV) else (.inf (a != b), 0)
  | .fin a m _, .inf b => if m = 0 then (.nan false, flNV) else (.inf (a != b), 0)
  | .fin a m e, .fin b k f => (.fin (a != b) (m * k) (e + f), 0)

def Val.neg : Val → Val
  | .nan s => .nan s
  | .inf n => .inf (!n)
  | .fin n m e => .fin (!n) m e

/-- The floating-point operations of R78, each rounded once. -/
def fadd (c mode a b : Nat) : Nat × Nat :=
  let r := (decodeEl c a).add mode (decodeEl c b)
  let o := convTo c mode false r.1
  (o.1, o.2 ||| r.2)

def fmul (c mode a b : Nat) : Nat × Nat :=
  let r := (decodeEl c a).mul (decodeEl c b)
  let o := convTo c mode false r.1
  (o.1, o.2 ||| r.2)

/-- A fused multiply-add: the product is exact, the sum rounded once. -/
def ffma (c mode a b d : Nat) : Nat × Nat :=
  let p := (decodeEl c a).mul (decodeEl c b)
  let r := p.1.add mode (decodeEl c d)
  let o := convTo c mode false r.1
  (o.1, o.2 ||| r.2 ||| p.2)

/-- A negated operand: the sign bit flipped, whatever the encoding. -/
def fneg (c a : Nat) : Nat := a ^^^ 2 ^ (elWidth c - 1)

/-- The order of two values that are not NaN: −0 below +0 only where `zeros` asks for it. -/
def valLt (zeros : Bool) : Val → Val → Bool
  | .nan _, _ => false
  | _, .nan _ => false
  | .inf a, .inf b => a && !b
  | .inf a, .fin _ _ _ => a
  | .fin _ _ _, .inf b => !b
  | .fin a m e, .fin b k f =>
    let x := min e f
    let i := scaledInt a m e x
    let j := scaledInt b k f x
    decide (i < j) || (zeros && decide (i = j) && decide (m = 0) && a && !b)

def Val.isNaN : Val → Bool
  | .nan _ => true
  | _ => false

/-- Minimum (or maximum) of R78. -/
def fminmax (isMax : Bool) (c a b : Nat) : Nat × Nat :=
  let x := decodeEl c a
  let y := decodeEl c b
  let fl := readFlag x ||| readFlag y
  if x.isNaN && y.isNaN then (canonNaN c, fl)
  else if x.isNaN then (b, fl) else if y.isNaN then (a, fl)
  else if isMax then ((if valLt true x y then b else a), fl) else ((if valLt true y x then b else a), fl)

/-- The comparison conditions of R190: 0 EQ, 1 NE, 2 LT, 3 LE, 4 GT, 5 GE, 6 NUM, 7 NAN, and from 8 on the first six
or unordered. -/
def fcompare (cond : Nat) (x y : Val) : Bool :=
  let un := x.isNaN || y.isNaN
  let lt := valLt false x y
  let gt := valLt false y x
  let rel := fun c => if c = 0 then !lt && !gt else if c = 1 then lt || gt else if c = 2 then lt else if c = 3 then !gt
    else if c = 4 then gt else !lt
  if cond = 6 then !un else if cond = 7 then un
  else if cond < 6 then !un && rel cond else un || rel (cond - 8)

/-! ### Packed elements, R74, R75 -/

/-- Element i of a packed run of code-c elements in a byte list. -/
def packedEl (c : Nat) (l : List Byte) (i : Nat) : Nat :=
  let w := elWidth c
  if w = 4 then (bytesAt l (i / 2) 1) / 2 ^ (4 * (i % 2)) % 16
  else if w = 6 then (bytesAt l (i / 4 * 3) 3) / 2 ^ (6 * (i % 4)) % 64
  else bytesAt l (i * (w / 8)) (w / 8)

/-- Bytes of a packed run of n elements. -/
def packedBytes (c n : Nat) : Nat :=
  let w := elWidth c
  if w = 4 then (n + 1) / 2 else if w = 6 then (n + 3) / 4 * 3 else n * (w / 8)

/-! ### Block scales, R83 to R85 -/

/-- The exact product of two values for a block-scaled product: any NaN gives NaN, infinity times zero NaN with NV. -/
def product4 (a b sa sb : Val) : Val × Nat :=
  let l := [a, b, sa, sb]
  let isInf := fun v => match v with | Val.inf _ => true | _ => false
  let isZero := fun v => match v with | Val.fin _ m _ => m == 0 | _ => false
  let neg := fun v => match v with | Val.fin n _ _ => n | Val.inf n => n | _ => false
  let sign := l.foldl (fun s v => s != neg v) false
  if l.any Val.isNaN then (.nan false, if l.any (· == .nan true) then flNV else 0)
  else if l.any isInf && l.any isZero then (.nan false, flNV)
  else if l.any isInf then (.inf sign, 0)
  else
    let r := l.foldl (fun (a : Nat × Int) v => match v with | .fin _ m e => (a.1 * m, a.2 + e) | _ => a) (1, 0)
    (.fin sign r.1 r.2, 0)

/-- An element's value under a scale scheme: INT8 and INT4 carry the MX factors under scheme A (R85). -/
def schemeEl (scheme c n : Nat) : Val :=
  match decodeEl c n with
  | .fin s m e => .fin s m (if scheme = 1 ∧ c = 9 then e - 6 else if scheme = 1 ∧ c = 10 then e - 2 else e)
  | v => v

/-- A block scale's value: E8M0 under scheme A, E4M3 under scheme B, 1.0 under none. -/
def scaleVal (scheme n : Nat) : Val :=
  if scheme = 1 then decodeEl 14 n else if scheme = 2 then decodeEl 4 n else .fin false 1 0

/-! ### Exact-sum accumulation, R91 to R97 -/

/-- One exact-sum element: the register G and its four flags. -/
structure ESum where
  g : Int
  nan : Bool
  pinf : Bool
  ninf : Bool
  ovp : Bool
  deriving DecidableEq, Repr

def ESum.zero : ESum := ⟨0, false, false, false, false⟩

/-- One product enters the register: answers the element, whether bits were lost (UFCNT), and the flags. -/
def ESum.accum (x : ESum) (eref : Int) (p : Val) (pf : Nat) : ESum × Bool × Nat :=
  match p with
  | .nan _ => ({ x with nan := true }, false, pf)
  | .inf neg => (if neg then { x with ninf := true } else { x with pinf := true }, false, pf)
  | .fin neg m e =>
    if m = 0 then (x, false, pf)
    else if floorLog m e ≥ eref + 95 then ({ x with ovp := true }, false, pf)
    else
      let q := eref - 96
      let k := if q ≤ e then m * 2 ^ (e - q).toNat else m / 2 ^ (q - e).toNat
      let lost := !decide (q ≤ e) && decide (m % 2 ^ (q - e).toNat ≠ 0)
      ({ x with g := x.g + (if neg then -(k : Int) else k) }, lost, pf)

/-- G lies in the window. -/
def ESum.inWindow (x : ESum) : Bool := decide (-2 ^ 191 ≤ x.g ∧ x.g < 2 ^ 191)

/-- The readout of R94: FP32 result, flags, tile overflow status. -/
def ESum.readout (x : ESum) (eref : Int) (ta tb : Val) : Nat × Nat × Bool :=
  let special := fun v => match v with | Val.fin _ _ _ => false | _ => true
  let zero := fun v => match v with | Val.fin _ m _ => m == 0 | _ => false
  let neg := fun v => match v with | Val.fin n _ _ => n | _ => false
  let tneg := neg ta != neg tb
  if x.nan || (x.pinf && x.ninf) || x.ovp then (0x7FC00000, (if x.pinf && x.ninf then flNV else 0), x.ovp)
  else if special ta || special tb then (0x7FC00000, flNV, false)
  else if x.pinf || x.ninf then
    if zero ta || zero tb then (0x7FC00000, flNV, false) else (infOf 0 (x.ninf != tneg), 0, false)
  else if !x.inWindow then (infOf 0 (decide (x.g < 0) != tneg), flOF, true)
  else if x.g = 0 then (0, 0, false)
  else
    match (Val.mul (.fin (decide (x.g < 0)) x.g.natAbs (eref - 96)) ta).1 with
    | v =>
      let r := convTo 0 0 false (v.mul tb).1
      (r.1, r.2, false)

/-- The raw record of R95. -/
def ESum.raw (x : ESum) (eref : Int) : List Byte :=
  toBytes 29 (wrap 232 x.g) ++ toBytes 1 (b2n x.nan + 2 * b2n x.pinf + 4 * b2n x.ninf + 8 * b2n x.ovp) ++
  toBytes 2 (wrap 16 eref)

def ESum.ofRaw (l : List Byte) : ESum :=
  ⟨toSigned 232 (bytesAt l 0 29), bit (bytesAt l 29 1) 0, bit (bytesAt l 29 1) 1, bit (bytesAt l 29 1) 2,
    bit (bytesAt l 29 1) 3⟩

/-- Two records with equal EREF combine (R96); G keeps its 232 bits. -/
def ESum.combine (x y : ESum) : ESum :=
  ⟨toSigned 232 (wrap 232 (x.g + y.g)), x.nan || y.nan, x.pinf || y.pinf, x.ninf || y.ninf, x.ovp || y.ovp⟩

end Sys2Proof
end

