-- ==== Sys2Proof/Machine/Home.lean ====
section
/-! DEFINITION. The home of a line (R265 to R272) and what every agent of the device uses: the newest coherent value of
a line, reads and writes of whole byte runs at their homes, eviction, buffered reductions and reservations. -/

namespace Sys2Proof.Machine

/-- Memory sent back as 8-byte two's complement or plain numbers: combine an old value with an operand. -/
def atomInt (op w old x y : Nat) : Nat :=
  let m := 2 ^ w
  if op = 0 then (old + x) % m
  else if op = 2 then (if toSigned w x < toSigned w old then x else old)
  else if op = 3 then min old x
  else if op = 5 then (if toSigned w old < toSigned w x then x else old)
  else if op = 6 then max old x
  else if op = 8 then old &&& x
  else if op = 9 then old ||| x
  else if op = 10 then old ^^^ x
  else if op = 11 then x
  else if op = 12 then (if old = x then y else old)
  else old

/-! ### Homes, R268 to R270 -/

def lineOf (a : Nat) : Nat := a / 128

/-- The partition whose slices home the chunk of an address. -/
def State.chunkPart (s : State) (a : Nat) : Nat := s.get (F.CS_HOMEMAP_PART (a / 2 ^ 30))

/-- A slice belongs to partition p. -/
def State.sliceOf (s : State) (p i : Nat) : Bool := bit (s.get (F.CS_PSLICE_SLICES p (i / 64))) (i % 64)

/-- The in-service slices of a partition, in ascending order. -/
def State.partSlices (s : State) (p : Nat) : List Nat :=
  (List.range 256).filter fun i => s.slThere i && s.sliceOf p i

/-- The home list of a chunk, R269 and R270. -/
def State.homeList (s : State) (c : Nat) : List Nat :=
  let all := s.partSlices (s.get (F.CS_HOMEMAP_PART c))
  let near := s.get (F.CS_HOMEMAP_NEARQ c)
  let quay := all.filter fun i => decide (i / 128 + 1 = near)
  if all = [] then (List.range 256).filter fun i => s.slThere i
  else if quay = [] then all else quay

/-- The partition that owns a slice: no other may (R268). -/
def State.sliceOwner (s : State) (i : Nat) : Option Nat := (List.range 16).find? fun p => s.sliceOf p i

/-- The hash of a line number, R269. -/
def homeHash (line : Nat) : Nat := line * 0x9E3779B97F4A7C15 % 2 ^ 64 / 2 ^ 32

/-- The home slice of a line. -/
def State.homeSlice (s : State) (line : Nat) : Nat :=
  let l := s.homeList (line / 2 ^ 23)
  l.getD (homeHash line * l.length / 2 ^ 32) 0

/-- The set of a line in its slice, and its directory set. -/
def lineSet (line : Nat) : Nat := homeHash line % 1024
def dirSet (line : Nat) : Nat := homeHash line % 2048

/-- A Cistern counter of the partition that owns the line's home slice advances (R296); the lines of a slice that no
partition owns are counted nowhere. -/
def State.countCs (s : State) (f : Nat → Fld) (line k : Nat) : State :=
  match s.sliceOwner (s.homeSlice line) with
  | some p => s.count (f p) k
  | none => s

/-! ### Stamps -/

/-- The next serial of the memory system. -/
def State.tick (s : State) : Nat × State := (s.coh.serial, { s with coh := { s.coh with serial := s.coh.serial + 1 } })

/-! ### Lines of memory -/

/-- The bytes of a line in local memory. -/
def State.memLine (s : State) (line : Nat) : Data :=
  (s.mem.filter fun e => decide (line * 128 ≤ e.1 ∧ e.1 < line * 128 + 128)).map fun e => (e.1 - line * 128, e.2)

/-- A sector mask of the sectors a test accepts. -/
def sectorMask (f : Nat → Bool) : Nat := b2n (f 0) + 2 * b2n (f 1) + 4 * b2n (f 2) + 8 * b2n (f 3)

/-- The poison of a line in local memory. -/
def State.memPoison (s : State) (line : Nat) : Nat := sectorMask fun j => s.sectorPoison (4 * line + j)

/-- Bytes of `d` over `base` where offset `o` is written. -/
def overlay (base d : Data) : Data := d.foldl (fun t e => tabSet 0 t e.1 e.2) base

/-- The sectors of `d` where the mask has its bit, those of `base` elsewhere. -/
def mixSectors (mask : Nat) (d base : Data) : Data :=
  (List.range 128).foldl (fun t o => if bit mask (o / 32) then tabSet 0 t o (tabGet 0 d o) else t) base

/-- Sectors of a line written to memory, with their poison: a poisoned sector is stored as the marker, all-zero data
(R312). DESIGN CHOICE: a write that a channel in STATE 2 discards (R317) is counted and charged as any other (R322). -/
def State.memWrite (s : State) (line mask : Nat) (d : Data) (poison : Nat) : State :=
  let p := s.chunkPart (line * 128)
  let n := ((List.range 4).filter fun j => bit mask j).length
  let s := (s.chanAccess p (line * 128) n).count (F.MC_WR_COUNT p) n
  if s.dropsAt (line * 128) then s
  else
    let mem := (List.range 128).foldl (fun t o => if bit mask (o / 32) then
      tabSet 0 t (line * 128 + o) (if bit poison (o / 32) then 0 else tabGet 0 d o) else t) s.mem
    let po := (List.range 4).foldl (fun l j => if bit mask j then
      (if bit poison j then setIns l (4 * line + j) else setDel l (4 * line + j)) else l) s.poison
    let kept := if s.lostAt (line * 128) then
        (List.range 4).foldl (fun l j => if bit mask j then setIns l (4 * line + j) else l) s.mc.kept
      else s.mc.kept
    let secs := (List.range 4).filterMap fun j => if bit mask j then some (4 * line + j) else none
    let held := if s.rowHeld (line * 128) then secs.foldl setIns s.mc.rowWrites else s.mc.rowWrites
    { s with mem := mem, poison := po, mc := { s.mc with kept := kept, bad := secs.foldl setDel s.mc.bad, rowWrites := held } }

/-! ### The data array, R266, R267 -/

def State.cisFind (s : State) (line : Nat) : Option CisLine := tabFind s.coh.cis line
def State.setCis (s : State) (line : Nat) (c : CisLine) : State :=
  { s with coh := { s.coh with cis := tabIns s.coh.cis line c } }
def State.delCis (s : State) (line : Nat) : State := { s with coh := { s.coh with cis := tabDel s.coh.cis line } }

/-- A transaction on the line is in progress. -/
def State.busy (s : State) (line : Nat) : Bool := (tabFind s.coh.txns line).isSome
/-- Reductions are accepted and not applied. -/
def State.hasReds (s : State) (line : Nat) : Bool := s.coh.reds.any fun r => r.line == line
/-- Requests wait in the line's queue. -/
def State.queued (s : State) (line : Nat) : Bool := s.coh.waitq.any fun r => r.addr / 128 == line

/-- The line of a held request: its home is changing, its slice is being copied, or its directory set rebuilt (R271, R294,
R295). -/
def State.heldLine (s : State) (line : Nat) : Bool :=
  (match s.coh.rehome with
   | none => false
   | some (off, v) => (s.setRaw off v).homeSlice line != s.homeSlice line) ||
  s.coh.copying.contains (s.homeSlice line) ||
  s.coh.rebuild.contains (s.homeSlice line, dirSet line)

/-- A new request for the line would be served at once: nothing is under way on it and nothing waits for it. -/
def State.lineOpen (s : State) (line : Nat) : Bool :=
  !s.busy line && !s.queued line && !s.hasReds line && !s.heldLine line

/-- The slice has no tracker left for a request: 16 of its 256 are kept for write-back notices (R277). -/
def State.trackersFull (s : State) (slice : Nat) : Bool :=
  decide (240 ≤ s.coh.txns.length) && decide (240 ≤ (s.coh.txns.filter fun e => s.homeSlice e.1 == slice).length)

/-- A line leaves the data array: its dirty sectors go to memory. -/
def State.cisEvict (s : State) (line : Nat) : State :=
  match s.cisFind line with
  | none => s
  | some c => (if c.sd = 0 then s else s.memWrite line c.sd c.data c.sp).delCis line

/-- The lines of a set in a slice. -/
def State.cisSet (s : State) (slice set : Nat) : Tab CisLine :=
  s.coh.cis.filter fun e => e.2.slice == slice && e.2.set == set

/-- The least recently used of some lines. -/
def oldest (l : Tab CisLine) : Option (Nat × CisLine) :=
  l.foldl (fun a e => match a with
    | none => some e
    | some b => if e.2.use < b.2.use then some e else some b) none

/-- A way for a new line: a free one, of several the lowest (DESIGN CHOICE: R267 names none), else the least recently used
line without PIN, RP and BUSY, which is evicted.
`pin` asks for one of the first `n` ways, where any line that is not pinned gives way. -/
def State.takeWay (s : State) (slice set : Nat) (pin : Option Nat) : Option (Nat × State) :=
  let l := s.cisSet slice set
  let ways := List.range (pin.getD 24)
  match ways.find? fun w => !(l.any fun e => e.2.way == w) with
  | some w => some (w, s)
  | none =>
    match oldest (l.filter fun e => decide (e.2.way < pin.getD 24) && !e.2.pin && !s.hasReds e.1 && !s.busy e.1) with
    | some v => some (v.2.way, s.cisEvict v.1)
    | none => none

/-- An absent line gets a way, empty. -/
def State.cisPlace (s : State) (line : Nat) : Option State :=
  match s.takeWay (s.homeSlice line) (lineSet line) none with
  | none => none
  | some (w, s) =>
    let (n, s) := s.tick
    some (s.setCis line ⟨s.homeSlice line, lineSet line, w, [], 0, 0, 0, false, n⟩)

/-- The absent lines of this line's set whose buffered reductions wait for a way, up to the line itself (R292). -/
def State.redsFirst (s : State) (line : Nat) : List Nat :=
  (((s.coh.reds.filter fun r => lineSet r.line == lineSet line && r.slice == s.homeSlice line &&
    (s.cisFind r.line).isNone).map (·.line)).eraseDups).takeWhile fun l => l != line

/-- A line of which the data array holds nothing gets a way, empty, after the lines with buffered reductions that wait
for a way of its set. -/
def State.cisAlloc (s : State) (line : Nat) : Option State :=
  match s.cisFind line with
  | some _ => some s
  | none => (s.redsFirst line ++ [line]).foldl (fun o l => o.bind fun s => s.cisPlace l) (some s)

/-- A fill of a line evicted one filled fewer than 8,192 N-clocks earlier: the partition that owns the slice counts it
(R289). -/
def State.thrash (s : State) (line : Nat) : State :=
  match s.sliceOwner (s.homeSlice line) with
  | none => s
  | some p =>
    let s := s.count (F.CS_THRASH_COUNT p) 1
    let n := s.get (F.CS_THRASH_COUNT p)
    if n % 65536 = 0 then s.event 5 4 1 (some p) 0 0x3FF [p, n] else s

/-- The lines that have left the data array between two states. -/
def cisLost (s t : State) : List Nat := tabGone s.coh.cis t.coh.cis

/-- A way for data that a write, a reduction, a pin or a returned line brings: whether an ordinary line that it evicts was
filled fewer than 8,192 N-clocks earlier is a free value (R289). -/
def State.allocW (s : State) (line : Nat) : Option State :=
  match s.cisAlloc line with
  | none => none
  | some t =>
    if cisLost s t ≠ [] then
      let (v, t) := t.draw
      some (if v.getLsbD 0 then t.thrash line else t)
    else some t

/-- A use of the line moves it to the young end of its set's order (R266). -/
def State.cisTouch (s : State) (line : Nat) : State :=
  match s.cisFind line with
  | none => s
  | some c =>
    let (n, s) := s.tick
    s.setCis line { c with use := n }

/-- Sectors enter the data array; `dirty` against memory or not. -/
def State.cisPut (s : State) (line mask : Nat) (d : Data) (poison : Nat) (dirty : Bool) : State :=
  match s.cisFind line with
  | none => s
  | some c =>
    let (n, s) := s.tick
    s.setCis line { c with
      data := mixSectors mask d c.data
      sv := c.sv ||| mask
      sd := if dirty then c.sd ||| mask else c.sd
      sp := (c.sp &&& (15 ^^^ mask)) ||| (poison &&& mask)
      use := n }

/-- The line as the home holds it: valid sectors of the data array over memory, and its poison. -/
def State.homeData (s : State) (line : Nat) : Data × Nat :=
  let d := s.memLine line
  let q := s.memPoison line
  match s.cisFind line with
  | none => (d, q)
  | some c => (mixSectors c.sv c.data d, (q &&& (15 ^^^ c.sv)) ||| (c.sp &&& c.sv))

/-! ### The newest coherent value -/

/-- The line in a cluster cache. -/
def State.ccFind (s : State) (cluster line : Nat) : Option CcLine := tabFind s.coh.cc (line * 128 + cluster)
def State.setCc (s : State) (cluster line : Nat) (c : CcLine) : State :=
  { s with coh := { s.coh with cc := tabIns s.coh.cc (line * 128 + cluster) c } }
def State.delCc (s : State) (cluster line : Nat) : State :=
  { s with coh := { s.coh with cc := tabDel s.coh.cc (line * 128 + cluster) } }

/-- The copy that is newer than the home's, wherever it stands: a cluster's line in M, on its way to one or back, or in a
write-back buffer. A clean copy equals the home's. -/
def State.ownedData (s : State) (line : Nat) : Option (Data × Nat) :=
  match s.coh.cc.find? fun e => e.1 / 128 == line && e.2.st == CState.M with
  | some e => some (e.2.data, e.2.poison)
  | none =>
    match s.coh.grants.find? fun g => g.line == line && g.st == CState.M && g.data.isSome with
    | some g => g.data
    | none =>
      match s.coh.replies.find? fun r => r.line == line && r.data.isSome with
      | some r => r.data
      | none =>
        match s.coh.wb.find? fun w => w.line == line && w.dirty && !w.taken && !w.home with
        | some w => some (w.data, w.poison)
        | none => none

/-- The line as its coherence order has left it, without the reductions that are accepted and not applied. -/
def State.lineNow (s : State) (line : Nat) : Data × Nat := (s.ownedData line).getD (s.homeData line)

/-! ### Atomic operations, R172 to R174, R290 -/

/-- Floating-point minimum or maximum at the home: a signalling NaN gives the canonical NaN. -/
def atomMinMax (isMax : Bool) (c a b : Nat) : Nat :=
  if decodeEl c a == .nan true || decodeEl c b == .nan true then canonNaN c else (fminmax isMax c a b).1

/-- One operation on an old value: operand x, and the new value y of a compare-and-swap. -/
def atomNew (op : Nat) (w64 : Bool) (old x y : Nat) : Nat :=
  let c := if w64 then 1 else 0
  if op = 1 then (convTo c 0 false (Val.add 0 (decodeEl c old) (decodeEl c x)).1).1
  else if op = 4 then atomMinMax false c old x
  else if op = 7 then atomMinMax true c old x
  else atomInt op (if w64 then 64 else 32) old x y

/-- The lanes of a set applied one after another: the value left and what each lane found. -/
def atomSeq (op : Nat) (w64 : Bool) : Nat → List (Nat × Nat × Nat) → Nat × List (Nat × Nat)
  | old, [] => (old, [])
  | old, (l, x, y) :: r =>
    let z := atomSeq op w64 (atomNew op w64 old x y) r
    (z.1, (l, old) :: z.2)

/-- A floating-point add set: every partial sum is exact and rounded once (R173). -/
def atomFadd (c old : Nat) : Val → List (Nat × Nat × Nat) → Nat × List (Nat × Nat)
  | v, [] => ((convTo c 0 false (Val.add 0 (decodeEl c old) v).1).1, [])
  | v, (l, x, _) :: r =>
    let here := (convTo c 0 false (Val.add 0 (decodeEl c old) v).1).1
    let z := atomFadd c old (Val.add 0 v (decodeEl c x)).1 r
    (z.1, (l, here) :: z.2)

/-- The lower lanes of a floating-point set return the old value itself to the first lane (R173). -/
def atomSet (a : AtomReq) (old : Nat) : Nat × List (Nat × Nat) :=
  let c := if a.w64 then 1 else 0
  match a.op, a.lanes with
  | 1, (l, x, _) :: r =>
    let z := atomFadd c old (decodeEl c x) r
    (z.1, (l, old) :: z.2)
  | op, ls => atomSeq op a.w64 old ls

/-- A number of k bytes in a line. -/
def lineNum (d : Data) (o k : Nat) : Nat := ofBytes ((List.range k).map fun i => tabGet 0 d (o + i))
/-- The k bytes of a number at offset o. -/
def numBytes (o k n : Nat) : Data := (List.range k).map fun i => (o + i, BitVec.ofNat 8 (n / 2 ^ (8 * i)))

/-- An atomic applied to a line: the line left and what each lane found; one with poisoned operands leaves the bytes. -/
def atomLine (a : AtomReq) (d : Data) : Data × List (Nat × Nat) :=
  let k := if a.w64 then 8 else 4
  let old := lineNum d (a.addr % 128) k
  let r := atomSet a old
  (if a.bad then d else overlay d (numBytes (a.addr % 128) k r.1), r.2)

/-- The sectors that bytes of a line touch, and those that they cover whole. -/
def touched (b : Data) : Nat := sectorMask fun j => b.any fun e => e.1 / 32 == j
def covered (b : Data) : Nat := sectorMask fun j => (b.filter fun e => e.1 / 32 == j).length == 32

/-- The newest coherent value of a line and its poison, with every accepted reduction applied (R291); one whose operands are
poisoned poisons its sector (R18). -/
def State.newest (s : State) (line : Nat) : Data × Nat :=
  let b := s.lineNow line
  (s.coh.reds.foldl (fun d r => if r.line == line then (atomLine r.a d).1 else d) b.1,
   s.coh.reds.foldl (fun q r => if r.line == line && r.a.bad then q ||| 2 ^ (r.a.addr % 128 / 32) else q) b.2)

/-- One coherent byte. -/
def State.peekByte (s : State) (a : Nat) : Byte := tabGet 0 (s.newest (lineOf a)).1 (a % 128)

/-- k coherent bytes from address a. -/
def State.peek (s : State) (a k : Nat) : List Byte :=
  let ls := (List.range ((a % 128 + k + 127) / 128)).map fun i => (s.newest (lineOf a + i)).1
  (List.range k).map fun i => tabGet 0 (ls.getD ((a % 128 + i) / 128) []) ((a % 128 + i) % 128)

/-- A coherent little-endian number. -/
def State.peekNum (s : State) (a k : Nat) : Nat := ofBytes (s.peek a k)

/-- The 32-byte sector that holds a byte is poisoned, wherever its newest copy stands. -/
def State.poisonAt (s : State) (a : Nat) : Bool := bit (s.newest (lineOf a)).2 (a % 128 / 32)

/-- Some sector of k bytes from address a is poisoned. -/
def State.poisonIn (s : State) (a k : Nat) : Bool :=
  (List.range ((a % 32 + k + 31) / 32)).any fun i => s.poisonAt (a / 32 * 32 + 32 * i)

/-! ### Reservations, R252 -/

/-- Reservations on a line's granule break. -/
def State.breakResv (s : State) (line : Nat) : State :=
  { s with coh := { s.coh with resv := s.coh.resv.filter fun r => r.granule != line / 2 } }

/-- Every reservation of a context breaks. -/
def State.breakCtx (s : State) (ctx : Nat) : State :=
  { s with coh := { s.coh with resv := s.coh.resv.filter fun r => r.ctx != ctx } }

/-! ### Reads and writes of an agent at the homes -/

/-- Every cluster's copy is given up, the directory forgets the line, and write-back entries count as taken. -/
def State.dropCopies (s : State) (line : Nat) : State :=
  { s with coh := { s.coh with
      cc := s.coh.cc.filter fun e => e.1 / 128 != line
      dir := tabDel s.coh.dir line
      wb := s.coh.wb.map fun w => if w.line == line then { w with taken := true } else w } }

/-- Sectors of a line that the homes read from memory for no row of their own: the controllers' share of the read
(R322). -/
def State.fetched (s : State) (line mask : Nat) (narrow : Bool) : State :=
  if mask = 0 then s
  else
    let p := s.chunkPart (line * 128)
    let n := ((List.range 4).filter fun j => bit mask j).length
    let bad := ((List.range 4).filter fun j => bit (mask &&& s.memPoison line) j).length
    let s := s.each ((List.range 4).filter fun j => bit mask j) fun s j => s.sectorCheck (4 * line + j) 0
    let s := (s.chanAccess p (line * 128) n).count (if narrow then F.MC_RDNARROW_COUNT p else F.MC_RDLINE_COUNT p) n
    if bad = 0 then s else s.count (F.MC_POISON_COUNT p) bad

/-- The sectors of `mask` that only memory holds. -/
def State.onlyMem (s : State) (line mask : Nat) : Nat :=
  if (s.ownedData line).isSome then 0
  else mask &&& (15 ^^^ (match s.cisFind line with | some c => c.sv | none => 0))

/-- The answer of a home to an atomic or a reduction of a core: the values found by the lanes; none of a poisoned one. -/
def State.atomAnswer (s : State) (core id : Nat) (vals : List (Nat × Nat)) (poison : Bool) : State :=
  let k := s.core core
  let take := fun (f : Flight) =>
    { f with wait := setDel f.wait id, got := vals.foldl (fun t e => tabIns t e.1 e.2) f.got, poison := f.poison || poison }
  s.setCore core { k with flights := k.flights.map fun f => if f.wait.contains id then take f else f }

/-- The buffered reductions of a line, and the sectors that they change. -/
def State.lineReds (s : State) (line : Nat) : List RedEnt := s.coh.reds.filter fun r => r.line == line
def redMask (l : List RedEnt) : Nat := l.foldl (fun m r => m ||| 2 ^ (r.a.addr % 128 / 32)) 0

/-- Reductions that are applied are acknowledged, if they were not. -/
def State.ackReds (s : State) (l : List RedEnt) : State :=
  s.each (l.flatMap (·.wait)) fun s e => s.atomAnswer e.2 e.1 [] false

/-- The buffered reductions of a line leave the buffer. -/
def State.dropReds (s : State) (line : Nat) : State :=
  { s with coh := { s.coh with reds := s.coh.reds.filter fun r => r.line != line } }

/-- The reductions of a line are counted as they are applied: the first in each sector of `need` needed a memory read, the
others none (R296). -/
def State.redCount (s : State) (line need : Nat) (l : List RedEnt) : State :=
  let all := l.foldl (fun n e => n + e.n) 0
  let miss := ((List.range 4).filter fun j => bit (need &&& redMask l) j).length
  (s.countCs (F.CS_MISS_COUNT · 5) line miss).countCs (F.CS_HIT_COUNT · 5) line (all - miss)

/-- The reductions accepted on a line are applied in arrival order: every copy is given up, the sectors stand in the data
array, dirty, reservations break, and the home acknowledges them (R280, R291, R292). Without a way they wait. -/
def State.applyReds (s : State) (line : Nat) : State :=
  if s.hasReds line then
    match s.allocW line with
    | none => s
    | some t =>
      let l := s.lineReds line
      let v := s.newest line
      let mask := if (s.ownedData line).isSome then 15 else redMask l
      let need := s.onlyMem line mask
      let t := ((t.redCount line need l).fetched line need false).cisPut line mask v.1 v.2 true
      (((t.dropCopies line).breakResv line).dropReds line).ackReds l
  else s

/-- Bytes written at the home: copies are recalled, the bytes merge, dirty (R280); the sectors of `poison` brought bytes that
arrived poisoned (R18). -/
def State.homeWriteBad (s : State) (line : Nat) (b : Data) (poison : Nat) : State :=
  let v := s.lineNow line
  let own := (s.ownedData line).isSome
  match s.allocW line with
  | none => s
  | some t =>
    let t := (t.dropCopies line).breakResv line
    let mask := if own then 15 else touched b
    t.cisPut line mask (overlay v.1 b) ((v.2 &&& (15 ^^^ covered b)) ||| (poison &&& touched b)) true

def State.homeWrite (s : State) (line : Nat) (b : Data) : State := s.homeWriteBad line b 0

/-- Counter class of an agent, R296. -/
def agentClass (agent : Nat) : Nat :=
  if agent = 1 then 3 else if agent = 2 then 4 else if agent = 4 then 6 else if agent = 5 then 7 else 0

/-- A request of counter class k that needs the sectors of `mask` of a line: hit or miss, and the controller's sectors on
a miss (R296, R322). -/
def State.countRead (s : State) (k line mask : Nat) (narrow : Bool) : State :=
  let need := s.onlyMem line mask
  if need = 0 then (s.cisTouch line).countCs (F.CS_HIT_COUNT · k) line 1
  else ((s.fetched line need narrow).cisTouch line).countCs (F.CS_MISS_COUNT · k) line 1

/-- A write request of an agent, counted: the sectors that it covers in part are needed. The machinery of the device
itself has no class. -/
def State.countWrite (s : State) (agent line : Nat) (b : Data) : State :=
  if agent = 3 then s else s.countRead (agentClass agent) line (touched b &&& (15 ^^^ covered b)) false

/-- A read of the sectors of `need` cannot be served by its channel at once: other reads are there, it has no entry or no
burst left for the partition in the window, or it copies the row (R305, R306, R314, R319). -/
def State.chanWaits (s : State) (line need : Nat) : Bool :=
  let n := ((List.range 4).filter fun j => bit need j).length
  let p := s.chunkPart (line * 128)
  let ch := chanOf (line * 128)
  decide (n ≠ 0) &&
    (s.rowHeld (line * 128) || s.capped p (line * 128) n || !s.entsFit ch p n ||
     s.coh.txns.any fun e => e.2.mem && chanOf (e.1 * 128) == ch)

/-- A read of the sectors of `mask` must wait at its home: the line is not open, or its channel cannot serve it at once. -/
def State.mustWait (s : State) (line mask : Nat) : Bool := !s.lineOpen line || s.chanWaits line (s.onlyMem line mask)

/-- The line's buffered reductions wait for their channel. -/
def State.redsWait (s : State) (line : Nat) : Bool :=
  s.hasReds line && s.chanWaits line (s.onlyMem line (redMask (s.lineReds line)))

/-- A write of an agent to one line: at once when the line is open and has a way, and the sectors that it covers in part
can be read now, else behind the line's queue. -/
def State.writeLineBad (s : State) (agent unit line : Nat) (b : Data) (poison : Nat) : State :=
  if b = [] then s
  else if s.mustWait line (touched b &&& (15 ^^^ covered b)) || (s.cisAlloc line).isNone || s.trackersFull (s.homeSlice line) then
    let (n, s) := s.tick
    { s with coh := { s.coh with waitq := s.coh.waitq ++
        [⟨n, .wrPart b poison, line * 128, agent, unit, 0, 0x3FF, 0, 0, agentClass agent, n⟩] } }
  else (s.countWrite agent line b).homeWriteBad line b poison

def State.writeLine (s : State) (agent unit line : Nat) (b : Data) : State := s.writeLineBad agent unit line b 0

/-- Split a run of bytes at address a into its lines. -/
def splitLines (a : Nat) (l : List Byte) : List (Nat × Data) :=
  (List.range ((a % 128 + l.length + 127) / 128)).map fun i =>
    let lo := i * 128 - a % 128
    let o := if i = 0 then a % 128 else 0
    (lineOf a + i, ((l.drop lo).take (128 - o)).mapIdx fun j b => (o + j, b))

/-- Bytes that an agent of the device writes from address a. -/
def State.pokeAs (s : State) (agent unit a : Nat) (l : List Byte) : State :=
  (splitLines a l).foldl (fun s e => s.writeLine agent unit e.1 e.2) s

/-- The same, with the sector of address `at'` poisoned on the way, its wire counted (R18). -/
def State.pokeLink (s : State) (agent unit a : Nat) (l : List Byte) : Option (Nat × Nat) → State
  | none => s.pokeAs agent unit a l
  | some (at', w) =>
    if wireReal w ∧ a ≤ at' ∧ at' < a + l.length then
      (splitLines a l).foldl (fun s e => s.writeLineBad agent unit e.1 e.2
        (if e.1 = lineOf at' then 2 ^ (at' % 128 / 32) else 0)) (s.badCodeword w)
    else s.pokeAs agent unit a l

/-- Bytes that the device's own machinery writes. -/
def State.poke (s : State) (a : Nat) (l : List Byte) : State := s.pokeAs 3 0 a l

/-- Writers of the device's own machinery that are waited for: the dirty log and the save area (queues are 0 to 4,095). -/
def dirtyUnit : Nat := 4097
def saveUnit : Nat := 4098

/-- The lines of k bytes from address a. -/
def spanLines (a k : Nat) : List Nat := (List.range ((a % 128 + k + 127) / 128)).map (lineOf a + ·)

/-- Every line of a span is open and none lies in a row that is being copied: it can be read as a whole, the bursts beyond the
caps being charged to the next windows. -/
def State.spanReady (s : State) (a k : Nat) : Bool := (spanLines a k).all fun l => s.lineOpen l && !s.rowHeld (l * 128)

/-- The sectors that k bytes from address a touch in line i of the run. -/
def spanMask (a k line : Nat) : Nat :=
  sectorMask fun j => decide (a < line * 128 + 32 * j + 32 ∧ line * 128 + 32 * j < a + k)

/-- The reader that a command is to its homes, and those that BAR4 and a fabric port are. -/
def cmdReader (id : Nat) : Nat := id * 8 + 3
def bar4Reader (func : Nat) : Nat := func * 8 + 4
def portReader (port : Nat) : Nat := port * 8 + 5

/-- A read that its home cannot serve at once is asked for, once; the step that makes it is taken again when it is answered
(R279). -/
def State.askHome (s : State) (who cls addr : Nat) (narrow : Bool) : State :=
  let k := if narrow then ReqKind.rdNarrow else .rdOnce
  let mine := fun (r : Req) => r.agent == 16 && r.unit == who && r.addr == addr && r.kind == k
  let out := s.coh.asked.any mine || s.coh.waitq.any mine || s.coh.txns.any fun e => !e.2.served && (mine e.2.req || e.2.joiners.any mine)
  { s with coh := { s.coh with
      stalled := true
      asked := if out then s.coh.asked else s.coh.asked ++ [⟨0, k, addr, 16, who, 0, 0x3FF, 0, 0, cls, 0⟩] } }

/-- One read at a home by reader `who`: of a line (RD_ONCE), or of the sector of the address (RD_NARROW), counted in class
`cls`. What the home has answered is used up; a read that it can serve at once is served; another is asked for. -/
def State.readHome (s : State) (who cls addr : Nat) (narrow : Bool) : State × Data × Nat :=
  let mine := fun (g : Got) => g.who == who && g.addr == addr && g.narrow == narrow
  let line := addr / 128
  let mask := if narrow then 2 ^ (addr % 128 / 32) else 15
  match s.coh.got.find? mine with
  | some g => ({ s with coh := { s.coh with got := dropFirst mine s.coh.got } }, g.data, g.poison)
  | none =>
    let v := s.newest line
    (if s.mustWait line mask then s.askHome who cls addr narrow else s.countRead cls line mask narrow, v)

/-- The reads of k bytes from address a: one of each line, or one of each sector. -/
def readAddrs (narrow : Bool) (a k : Nat) : List Nat :=
  let z := if narrow then 32 else 128
  (List.range ((a % z + k + z - 1) / z)).map fun i => a / z * z + z * i

/-- The reads made in order: the bytes that each gives of a to a + k, and whether a sector among them is poisoned. -/
def State.readSeq (s : State) (who cls : Nat) (narrow : Bool) (a k : Nat) : List Nat → State × List Byte × Bool
  | [] => (s, [], false)
  | x :: r =>
    let z := if narrow then 32 else 128
    let h := s.readHome who cls x narrow
    let lo := max a x
    let l := (List.range (min (a + k) (x + z) - lo)).map fun i => tabGet 0 h.2.1 ((lo + i) % 128)
    let bad := (List.range 4).any fun j => bit (h.2.2 &&& spanMask lo l.length (x / 128)) j
    let t := h.1.readSeq who cls narrow a k r
    (t.1, l ++ t.2.1, bad || t.2.2)

/-- A read of k bytes at the homes by reader `who`. A home that cannot serve its part now stalls the step. -/
def State.readAs (s : State) (who cls : Nat) (narrow : Bool) (a k : Nat) : State × List Byte × Bool :=
  s.readSeq who cls narrow a k (readAddrs narrow a k)

/-- Requests of the homes that are not performed: in a line's queue, at the input of a slice, or in a transaction that is not
served. -/
def State.unserved (s : State) : List Req :=
  s.coh.waitq ++ s.coh.redWait ++ (s.coh.txns.filter fun e => !e.2.served).map fun e => e.2.req

/-- Every write of the agent is performed: none waits in a line's queue or stands in a transaction. -/
def State.written (s : State) (agent unit : Nat) : Bool :=
  !(s.unserved.any fun r => r.agent == agent && r.unit == unit &&
    (match r.kind with | .wrLine _ _ => true | .wrPart _ _ => true | _ => false))

/-! ### Stores at the cluster cache, R240 to R245 -/

def State.txn (s : State) (line : Nat) : Option Txn := tabFind s.coh.txns line
def State.addReq (s : State) (r : Req) : State := { s with coh := { s.coh with reqs := s.coh.reqs ++ [r] } }

/-- A request of a cluster for write permission is under way. -/
def State.asking (s : State) (cluster line : Nat) : Bool :=
  let own := fun (r : Req) => r.cluster == cluster && r.addr / 128 == line && r.agent == 0 &&
    (r.kind == .rdOwn || r.kind == .upgrade)
  s.coh.reqs.any own || s.coh.waitq.any own || (match s.txn line with | some t => own t.req | none => false) ||
  s.coh.grants.any fun g => g.line == line && g.cluster == cluster && g.st == .M

/-- The cluster cache asks for write permission, once (R278). -/
def State.askOwn (s : State) (core cluster line : Nat) : State :=
  if s.asking cluster line then s
  else
    let (n, s) := s.tick
    let kind := if (s.ccFind cluster line).isSome then ReqKind.upgrade else .rdOwn
    s.addReq ⟨n, kind, line * 128, 0, core, cluster, 0x3FF, 0, 0, 0, n⟩

/-- Bytes that the cluster accepted for a line join it where it holds E or M; a write breaks reservations (R252). -/
def State.mergePend (s : State) (cluster line : Nat) : State :=
  match s.ccFind cluster line with
  | none => s
  | some c =>
    let l := s.coh.pend.filter fun q => q.cluster == cluster && q.line == line
    if c.st = .S ∨ l = [] then s
    else
      let d := l.foldl (fun d q => overlay d q.bytes) c.data
      let cov := l.foldl (fun m q => m ||| covered q.bytes) 0
      let s := { s with coh := { s.coh with pend := s.coh.pend.filter fun q => !(q.cluster == cluster && q.line == line) } }
      (s.setCc cluster line ⟨.M, d, c.poison &&& (15 ^^^ cov)⟩).breakResv line

/-- Bytes accepted by a cluster cache wait for write permission, which is asked for. -/
def State.pendAdd (s : State) (core : Nat) (e : SbEnt) : State :=
  let q : PendW := ⟨e.serial, core / 8, e.line, e.bytes⟩
  let s : State := { s with coh := { s.coh with pend := s.coh.pend ++ [q] } }
  s.askOwn core (core / 8) e.line

/-- A local-memory entry drains to the cluster cache: into the line held with write permission, or to wait for it. -/
def State.drainLocal (s : State) (core : Nat) (e : SbEnt) : State :=
  let cl := core / 8
  match s.ccFind cl e.line with
  | some c =>
    if c.st ≠ .S ∧ !(s.coh.pend.any fun q => q.cluster == cl && q.line == e.line) then
      (s.setCc cl e.line ⟨.M, overlay c.data e.bytes, c.poison &&& (15 ^^^ covered e.bytes)⟩).breakResv e.line
    else (s.pendAdd core e).mergePend cl e.line
  | none => s.pendAdd core e

/-- A reduction of the core for a line has left it and is not acknowledged: the core's own later accesses to the line come
after it (R239, R242). -/
def State.lineOut (s : State) (core line : Nat) : Bool :=
  let mine := fun (r : Req) => r.agent == 0 && r.unit == core && r.addr / 128 == line &&
    (match r.kind with | .red _ => true | _ => false)
  (s.coh.reqs ++ s.unserved).any mine || s.coh.reds.any fun r => r.line == line && r.wait.any fun e => e.2 == core

end Sys2Proof.Machine
end

