-- ==== Sys2Proof/Machine/Operands.lean ====
section
/-! DEFINITION. The fields of the instruction word (R182 to R206), which words are legal, and the operands of a lane. -/

namespace Sys2Proof.Machine

/-! ### Fields -/

def wClass (w : Nat) : Nat := bits w 3 0
def wOp (w : Nat) : Nat := bits w 11 4
def wGP (w : Nat) : Nat := bits w 14 12
def wGN (w : Nat) : Bool := bit w 15
def wGE (w : Nat) : Bool := bit w 16
def wD (w : Nat) : Nat := bits w 31 24
def wA (w : Nat) : Nat := bits w 39 32
def wB (w : Nat) : Nat := bits w 47 40
def wC (w : Nat) : Nat := bits w 55 48
def wAK (w : Nat) : Nat := bits w 57 56
def wBK (w : Nat) : Nat := bits w 59 58
def wCK (w : Nat) : Nat := bits w 61 60
def wDK (w : Nat) : Nat := bits w 63 62
def wType (w : Nat) : Nat := bits w 68 64
def wType2 (w : Nat) : Nat := bits w 73 69
def wRM (w : Nat) : Nat := bits w 75 74
def wSat (w : Nat) : Bool := bit w 76
def wU (w : Nat) : Bool := bit w 77
def wSz64 (w : Nat) : Bool := bit w 78
def wCmp (w : Nat) : Nat := bits w 83 80
def wFunc (w : Nat) : Nat := bits w 87 84
def wImm (w : Nat) : Nat := bits w 127 96
def wSpace (w : Nat) : Bool := bit w 17
def wSem (w : Nat) : Nat := bits w 19 18
def wScope (w : Nat) : Nat := bits w 21 20
def wCQ (w : Nat) : Nat := bits w 23 22
def wAtop (w : Nat) : Nat := bits w 67 64
def wW64 (w : Nat) : Bool := bit w 68
def wBScope (w : Nat) : Nat := bits w 70 69
def wBNum (w : Nat) : Nat := bits w 72 71
def wPort (w : Nat) : Nat := bits w 18 17
def wWidth (w : Nat) : Nat := bits w 20 19
def wNB (w : Nat) : Bool := bit w 21
/-- The displacement of formats M and V, signed. -/
def wDisp (w : Nat) : Int := toSigned 32 (wImm w)

/-! ### Format V, R185 to R193 -/

/-- What an opcode of format V uses. Kinds: 0 t, 1 u, 2 immediate, 3 predicate; destination 4 none, 5 token. -/
structure VForm where
  d : Nat := 0
  a : List Nat := []
  b : List Nat := []
  c : List Nat := []
  /-- Registers of a t operand: 1, or 2 for a 64-bit one. -/
  dw : Nat := 1
  aw : Nat := 1
  bw : Nat := 1
  cw : Nat := 1
  /-- Bits 21:17 that the opcode may set. -/
  neg : Nat := 0
  ty : Bool := false
  ty2 : Bool := false
  rm : Bool := false
  sat : Bool := false
  u : Bool := false
  sz : Bool := false
  /-- Largest value of CMP and of FUNC. -/
  cmp : Nat := 0
  func : Nat := 0
  /-- Bits of IMM that the opcode reads itself. -/
  imm : Nat := 0
  deriving DecidableEq, Repr

def tui : List Nat := [0, 1, 2]

/-- ALU opcodes, R188. -/
def aluForm (op w : Nat) : Option VForm :=
  let n := if wSz64 w then 2 else 1
  let two : VForm := { a := tui, b := tui, dw := n, aw := n, bw := n, sz := true }
  let one : VForm := { a := tui, dw := n, aw := n, sz := true }
  if op = 0x01 ∨ op = 0x0B ∨ op = 0x13 ∨ op = 0x14 then some one
  else if op = 0x02 ∨ op = 0x03 ∨ op = 0x05 ∨ op = 0x08 ∨ op = 0x09 ∨ op = 0x0A ∨ op = 0x0C then some two
  else if op = 0x04 ∨ op = 0x11 then some { two with c := [3] }
  else if op = 0x06 ∨ op = 0x0D ∨ op = 0x0E ∨ op = 0x0F then some { two with u := true }
  else if op = 0x07 then some { two with c := tui, cw := n }
  else if op = 0x10 then some { two with d := 1, u := true, cmp := 5 }
  else if op = 0x12 then some { d := 1, a := [3], b := [3], c := [3], imm := 8 }
  else if op = 0x15 then some { two with bw := 1, func := 3 }
  else if op = 0x16 then some { d := if wFunc w = 2 then 0 else 1, a := [3], func := 2 }
  else if op = 0x17 then some { one with u := true, func := 5 }
  else none

/-- FPU opcodes, R191. -/
def fpuForm (op w : Nat) : Option VForm :=
  let n := if wType w = 1 then 2 else 1
  let two : VForm := { a := tui, b := tui, dw := n, aw := n, bw := n, neg := 0x1B, ty := true }
  if op = 0x01 ∨ op = 0x02 then some { two with rm := true }
  else if op = 0x03 then some { two with rm := true, c := tui, cw := n, neg := 0x1F }
  else if op = 0x04 ∨ op = 0x05 then some two
  else if op = 0x06 then some { two with d := 1, cmp := 13 }
  else none

/-- CVT opcodes, R192. -/
def cvtForm (op w : Nat) : Option VForm :=
  if op = 0x01 then
    some { a := tui, c := if isCodebook (wType2 w) then [1] else [], dw := if wType w = 1 then 2 else 1,
           aw := if wType2 w = 1 then 2 else 1, ty := true, ty2 := true, rm := true, sat := true }
  else if op = 0x02 then some { a := tui, func := 5 }
  else none

/-- CTRL opcodes, R201. -/
def ctrlForm (op : Nat) : Option VForm :=
  if op = 0x01 ∨ op = 0x06 then some { d := 4 }
  else if op = 0x02 then some { d := 4, imm := 32 }
  else if op = 0x03 then some { d := 4, a := [0, 1], aw := 2 }
  else if op = 0x04 then some { dw := 2, imm := 32 }
  else if op = 0x05 then some { dw := 2, a := [0, 1], aw := 2 }
  else if op = 0x07 then some { d := 4, imm := 16 }
  else if op = 0x08 then some { d := 2 }
  else if op = 0x09 then some { d := 4, imm := 7 }
  else none

/-- UNIF opcodes, R193. -/
def unifForm (op w : Nat) : Option VForm :=
  if op = 0x01 then some { d := 2, a := [1, 2] }
  else if op = 0x08 then some { d := 2, a := [1, 2], b := [1, 2], u := true }
  else if 0x02 ≤ op ∧ op ≤ 0x09 then some { d := 2, a := [1, 2], b := [1, 2] }
  else if op = 0x0A then some { d := 2, a := [0], aw := if wSz64 w then 2 else 1, sz := true }
  else none

/-- MTX opcodes, R203. -/
def mtxForm (op : Nat) : Option VForm :=
  if op = 0x01 then some { d := 5, a := [1] } else if op = 0x02 then some { d := 2, imm := 16 } else none

def vForm (cls op w : Nat) : Option VForm :=
  if cls = 1 then aluForm op w else if cls = 2 then fpuForm op w else if cls = 3 then cvtForm op w
  else if cls = 7 then ctrlForm op else if cls = 8 then unifForm op w else if cls = 9 then mtxForm op else none

/-- A source operand is legal: its kind, its index, the width of a t operand. -/
def srcOk (kinds : List Nat) (k i n : Nat) : Bool :=
  if kinds = [] then k == 0 && i == 0
  else kinds.contains k &&
    (if k = 0 then i % n == 0 else if k = 1 then decide (i ≤ 63) else if k = 2 then i == 0 else decide (i ≤ 7))

/-- A destination is legal. -/
def dstOk (d k i n : Nat) : Bool :=
  if d = 4 then k == 0 && i == 0
  else if d = 5 then k == 0 && decide (i ≤ 15)
  else k == d && (if d = 0 then i % n == 0 else if d = 1 then decide (i ≤ 7) else decide (i ≤ 63))

/-- Sources of kind 2. -/
def immCount (f : VForm) (w : Nat) : Nat :=
  b2n (f.a != [] && wAK w == 2) + b2n (f.b != [] && wBK w == 2) + b2n (f.c != [] && wCK w == 2)

/-- The types an opcode accepts: R191 for the FPU, R80 for CVT. -/
def typeOk (cls : Nat) (f : VForm) (w : Nat) : Bool :=
  if cls = 2 then decide (wType w ≤ 3)
  else if f.ty2 then (decide (wType w ≤ 10) || wType w == 13 || wType w == 14) && elValid (wType2 w)
  else wType w == 0

/-- A 16-bit floating-point immediate has zeros above it (R186). -/
def half (cls w : Nat) : Bool :=
  let t := if cls = 2 then wType w else wType2 w
  (cls == 2 || cls == 3) && (t == 2 || t == 3)

/-- The qualifier fields of format V are legal. -/
def qualOk (f : VForm) (w : Nat) : Bool :=
  (bits w 21 17 &&& (31 ^^^ f.neg)) == 0 && bits w 23 22 == 0 && !bit w 79 && bits w 95 88 == 0 &&
  (f.ty2 || wType2 w == 0) && (f.rm || wRM w == 0) && (f.sat || !wSat w) && (f.u || !wU w) && (f.sz || !wSz64 w) &&
  decide (wCmp w ≤ f.cmp) && decide (wFunc w ≤ f.func)

/-- A word of format V is legal, R185 to R193, R206. -/
def vLegal (cls : Nat) (f : VForm) (w : Nat) : Bool :=
  let n := immCount f w
  qualOk f w && dstOk f.d (wDK w) (wD w) f.dw && srcOk f.a (wAK w) (wA w) f.aw && srcOk f.b (wBK w) (wB w) f.bw &&
  srcOk f.c (wCK w) (wC w) f.cw && decide (n ≤ 1) && typeOk cls f w &&
  (if n = 1 then !half cls w || decide (wImm w < 65536) else decide (wImm w < 2 ^ f.imm))

/-! ### Format M, R194 to R200 -/

/-- Bytes that a MEM opcode moves; 0 for a reserved opcode. -/
def memWidth (op : Nat) : Nat :=
  if op = 0x01 ∨ op = 0x02 ∨ op = 0x11 then 1 else if op = 0x03 ∨ op = 0x04 ∨ op = 0x13 then 2
  else if op = 0x05 ∨ op = 0x15 then 4 else if op = 0x06 ∨ op = 0x16 then 8 else if op = 0x07 ∨ op = 0x17 then 16 else 0

def isLoadOp (op : Nat) : Bool := decide (op < 0x10)

/-- The base operand and the reserved bits of format M. -/
def mBase (w : Nat) : Bool :=
  bits w 63 58 == 0 && bits w 95 73 == 0 && decide (wAK w ≤ 1) &&
  (if wAK w = 1 then decide (wA w ≤ 63) else wSpace w || wA w % 2 == 0) &&
  decide (wScope w ≤ 2) && (wSem w != 0 || wScope w == 0)

/-- Barrier fields are zero. -/
def mNoBar (w : Nat) : Bool := bits w 72 69 == 0

def memLegal (op w : Nat) : Bool :=
  mBase w && mNoBar w && wB w == 0 && wC w == 0 && bits w 68 64 == 0 &&
  (if isLoadOp op then decide (wSem w ≤ 1) else (wSem w == 0 || wSem w == 2) && wCQ w != 2) &&
  (!wSpace w || wCQ w == 0) && wD w % max 1 (memWidth op / 4) == 0

def atomLegal (op w : Nat) : Bool :=
  let n := if wW64 w then 2 else 1
  mBase w && mNoBar w && wCQ w == 0 &&
  (if op ≤ 2 then
    decide (wAtop w ≤ 12) && wB w % n == 0 && (if wAtop w = 12 then wC w % n == 0 else wC w == 0) &&
      (if op = 1 then wD w % n == 0 else wD w == 0)
   else !wSpace w && wAtop w == 0 && wC w == 0 &&
      (if op = 3 then wB w == 0 && wD w % n == 0 else wB w % n == 0 && decide (wD w ≤ 7)))

def syncLegal (op w : Nat) : Bool :=
  !wSpace w && wCQ w == 0 && wD w == 0 && wA w == 0 && wB w == 0 && wC w == 0 && bits w 63 56 == 0 && bits w 68 64 == 0 &&
  bits w 95 73 == 0 && wImm w == 0 &&
  (if op = 1 then wSem w != 0 && decide (wScope w ≤ 2) && mNoBar w
   else wSem w == 0 && wScope w == 0 &&
     (if op = 2 then mNoBar w else wBScope w != 3 && (wBScope w != 2 || decide (wBNum w ≤ 1))))

/-! ### Format S, R204 -/

def streamLegal (op w : Nat) : Bool :=
  let n := 2 ^ wWidth w
  bits w 23 22 == 0 && bits w 127 56 == 0 && wWidth w != 3 && decide (wC w ≤ 7) && (wNB w || wC w == 0) &&
  (if op = 1 then wD w == 0 && wB w == 0 && wA w % n == 0
   else if op = 2 then wA w == 0 && wB w == 0 && wD w % n == 0
   else if op = 5 then wPort w == 0 && wWidth w == 0 && wB w == 0 && decide (wA w ≤ 63) && wD w % 8 == 0 && decide (wD w ≤ 63)
   else wWidth w == 0 && wD w == 0 && decide (wA w ≤ 63) && decide (wB w ≤ 63))

/-! ### Legality, R206 -/

/-- The class and opcode are defined, R184. -/
def opDefined (cls op w : Nat) : Bool :=
  if cls = 4 then memWidth op != 0
  else if cls = 5 then decide (1 ≤ op ∧ op ≤ 4)
  else if cls = 6 then decide (1 ≤ op ∧ op ≤ 3)
  else if cls = 10 then decide (1 ≤ op ∧ op ≤ 5)
  else (vForm cls op w).isSome

/-- A word whose class and opcode are defined is a legal encoding. -/
def legal (w : Nat) : Bool :=
  (wGE w || (wGP w == 0 && !wGN w)) &&
  (if wClass w = 4 then memLegal (wOp w) w
   else if wClass w = 5 then atomLegal (wOp w) w
   else if wClass w = 6 then syncLegal (wOp w) w
   else if wClass w = 10 then streamLegal (wOp w) w
   else match vForm (wClass w) (wOp w) w with
    | some f => vLegal (wClass w) f w
    | none => false)

/-! ### Registers and operands of a lane, R150, R186 -/

def Core.reg (k : Core) (t r : Nat) : Lane := tabGet 0 k.t (t * 256 + r)
def Core.setReg (k : Core) (t r : Nat) (v : Lane) : Core := { k with t := tabSet 0 k.t (t * 256 + r) v }
/-- n consecutive registers as one number, the lowest register lowest. -/
def Core.regs (k : Core) (t r : Nat) : Nat → Nat
  | 0 => 0
  | n + 1 => (k.reg t r).toNat + 2 ^ 32 * k.regs t (r + 1) n
/-- n consecutive registers written. -/
def Core.setRegs (k : Core) (t r v : Nat) : Nat → Core
  | 0 => k
  | n + 1 => (k.setReg t r (BitVec.ofNat 32 v)).setRegs t (r + 1) (v / 2 ^ 32) n
def Core.pred (k : Core) (t i : Nat) : Bool := k.p.contains (t * 8 + i)
def Core.setPred (k : Core) (t i : Nat) (b : Bool) : Core :=
  { k with p := if b then setIns k.p (t * 8 + i) else setDel k.p (t * 8 + i) }
def Core.ureg (k : Core) (g r : Nat) : Word := tabGet 0 k.u (g * 64 + r)
def Core.setUreg (k : Core) (g r : Nat) (v : Nat) : Core := { k with u := tabSet 0 k.u (g * 64 + r) (BitVec.ofNat 64 v) }
def Core.token (k : Core) (g r : Nat) : Tok := tabGet ⟨false, 0⟩ k.tok (g * 16 + r)
def Core.setToken (k : Core) (g r : Nat) (v : Tok) : Core := { k with tok := tabSet ⟨false, 0⟩ k.tok (g * 16 + r) v }
def Core.thPc (k : Core) (t : Nat) : Nat := tabGet 0 k.pc t
def Core.setPc (k : Core) (t v : Nat) : Core := { k with pc := tabSet 0 k.pc t (v % 2 ^ 64) }

/-- The scratchpad's size P, R155. -/
def Core.P (k : Core) : Nat := (11 - k.wcache) * 65536

/-- A source operand of a thread: n = 1 for 32 bits or fewer, 2 for 64; `imm2` widens the immediate. -/
def Core.src (k : Core) (t kind i n imm : Nat) : Nat :=
  if kind = 0 then k.regs t i n
  else if kind = 1 then (k.ureg (t / 32) i).toNat % 2 ^ (32 * n)
  else if kind = 2 then (if n = 2 then wrap 64 (toSigned 32 imm) else imm)
  else b2n (k.pred t i)

/-- An FP64 operand's immediate: the FP32 encoding widened bit for bit (R186). -/
def widen64 (n : Nat) : Nat :=
  match decodeFloat 0 n with
  | .nan _ => b2n (bit n 31) * 2 ^ 63 + 2047 * 2 ^ 52 + n % 2 ^ 23 * 2 ^ 29
  | v => (convTo 1 0 false v).1

end Sys2Proof.Machine
end

