-- ==== Sys2Proof/Machine/Flags.lean ====
section
/-! DEFINITION. FSTAT (R79) and the carry of ADDC (R188): every flag that a core instruction writes. -/

namespace Sys2Proof.Machine

/-- FSTAT of an original group. -/
def Core.flags (k : Core) (g : Nat) : Nat := tabGet 0 k.fstat g

/-- Flags raised by a lane join the group's sticky word. -/
def Core.raiseFlags (k : Core) (g fl : Nat) : Core := { k with fstat := tabSet 0 k.fstat g (k.flags g ||| fl) }

/-- Flags cleared, R201. -/
def Core.clearFlags (k : Core) (g m : Nat) : Core :=
  { k with fstat := tabSet 0 k.fstat g (k.flags g &&& (127 ^^^ (m &&& 127))) }

/-- The sum of ADDC and its carry out, n registers wide. -/
def addCarry (n a b c : Nat) : Nat × Bool := ((a + b + c) % 2 ^ (32 * n), decide (2 ^ (32 * n) ≤ a + b + c))

end Sys2Proof.Machine
end

