-- ==== Sys2Proof/Machine/Xlate.lean ====
section
/-! DEFINITION. Device page tables, translation and the host-window checks (R50 to R65). -/

namespace Sys2Proof.Machine

/-- What an access asks of a translation. -/
inductive Acc where
  | read | write | fetch
  deriving DecidableEq, Repr

def Acc.isWrite (a : Acc) : Bool := a == .write
def Acc.isFetch (a : Acc) : Bool := a == .fetch

/-- A translation that holds: the page and its attributes. -/
structure Page where
  va : Nat
  lg : Nat
  pa : Nat
  w : Bool
  x : Bool
  cc : Nat
  near : Bool
  setup : Bool
  deriving DecidableEq, Repr

/-- The outcome of one walk level, R56. -/
inductive WalkRes where
  | fault (code pa : Nat)
  | next (table : Nat)
  | leaf (p : Page)
  deriving DecidableEq, Repr

/-- The outcome of a translation. -/
inductive XRes where
  | miss
  | fault (code level pa : Nat)
  | ok (p : Page) (pa : Nat)
  deriving DecidableEq, Repr

/-- log2 of the bytes that an entry of a level covers. -/
def levelShift (level : Nat) : Nat := 12 + 9 * level

/-- Index of a virtual address at a level, R54. -/
def levelIndex (level va : Nat) : Nat :=
  if level = 3 then bits va 51 39 else bits va (levelShift level + 8) (levelShift level)

/-- The checks on the address reached through a leaf, R56: hole, setup space, then permission. -/
def reachCheck (p : Page) (pa : Nat) (a : Acc) : Nat :=
  let r := region pa
  if r = .hole then 0x08
  else if (r = .setup0 ∨ r = .setup2) ∧ p.setup = false then 0x09
  else if a.isWrite && !p.w then 0x02
  else if a.isFetch && !p.x then 0x03
  else 0

/-- An entry at address `at'` checked at its level, R56; `lg` is the leaf's page size. A fault carries the physical
address reached (R63): the access's own through a leaf, a table's, and otherwise the entry's (DEDUCED 96). -/
def entryCheck (level va at' e lg : Nat) (poison setup : Bool) (a : Acc) : WalkRes :=
  let leaf := bit e 1
  let addr := bits e 56 12 * 4096
  let pa := addr + va % 2 ^ lg
  let p : Page := ⟨va / 2 ^ lg * 2 ^ lg, lg, addr, bit e 2, bit e 3, bits e 6 5, bit e 7, setup⟩
  if poison then .fault 0x0B at'
  else if !bit e 0 then .fault 0x01 at'
  else if bits e 63 57 ≠ 0 ∨ (leaf = false ∧ bits e 11 2 ≠ 0) ∨ (leaf = true ∧ (bits e 11 8 ≠ 0 ∨ bits e 6 5 = 3)) then
    .fault 0x04 at'
  else if (leaf = true ∧ level = 3) ∨ (leaf = false ∧ level = 0) ∨ (bit e 4 = true ∧ level ≠ 0) then .fault 0x06 at'
  else if leaf then
    if addr % 2 ^ lg ≠ 0 then .fault 0x05 addr
    else if region addr = .hole ∨ region pa = .hole then .fault 0x08 pa
    else if (region addr = .setup0 ∨ region addr = .setup2) ∧ setup = false then .fault 0x09 pa
    else
      match reachCheck p pa a with
      | 0 => .leaf p
      | c => .fault c pa
  else if addr ≥ localTop then .fault 0x07 addr
  else .next addr

/-- The entry that a walk reads at a level of a table: at L0 the 64 KiB entry of the group stands for all sixteen while
it has V and PS64 (R57). -/
def State.walkLevel (s : State) (level table va : Nat) (setup : Bool) (a : Acc) : WalkRes :=
  let i := levelIndex level va
  let g := table + 8 * (i / 16 * 16)
  let e := table + 8 * i
  let big := s.peekNum g 8
  if level = 0 ∧ s.poisonIn g 8 then .fault 0x0B g
  else if level = 0 ∧ bit big 0 ∧ bit big 4 then entryCheck 0 va g big 16 false setup a
  else entryCheck level va e (s.peekNum e 8) (levelShift level) (s.poisonIn e 8) setup a

/-- A whole walk from a level down. -/
def State.walkFrom (s : State) (va : Nat) (setup : Bool) (a : Acc) : Nat → Nat → XRes
  | 0, table => match s.walkLevel 0 table va setup a with
    | .fault c pa => .fault c 0 pa
    | .next t => .fault 0x06 0 t
    | .leaf p => .ok p (p.pa + va % 2 ^ p.lg)
  | l + 1, table => match s.walkLevel (l + 1) table va setup a with
    | .fault c pa => .fault c (l + 1) pa
    | .next t => s.walkFrom va setup a l t
    | .leaf p => .ok p (p.pa + va % 2 ^ p.lg)

/-- The root table of a context and its SETUP bit, R59. -/
def State.root (s : State) (ctx : Nat) : Nat := s.get (F.PT_CTX_ROOT_ROOT ctx) * 65536
def State.ctxSetup (s : State) (ctx : Nat) : Bool := s.on (F.PT_CTX_ROOT_SETUP ctx)

/-- What a context's root pointer makes its walks give at level 3, R59: 0, or the fault's code. -/
def State.rootCode (s : State) (ctx : Nat) : Nat :=
  let v := (s.raw (A.PT_CTX_ROOT ctx)).toNat
  if bits v 15 1 ≠ 0 ∨ bits v 63 57 ≠ 0 then 0x04 else if s.root ctx ≥ localTop then 0x07 else 0

/-- A translation by a Pump, a Lighter or the front end: they walk afresh at each access, and hold nothing (R60). -/
def State.walk (s : State) (ctx va : Nat) (a : Acc) : XRes :=
  if va ≥ 2 ^ 52 then .fault 0x0A 7 0
  else if s.rootCode ctx ≠ 0 then .fault (s.rootCode ctx) 3 (s.root ctx)
  else s.walkFrom va (s.ctxSetup ctx) a 3 (s.root ctx)

/-- The cached translation of an agent that covers an address. -/
def State.tlbFind (s : State) (agent unit ctx va : Nat) : Option TlbEnt :=
  s.host.tlb.find? fun e => e.agent == agent && e.unit == unit && e.ctx == ctx && e.va == va / 2 ^ e.lg * 2 ^ e.lg

def TlbEnt.page (e : TlbEnt) : Page := ⟨e.va, e.lg, e.pa, e.w, e.x, e.cc, e.near, e.setup⟩

/-- A translation by a core through its cache, R56, R60. -/
def State.xlate (s : State) (core ctx va : Nat) (a : Acc) : XRes :=
  if va ≥ 2 ^ 52 then .fault 0x0A 7 0
  else
    match s.tlbFind 0 core ctx va with
    | none => if s.rootCode ctx ≠ 0 then .fault (s.rootCode ctx) 3 (s.root ctx) else .miss
    | some e =>
      let pa := e.pa + va % 2 ^ e.lg
      match reachCheck e.page pa a with
      | 0 => .ok e.page pa
      | c => .fault c ((e.lg - 12) / 9) pa

/-- A translation enters an agent's cache. -/
def State.tlbAdd (s : State) (agent unit ctx : Nat) (p : Page) : State :=
  { s with host := { s.host with tlb := ⟨agent, unit, ctx, p.va, p.lg, p.pa, p.w, p.x, p.cc, p.near, p.setup⟩ ::
      s.host.tlb } }

/-- A walk for a core starts, once for the address. -/
def State.walkStart (s : State) (core group pc : Nat) (lanes : List Nat) (word ctx part va : Nat) (a : Acc) : State :=
  if s.host.walks.any fun w => w.unit == core && w.va == va && w.ctx == ctx then s
  else
    let acc := if a.isWrite then 1 else if a.isFetch then 2 else 0
    { s with host := { s.host with walks := s.host.walks ++
        [⟨0, core, ctx, part, va, acc, 3, s.root ctx, s.ctxSetup ctx, group, pc, lanes, word⟩] } }

/-! ### The host window, R50, R51 -/

/-- The chunk of a host-window address, and the host bus address it maps to. -/
def hwinChunk (a : Nat) : Nat := (a - 0x010000000000) / 2 ^ 30
def State.hostAddr (s : State) (a : Nat) : Nat := s.get (F.PT_HWIN_HADDR (hwinChunk a)) * 2 ^ 30 + a % 2 ^ 30
def State.hwinFunc (s : State) (a : Nat) : Nat := s.get (F.PT_HWIN_FUNC (hwinChunk a))

/-- The check of one access through the host window: 0, or the lowest code that holds. -/
def State.hwinCheck (s : State) (part : Nat) (write : Bool) (a : Nat) : Nat :=
  let i := hwinChunk a
  let f := s.get (F.PT_HWIN_FUNC i)
  if !s.on (F.PT_HWIN_V i) then 0x10
  else if write && !s.on (F.PT_HWIN_W i) then 0x11
  else if s.get (F.PT_HWIN_PART i) ≠ part ∨ (f ≠ 0 ∧ !s.boundTo f part) then 0x12
  else 0

/-- The look-up of an address: its entry as it stands, in bits 63:0, and above it EN and SEL of the dirty log, which a write
keeps until it leaves (R412, R413). -/
def State.hwinLook (s : State) (a : Nat) : Nat :=
  (s.raw (A.PT_HWIN (hwinChunk a))).toNat + 2 ^ 64 * s.get F.PT_DIRTY_CTL_EN + 2 ^ 65 * s.get F.PT_DIRTY_CTL_SEL

/-- A write with this look-up is logged. -/
def lookLogged (e : Nat) : Bool := bit e 64 && bit e 3

/-- A byte of a bitmap with the marks that still wait at its home. -/
def State.dirtyByte (s : State) (b : Nat) : Byte :=
  (s.unserved.filter fun r => r.agent == 3 && r.unit == dirtyUnit && r.addr / 128 == b / 128).foldl (fun v r =>
    match r.kind with
    | .wrPart d _ => (tabFind d (b % 128)).getD v
    | _ => v) (s.peekByte b)

/-- The dirty log's mark for a write whose look-up is e, R412. -/
def State.dirtyMark (s : State) (e a k : Nat) : State :=
  if lookLogged e then
    let base := s.get (F.PT_DIRTY_BASE_BASE (bits e 65 65)) * 2 ^ 25
    let first := (a - 0x010000000000) / 4096
    s.each (List.range ((a % 4096 + k + 4095) / 4096)) fun s i =>
      let b := base + (first + i) / 8
      s.pokeAs 3 dirtyUnit b [s.dirtyByte b ||| BitVec.ofNat 8 (2 ^ ((first + i) % 8))]
  else s

def State.hwinSnoop (s : State) (a : Nat) : Bool := s.on (F.PT_HWIN_NS (hwinChunk a))

/-- A posted write of an agent on a Quay whose look-up is e leaves for the host (R52). -/
def State.hostPostBy (s : State) (quay e a : Nat) (l : List Byte) : State :=
  (s.dirtyMark e a l.length).toHost quay (.hostWrite (bits e 13 8) (bits e 63 30 * 2 ^ 30 + a % 2 ^ 30) l (bit e 2))

/-- A posted write that has passed its checks leaves for the host. -/
def State.hostPost (s : State) (quay a : Nat) (l : List Byte) : State := s.hostPostBy quay (s.hwinLook a) a l

/-- A tag is free: at most 8,192 reads to the host are outstanding (R35). -/
def State.readRoom (s : State) : Bool := decide (s.host.reads.length < 8192)

/-- A read of the host window that has passed its checks leaves for the host. -/
def State.hostAsk (s : State) (quay a k : Nat) : State :=
  s.toHost quay (.hostRead (s.hwinFunc a) (s.hostAddr a) k (s.hwinSnoop a))

end Sys2Proof.Machine
end

