-- ==== Sys2Proof/Machine/Issue.lean ====
section
/-! DEFINITION. The issue of one instruction: the fragment, the fetch, legality, the guard, exceptions and the advance
of program counters (R149 to R160, R176 to R183). -/

namespace Sys2Proof.Machine

/-- An instruction about to take effect: the threads of the issue and those that the guard lets execute. -/
structure Op where
  core : Nat
  group : Nat
  pc : Nat
  w : Nat
  blk : Blk
  all : List Nat
  ex : List Nat
  deriving DecidableEq, Repr

/-- The instruction's requests that are out. -/
def Core.flight (k : Core) (group pc : Nat) : Option Flight := k.flights.find? fun f => f.group == group && f.pc == pc

/-- The threads that an instruction of the fragment in flight, or its release under way, belongs to. -/
def Core.bound (k : Core) (group pc : Nat) : Option (List Nat) :=
  match k.flight group pc with
  | some f => some f.lanes
  | none => (k.rels.find? fun r => r.group == group && r.pc == pc).map (·.lanes)

/-- The live, non-waiting threads of the group at the program counter; of an instruction in flight, its own threads. -/
def Core.fragment (k : Core) (group pc : Nat) : List Nat :=
  let l := ((List.range 32).map (group * 32 + ·)).filter fun t =>
    k.live.contains t && k.thPc t == pc && (tabFind k.wait t).isNone
  match k.bound group pc with
  | none => l
  | some b => l.filter fun t => b.contains t

/-- A lane executes, R183. -/
def guardOk (k : Core) (w t : Nat) : Bool := !wGE w || (k.pred t (wGP w) != wGN w)

/-- The program counters of threads move on to the next instruction, R181. -/
def Core.advance (k : Core) (l : List Nat) : Core := l.foldl (fun k t => k.setPc t (k.thPc t + 16)) k

/-- An issue of the group by some of its threads is counted (R157). -/
def Core.counted (k : Core) (group : Nat) (l : List Nat) : Core :=
  let n := tabGet 0 k.turns group + 1
  { k with turns := tabSet 0 k.turns group n, lastTurn := l.foldl (fun m t => tabSet 0 m t n) k.lastTurn }

/-- The instruction ends: every thread of the issue moves on. -/
def State.done (s : State) (o : Op) (k : Core) : State := s.setCore o.core ((k.advance o.all).counted o.group o.all)

/-! ### Which fragment issues, R157 -/

/-- Live threads of the group that do not wait. -/
def Core.movers (k : Core) (group : Nat) : List Nat :=
  ((List.range 32).map (group * 32 + ·)).filter fun t => k.live.contains t && (tabFind k.wait t).isNone

/-- The program counters of the group's fragments. -/
def Core.fragPcs (k : Core) (group : Nat) : List Nat := ((k.movers group).map k.thPc).eraseDups

/-- The issues of the group since some thread of the fragment issued last. -/
def Core.age (k : Core) (group pc : Nat) : Nat :=
  ((k.movers group).filter fun t => k.thPc t == pc).foldl (fun a t => max a (tabGet 0 k.turns group - tabGet 0 k.lastTurn t)) 0

/-- The fragment at `a` goes before that at `b`: the lower program counter, but for one that has not issued in the group's
last 256 issues. DESIGN CHOICE: of several such the one that has waited longest goes first. -/
def Core.goesBefore (k : Core) (group a b : Nat) : Bool :=
  let x := k.age group a
  let y := k.age group b
  if 256 ≤ x then decide (y < x) || (x == y && decide (a < b)) else decide (y < 256 ∧ a < b)

/-- It is the fragment's turn: no other one that is ready goes before it. An instruction that is under way has had its turn. -/
def Core.turn (k : Core) (at' : Issue) : Bool :=
  (k.bound at'.group at'.pc).isSome ||
  (k.fragPcs at'.group).all fun p => p == at'.pc || at'.waits.contains p || k.goesBefore at'.group at'.pc p

/-- Bit mask of the lanes of some threads. -/
def laneMask (l : List Nat) : Nat := l.foldl (fun m t => m ||| 2 ^ (t % 32)) 0

/-- What an exception reports beside its code. -/
structure ExcInfo where
  va : Nat := 0
  pa : Nat := 0
  level : Nat := 7
  write : Bool := false
  fetch : Bool := false
  extra : List Nat := []
  deriving DecidableEq, Repr

/-- An exception is taken on a core, unless one is already being taken: no lane of the issue has any effect, and issue
stops (R177, R178 steps 1 and 2). -/
def State.raise (s : State) (core group pc w : Nat) (lanes : List Nat) (code : Nat) (i : ExcInfo := {}) : State :=
  let k := s.core core
  match k.exc with
  | some _ => s
  | none =>
    s.setCore core { k with exc := some ⟨code, group, pc, lanes, w, i.va, i.pa, i.level, i.write, i.fetch, i.extra⟩ }

def State.raiseOp (s : State) (o : Op) (code : Nat) (i : ExcInfo := {}) : State :=
  s.raise o.core o.group o.pc o.w o.all code i

/-! ### Debug halt, R543, R544 -/

/-- The breakpoint that a program counter about to issue matches. -/
def State.breakHit (s : State) (pc : Nat) : Option Nat :=
  (List.range 4).find? fun i => s.on (F.TD_BRK_EN i) && s.get (F.TD_BRK_ADDR i) * 16 == pc

/-- Cores that run a core block of a context. -/
def State.coresOf (s : State) (ctx : Nat) : List Nat :=
  (s.cores.filter fun e => (e.2.blk.map (·.ctx)) == some ctx).map (·.1)

/-! ### The store buffer emptied, R179, R243, R244 -/

/-- The contiguous runs of written bytes, ascending. -/
def runs : Data → List (Nat × List Byte)
  | [] => []
  | (o, b) :: r => match runs r with
    | (o', l) :: t => if o' = o + 1 then (o, b :: l) :: t else (o, [b]) :: (o', l) :: t
    | [] => [(o, [b])]

/-- A host-window entry leaves as one posted write for each run, through the entry that its stores looked up. -/
def State.hostRuns (s : State) (core : Nat) (e : SbEnt) : State :=
  s.each (runs e.bytes) fun s r => s.hostPostBy (core / 512) e.win (e.line * 128 + r.1) r.2

/-- One entry drained to the cluster cache, or handed to the host (R243). -/
def State.flushEntry (s : State) (core : Nat) (e : SbEnt) : State :=
  match region (e.line * 128) with
  | .localMem => (s.drainLocal core e).sampleTime 3 core
  | .hostWin => (s.hostRuns core e).sampleTime 3 core
  | _ => s

/-- An entry drains by its own row: setup space, or a line to which a reduction of the core is on its way. -/
def State.sbHolds (s : State) (core : Nat) (e : SbEnt) : Bool :=
  e.setup || (region (e.line * 128) == .localMem && s.lineOut core e.line)

/-- A core's buffered stores drain in the order in which the entries closed, up to one that drains by its own row: that one
and those behind it wait (R243). -/
def State.flushCore (s : State) (core : Nat) : State :=
  let k := s.core core
  if k.blk.isNone then s
  else
    let t := s.setCore core { k with sb := (k.sb.dropWhile fun e => !s.sbHolds core e).map fun e => { e with closed := true } }
    t.each (k.sb.takeWhile fun e => !s.sbHolds core e) fun s e => s.flushEntry core e

/-! ### The issue -/

/-- The core may issue. -/
def Core.canIssue (k : Core) : Bool := !k.stopped && k.exc.isNone

/-- The register or Well word that a lane reads is bad (R176): the exception is 0x36 of that lane, unless a lower lane
raises one, or this lane one with a lower code (R177); a translation that one of them misses comes first. The error counts 256
against the cluster (R514). -/
def State.badLane (s : State) (o : Op) (lane : Nat) (body : Op → State → State) : State :=
  let tried := fun (f : Nat → Bool) => body { o with ex := o.ex.filter f } s
  let stops := fun (t : State) => (t.core o.core).exc.isSome || decide (t.host.walks.length ≠ s.host.walks.length)
  let low := tried fun t => decide (t % 32 < lane)
  let here := tried fun t => t % 32 == lane
  if o.ex.any (fun t => decide (t % 32 < lane)) && stops low then low
  else if stops here && (match (here.core o.core).exc with | some x => decide (x.code < 0x36) | none => true) then here
  else (s.wear 5 (s.clPhys (o.core / 8) - 1) 256).raiseOp o 0x36

/-- The fetched word decides: another row's word is no command of this row; a reserved class or opcode, or an illegal
encoding, raises 0x30; lanes without a true guard carry on (R183, R206); an uncorrectable error in what an executing lane
reads raises 0x36 (R176), but not where its requests are out: its operands have been read, and memory may be written (R177). -/
def State.issueWord (s : State) (cls op : Nat) (at' : Issue) (w : Nat) (b : Blk) (all : List Nat)
    (body : Op → State → State) : State :=
  let k := s.core at'.core
  if !opDefined (wClass w) (wOp w) w then s.raise at'.core at'.group at'.pc w all 0x30
  else if wClass w ≠ cls ∨ wOp w ≠ op then s
  else if !legal w then s.raise at'.core at'.group at'.pc w all 0x30
  else
    match all.filter (guardOk k w) with
    | [] => s.setCore at'.core ((k.advance all).counted at'.group all)
    | ex =>
      let o : Op := ⟨at'.core, at'.group, at'.pc, w, b, all, ex⟩
      match at'.bad.filter fun _ => (k.flight at'.group at'.pc).isNone with
      | some lane => if ex.any fun t => t % 32 == lane then s.badLane o lane body else body o s
      | none => body o s

/-- The fetch through the context's page tables from a page with X (R181), then the word. -/
def State.issueAt (s : State) (cls op : Nat) (at' : Issue) (w : Nat) (b : Blk) (all : List Nat)
    (body : Op → State → State) : State :=
  match s.xlate at'.core b.ctx at'.pc .fetch with
  | .miss => s.walkStart at'.core at'.group at'.pc all w b.ctx b.part at'.pc .fetch
  | .fault c l pa => s.raise at'.core at'.group at'.pc 0 all c { va := at'.pc, pa := pa, level := l, fetch := true }
  | .ok _ _ => s.issueWord cls op at' w b all body

/-- A debug halt of the target by an event on a core: its cores stop issue, the event is recorded. -/
def State.haltCores (s : State) (ctx cause core group brk : Nat) : State :=
  let s := (s.coresOf ctx).foldl (fun s c => s.setCore c { s.core c with stopped := true }) s
  let s := { s with dbg := { s.dbg with step := none } }.set F.TD_DBG_CTL_BUSY 0
  let s := s.set F.TD_DBG_STAT_HALTED 1
  let s := s.set F.TD_DBG_STAT_CAUSE cause
  let s := s.set F.TD_DBG_STAT_CORE core
  let s := s.set F.TD_DBG_STAT_GROUP group
  let s := s.set F.TD_DBG_STAT_BRK brk
  s.event 5 17 0x02 none core ctx [cause, core, group]

/-- The target halts: its cores stop and their store buffers drain (R543, R544). -/
def State.halt (s : State) (ctx cause core group brk : Nat) : State :=
  let s := s.haltCores ctx cause core group brk
  s.each (s.coresOf ctx) fun s c => s.flushCore c

/-- An armed step of a halted target: the instruction issues, and when it is through the target halts again. -/
def State.stepAt (s : State) (cls op : Nat) (at' : Issue) (w : Nat) (b : Blk) (all : List Nat)
    (body : Op → State → State) : State :=
  let t := s.issueAt cls op at' w b all body
  if (t.core at'.core).exc.isNone && tabGet 0 (t.core at'.core).turns at'.group == tabGet 0 (s.core at'.core).turns at'.group then t
  else t.halt b.ctx 2 at'.core at'.group 0

/-- An instruction of row (class, opcode) issues, if the core holds a fragment there, may issue, and it is the fragment's turn. -/
def State.instr (s : State) (cls op : Nat) (at' : Issue) (w : BitVec 128) (body : Op → State → State) : State :=
  let k := s.core at'.core
  match k.blk, k.fragment at'.group at'.pc with
  | none, _ => s
  | some _, [] => s
  | some b, all =>
    if k.exc.isSome ∨ s.running = false then s
    else if k.stopped then
      if s.dbg.step = some (at'.core, at'.group, at'.pc) then s.stepAt cls op at' w.toNat b all body else s
    else if k.turn at' = false then s
    else if s.dbg.target = some b.ctx then
      match s.breakHit at'.pc with
      | some i => s.halt b.ctx 1 at'.core at'.group i
      | none => s.issueAt cls op at' w.toNat b all body
    else s.issueAt cls op at' w.toNat b all body

end Sys2Proof.Machine
end

