-- ==== Sys2Proof/Machine/Sfu.lean ====
section
/-! DEFINITION. The accuracy of the special functions (R162): their true values in fixed point, with an error far below the
bounds of the rule, and the test of a result against them. -/

namespace Sys2Proof.Machine

/-! ### Fixed point: integers in units of 2^−200 -/

def fxOne : Int := 2 ^ 200
def fxMul (a b : Int) : Int := a * b / fxOne
/-- m × 2^e. -/
def fxOf (neg : Bool) (m : Nat) (e : Int) : Int :=
  let v : Int := if -200 ≤ e then (m : Int) * 2 ^ (e + 200).toNat else (m : Int) / 2 ^ (-(e + 200)).toNat
  if neg then -v else v

/-- Sum of t z2^i / (2k + 2i + 1) over n terms: the artanh of t for z2 = t², its arctan for z2 = −t². -/
def oddSeries (z2 : Int) : Nat → Int → Int → Int
  | 0, _, _ => 0
  | n + 1, t, k => t / (2 * k + 1) + oddSeries z2 n (fxMul t z2) (k + 1)

/-- Sum of x^i / i! over n terms. -/
def expSeries (x : Int) : Nat → Int → Int → Int
  | 0, _, _ => 0
  | n + 1, t, k => t + expSeries x n (fxMul t x / (k + 1)) (k + 1)

/-- The sine from the term t of order k, the cosine from order 0; x2 is the square of the angle. -/
def sinSeries (x2 : Int) : Nat → Int → Int → Int
  | 0, _, _ => 0
  | n + 1, t, k => t + sinSeries x2 n (-(fxMul t x2) / ((k + 1) * (k + 2))) (k + 2)

def fxLn2 : Int := 2 * oddSeries (fxOne / 9) 70 (fxOne / 3) 0
/-- Machin's formula. -/
def fxPi : Int := 16 * oddSeries (-(fxOne / 25)) 50 (fxOne / 5) 0 - 4 * oddSeries (-(fxOne / 57121)) 20 (fxOne / 239) 0

/-- The square root by Newton's rule from above. -/
def newton (n : Nat) : Nat → Nat → Nat
  | 0, x => x
  | k + 1, x => newton n k ((x + n / x) / 2)

/-! ### The true values -/

/-- sin(π r): the quadrant, then the sine or the cosine of at most π / 4. -/
def sinPi (r : Int) : Int :=
  let q := (4 * r + fxOne) / (2 * fxOne)
  let a := fxMul fxPi (r - q * fxOne / 2)
  let x2 := fxMul a a
  let s := sinSeries x2 30 a 1
  let c := sinSeries x2 30 fxOne 0
  if q % 4 = 0 then s else if q % 4 = 1 then c else if q % 4 = 2 then -s else -c

/-- The true value of a function at a finite number that R162's table gives no special value: t × 2^sh, t in fixed point. -/
def sfuReal (func : Nat) (neg : Bool) (m : Nat) (e : Int) : Int × Int :=
  let x := fxOf neg m e
  let l := floorLog m e
  let mant := (m : Int) * 2 ^ (200 - m.log2)
  if func = 0 then (expSeries (fxMul (x % fxOne) fxLn2) 50 fxOne 0, min 128 (max (x / fxOne) (-400)))
  else if func = 1 then
    let z := (mant - fxOne) * fxOne / (mant + fxOne)
    (l * fxOne + 2 * oddSeries (fxMul z z) 70 z 0 * fxOne / fxLn2, 0)
  else if func = 2 then ((if neg then -1 else 1) * (fxOne * fxOne / mant), -l)
  else if func = 3 then
    let odd := l % 2
    ((newton (2 ^ 600 / (mant * (1 + odd)).toNat) 20 (2 ^ 201) : Nat), -((l - odd) / 2))
  else if func = 4 then (sinPi (x % (2 * fxOne)), 0)
  else (sinPi ((x + fxOne / 2) % (2 * fxOne)), 0)

/-- An FP32 number lies within the accuracy of the function: ulps at the true value, with the spacing at 2^−126 below that,
or 2^−22 for the sine and the cosine. -/
def sfuNear (func : Nat) (v : Int × Int) (y : Val) : Bool :=
  match y with
  | .fin neg m e =>
    let t := v.1 * 2 ^ 256
    let a : Int := (if neg then -1 else 1) * ((m : Int) * 2 ^ (e + 456 - v.2).toNat)
    let u := max ((v.1.natAbs.log2 : Int) + v.2 - 200) (-126) - 23
    let ulps : Nat := if func = 2 then 1 else 2
    let bound : Nat := if 4 ≤ func then 2 ^ 434 else ulps * 2 ^ (u + 456 - v.2).toNat
    decide ((a - t).natAbs ≤ bound + 2 ^ 280)
  | _ => false

/-- A drawn result that is within the accuracy, or else the true value rounded to nearest. -/
def sfuWithin (func : Nat) (neg : Bool) (m : Nat) (e : Int) (draw : Nat) : Nat :=
  let v := sfuReal func neg m e
  if sfuNear func v (decodeEl 0 draw) then draw else (convTo 0 0 false (.fin (decide (v.1 < 0)) v.1.natAbs (v.2 - 200))).1

end Sys2Proof.Machine
end

