-- ==== Sys2Proof/Machine/Alu.lean ====
section
/-! DEFINITION. The ALU, FPU, CVT and UNIF classes (R162, R185 to R193). -/

namespace Sys2Proof.Machine

/-! ### Shared forms -/

/-- Each executing thread's n destination registers take a value computed from the registers before the issue. -/
def State.lanesT (o : Op) (n : Nat) (f : Core → Nat → Nat) (s : State) : State :=
  let k := s.core o.core
  s.done o (o.ex.foldl (fun r t => r.setRegs t (wD o.w) (f k t) n) k)

/-- Each executing thread's predicate D takes a truth value. -/
def State.lanesP (o : Op) (f : Core → Nat → Bool) (s : State) : State :=
  let k := s.core o.core
  s.done o (o.ex.foldl (fun r t => r.setPred t (wD o.w) (f k t)) k)

/-- As `lanesT`, with the flags that each thread raises. -/
def State.lanesF (o : Op) (n : Nat) (f : Core → Nat → Nat × Nat) (s : State) : State :=
  let k := s.core o.core
  s.done o (o.ex.foldl (fun r t => (r.setRegs t (wD o.w) (f k t).1 n).raiseFlags o.group (f k t).2) k)

def srcA (w n : Nat) (k : Core) (t : Nat) : Nat := k.src t (wAK w) (wA w) n (wImm w)
def srcB (w n : Nat) (k : Core) (t : Nat) : Nat := k.src t (wBK w) (wB w) n (wImm w)
def srcC (w n : Nat) (k : Core) (t : Nat) : Nat := k.src t (wCK w) (wC w) n (wImm w)

/-- Registers of an ALU operand: SZ64 selects pairs. -/
def aluN (w : Nat) : Nat := if wSz64 w then 2 else 1

/-- A two-operand ALU operation on values of the given width in bits. -/
def State.alu2 (f : Nat → Nat → Nat → Nat) (o : Op) (s : State) : State :=
  let n := aluN o.w
  s.lanesT o n fun k t => f (32 * n) (srcA o.w n k t) (srcB o.w n k t) % 2 ^ (32 * n)

/-- A one-operand ALU operation. -/
def State.alu1 (f : Nat → Nat → Nat) (o : Op) (s : State) : State :=
  let n := aluN o.w
  s.lanesT o n fun k t => f (32 * n) (srcA o.w n k t) % 2 ^ (32 * n)

/-- A value read as signed, or unsigned with U. -/
def asInt (w width n : Nat) : Int := if wU w then (n : Int) else toSigned width n

/-! ### ALU, R188, R189 -/

def execMov (at' : Issue) (w : BitVec 128) (s : State) : Out := .next <| s.instr 1 0x01 at' w (State.alu1 fun _ a => a)
def execAdd (at' : Issue) (w : BitVec 128) (s : State) : Out := .next <| s.instr 1 0x02 at' w (State.alu2 fun _ a b => a + b)
def execSub (at' : Issue) (w : BitVec 128) (s : State) : Out :=
  .next <| s.instr 1 0x03 at' w (State.alu2 fun m a b => a + 2 ^ m - b)

def State.addc (o : Op) (s : State) : State :=
  let n := aluN o.w
  let k := s.core o.core
  let r := fun t => addCarry n (srcA o.w n k t) (srcB o.w n k t) (b2n (k.pred t (wC o.w)))
  s.done o (o.ex.foldl (fun c t => (c.setRegs t (wD o.w) (r t).1 n).setPred t (wC o.w) (r t).2) k)

def execAddc (at' : Issue) (w : BitVec 128) (s : State) : Out := .next <| s.instr 1 0x04 at' w State.addc
def execMul (at' : Issue) (w : BitVec 128) (s : State) : Out := .next <| s.instr 1 0x05 at' w (State.alu2 fun _ a b => a * b)

/-- The high half of a product. -/
def mulHigh (u : Bool) (m a b : Nat) : Nat :=
  if u then a * b / 2 ^ m else wrap m (toSigned m a * toSigned m b / (2 ^ m : Nat))

def execMulhi (at' : Issue) (w : BitVec 128) (s : State) : Out :=
  .next <| s.instr 1 0x06 at' w fun o => State.alu2 (mulHigh (wU o.w)) o

def State.mad (o : Op) (s : State) : State :=
  let n := aluN o.w
  s.lanesT o n fun k t => (srcA o.w n k t * srcB o.w n k t + srcC o.w n k t) % 2 ^ (32 * n)

def execMad (at' : Issue) (w : BitVec 128) (s : State) : Out := .next <| s.instr 1 0x07 at' w State.mad
def execAnd (at' : Issue) (w : BitVec 128) (s : State) : Out := .next <| s.instr 1 0x08 at' w (State.alu2 fun _ a b => a &&& b)
def execOr (at' : Issue) (w : BitVec 128) (s : State) : Out := .next <| s.instr 1 0x09 at' w (State.alu2 fun _ a b => a ||| b)
def execXor (at' : Issue) (w : BitVec 128) (s : State) : Out := .next <| s.instr 1 0x0A at' w (State.alu2 fun _ a b => a ^^^ b)
def execNot (at' : Issue) (w : BitVec 128) (s : State) : Out :=
  .next <| s.instr 1 0x0B at' w (State.alu1 fun m a => 2 ^ m - 1 - a)
def execShl (at' : Issue) (w : BitVec 128) (s : State) : Out :=
  .next <| s.instr 1 0x0C at' w (State.alu2 fun m a b => a * 2 ^ (b % m))

/-- A right shift, logical by U, else arithmetic. -/
def shiftRight (u : Bool) (m a b : Nat) : Nat :=
  if u then a / 2 ^ (b % m) else wrap m (toSigned m a / (2 ^ (b % m) : Nat))

def execShr (at' : Issue) (w : BitVec 128) (s : State) : Out :=
  .next <| s.instr 1 0x0D at' w fun o => State.alu2 (shiftRight (wU o.w)) o
def execMin (at' : Issue) (w : BitVec 128) (s : State) : Out :=
  .next <| s.instr 1 0x0E at' w fun o => State.alu2 (fun m a b => if asInt o.w m b < asInt o.w m a then b else a) o
def execMax (at' : Issue) (w : BitVec 128) (s : State) : Out :=
  .next <| s.instr 1 0x0F at' w fun o => State.alu2 (fun m a b => if asInt o.w m a < asInt o.w m b then b else a) o

/-- An integer comparison, CMP 0 to 5 (R190). -/
def intCompare (cond : Nat) (a b : Int) : Bool :=
  if cond = 0 then a == b else if cond = 1 then a != b else if cond = 2 then decide (a < b) else if cond = 3 then decide (a ≤ b)
  else if cond = 4 then decide (b < a) else decide (b ≤ a)

def State.setp (o : Op) (s : State) : State :=
  let n := aluN o.w
  s.lanesP o fun k t => intCompare (wCmp o.w) (asInt o.w (32 * n) (srcA o.w n k t)) (asInt o.w (32 * n) (srcB o.w n k t))

def execSetp (at' : Issue) (w : BitVec 128) (s : State) : Out := .next <| s.instr 1 0x10 at' w State.setp

def State.sel (o : Op) (s : State) : State :=
  let n := aluN o.w
  s.lanesT o n fun k t => if k.pred t (wC o.w) then srcA o.w n k t else srcB o.w n k t

def execSel (at' : Issue) (w : BitVec 128) (s : State) : Out := .next <| s.instr 1 0x11 at' w State.sel

def State.plop (o : Op) (s : State) : State :=
  s.lanesP o fun k t =>
    bit (wImm o.w) (4 * b2n (k.pred t (wA o.w)) + 2 * b2n (k.pred t (wB o.w)) + b2n (k.pred t (wC o.w)))

def execPlop (at' : Issue) (w : BitVec 128) (s : State) : Out := .next <| s.instr 1 0x12 at' w State.plop

/-- Set bits among the low m. -/
def popCount (m a : Nat) : Nat := ((List.range m).filter fun i => bit a i).length
/-- Leading zeros of an m-bit value. -/
def leadingZeros (m a : Nat) : Nat := if a = 0 then m else m - 1 - a.log2

def execPopc (at' : Issue) (w : BitVec 128) (s : State) : Out := .next <| s.instr 1 0x13 at' w (State.alu1 popCount)
def execClz (at' : Issue) (w : BitVec 128) (s : State) : Out := .next <| s.instr 1 0x14 at' w (State.alu1 leadingZeros)

/-- The lane that a shuffle reads from: itself when the index falls outside 0–31 (R189). -/
def shuffleLane (func l b : Nat) : Nat :=
  let i : Int := if func = 0 then (b % 32 : Nat) else if func = 1 then (l : Int) - b else if func = 2 then (l : Int) + b
    else (l ^^^ (b % 32) : Nat)
  if 0 ≤ i ∧ i ≤ 31 then i.toNat else l

def State.shfl (o : Op) (s : State) : State :=
  let n := aluN o.w
  s.lanesT o n fun k t =>
    srcA o.w n k (t / 32 * 32 + shuffleLane (wFunc o.w) (t % 32) (srcB o.w 1 k t))

def execShfl (at' : Issue) (w : BitVec 128) (s : State) : Out := .next <| s.instr 1 0x15 at' w State.shfl

/-- VOTE. DESIGN CHOICE: only the executing lanes count, not those that the guard turns off (R183 and R189 leave it open); LRED
counts the same lanes. -/
def State.vote (o : Op) (s : State) : State :=
  let k := s.core o.core
  let yes := o.ex.filter fun t => k.pred t (wA o.w)
  if wFunc o.w = 2 then s.lanesT o 1 fun _ _ => laneMask yes
  else s.lanesP o fun _ _ => if wFunc o.w = 0 then yes != [] else yes.length == o.ex.length

def execVote (at' : Issue) (w : BitVec 128) (s : State) : Out := .next <| s.instr 1 0x16 at' w State.vote

/-- One step of a lane reduction, R189. -/
def reduceStep (func w m a b : Nat) : Nat :=
  if func = 0 then (a + b) % 2 ^ m
  else if func = 1 then (if asInt w m b < asInt w m a then b else a)
  else if func = 2 then (if asInt w m a < asInt w m b then b else a)
  else if func = 3 then a &&& b else if func = 4 then a ||| b else a ^^^ b

def State.lred (o : Op) (s : State) : State :=
  let n := aluN o.w
  let k := s.core o.core
  match o.ex.map (srcA o.w n k) with
  | [] => s
  | a :: l =>
    let r := l.foldl (reduceStep (wFunc o.w) o.w (32 * n)) a
    s.lanesT o n fun _ _ => r

def execLred (at' : Issue) (w : BitVec 128) (s : State) : Out := .next <| s.instr 1 0x17 at' w State.lred

/-! ### FPU, R191 -/

/-- Registers of a floating-point operand. -/
def fpN (w : Nat) : Nat := if wType w = 1 then 2 else 1

/-- A floating-point source: its element's bits, FP64 immediates widened, absolute value, then negation. -/
def fpSrc (c kind i imm : Nat) (abs neg : Bool) (k : Core) (t : Nat) : Nat :=
  let n := if c = 1 then 2 else 1
  let x := (if c = 1 ∧ kind = 2 then widen64 imm else k.src t kind i n imm) % 2 ^ elWidth c
  let x := if abs then x % 2 ^ (elWidth c - 1) else x
  if neg then fneg c x else x

def fpA (w : Nat) : Core → Nat → Nat := fpSrc (wType w) (wAK w) (wA w) (wImm w) (bit w 20) (bit w 17)
def fpB (w : Nat) : Core → Nat → Nat := fpSrc (wType w) (wBK w) (wB w) (wImm w) (bit w 21) (bit w 18)
def fpC (w : Nat) : Core → Nat → Nat := fpSrc (wType w) (wCK w) (wC w) (wImm w) false (bit w 19)

/-- A two-operand floating-point operation with its flags. -/
def State.fpu2 (f : Nat → Nat → Nat → Nat × Nat) (o : Op) (s : State) : State :=
  s.lanesF o (fpN o.w) fun k t => f (wType o.w) (fpA o.w k t) (fpB o.w k t)

def execFadd (at' : Issue) (w : BitVec 128) (s : State) : Out :=
  .next <| s.instr 2 0x01 at' w fun o => State.fpu2 (fun c => fadd c (wRM o.w)) o
def execFmul (at' : Issue) (w : BitVec 128) (s : State) : Out :=
  .next <| s.instr 2 0x02 at' w fun o => State.fpu2 (fun c => fmul c (wRM o.w)) o

def State.ffmaOp (o : Op) (s : State) : State :=
  s.lanesF o (fpN o.w) fun k t => ffma (wType o.w) (wRM o.w) (fpA o.w k t) (fpB o.w k t) (fpC o.w k t)

def execFfma (at' : Issue) (w : BitVec 128) (s : State) : Out := .next <| s.instr 2 0x03 at' w State.ffmaOp
def execFmin (at' : Issue) (w : BitVec 128) (s : State) : Out := .next <| s.instr 2 0x04 at' w (State.fpu2 (fminmax false))
def execFmax (at' : Issue) (w : BitVec 128) (s : State) : Out := .next <| s.instr 2 0x05 at' w (State.fpu2 (fminmax true))

def State.fsetp (o : Op) (s : State) : State :=
  let k := s.core o.core
  let c := wType o.w
  let v := fun (f : Nat → Core → Nat → Nat) t => decodeEl c (f o.w k t)
  s.done o (o.ex.foldl (fun r t => (r.setPred t (wD o.w) (fcompare (wCmp o.w) (v fpA t) (v fpB t))).raiseFlags o.group
    (readFlag (v fpA t) ||| readFlag (v fpB t))) k)

def execFsetp (at' : Issue) (w : BitVec 128) (s : State) : Out := .next <| s.instr 2 0x06 at' w State.fsetp

/-! ### CVT, R192 -/

/-- A result in its registers: sign copies above INT8 and INT4, zeros above every other type (R187). -/
def spread (c n : Nat) : Nat :=
  if c = 9 then wrap 32 (toSigned 8 n) else if c = 10 then wrap 32 (toSigned 4 n) else n % 2 ^ max 32 (elWidth c)

/-- A source element of a CVT. -/
def cvtSrc (w : Nat) (k : Core) (t : Nat) : Nat :=
  let c := wType2 w
  (if c = 1 ∧ wAK w = 2 then widen64 (wImm w) else k.src t (wAK w) (wA w) (if c = 1 then 2 else 1) (wImm w)) % 2 ^ elWidth c

/-- A byte of the scratchpad. -/
def Core.wellByte (k : Core) (a : Nat) : Byte := tabGet 0 k.well a

/-- The source of a codebook conversion is decoded through the table first (R80, R87). -/
def cvtLane (w base : Nat) (k : Core) (t : Nat) : Nat × Nat :=
  let c := wType2 w
  let r := if isCodebook c then convTo (wType w) (wRM w) (wSat w) (decodeEl 4 (k.wellByte (base + cvtSrc w k t)).toNat)
    else convert c (wType w) (wRM w) (wSat w) (cvtSrc w k t)
  (spread (wType w) r.1, r.2)

/-- The exception of a codebook table offset: misaligned, or reaching P (R192). -/
def tableFault (k : Core) (c base : Nat) : Nat :=
  let n := if c = 11 then 16 else 64
  if base % n ≠ 0 then 0x31 else if base + n > k.P then 0x32 else 0

def State.cvt (o : Op) (s : State) : State :=
  let k := s.core o.core
  let base := (k.ureg o.group (wC o.w)).toNat % 2 ^ 32
  match (if isCodebook (wType2 o.w) then tableFault k (wType2 o.w) base else 0) with
  | 0 => s.lanesF o (if wType o.w = 1 then 2 else 1) (cvtLane o.w base)
  | c => s.raiseOp o c { va := base }

def execCvt (at' : Issue) (w : BitVec 128) (s : State) : Out := .next <| s.instr 3 0x01 at' w State.cvt

/-- A finite value is an integer; its parity. -/
def valInt : Val → Option Int
  | .fin neg m e =>
    if e ≥ 0 then some (if neg then -((m * 2 ^ e.toNat : Nat) : Int) else (m * 2 ^ e.toNat : Nat))
    else if m % 2 ^ (-e).toNat = 0 then some (if neg then -((m / 2 ^ (-e).toNat : Nat) : Int) else (m / 2 ^ (-e).toNat : Nat))
    else none
  | _ => none

/-- A value scaled by a power of two. -/
def valShift (v : Val) (i : Int) : Val := match v with | .fin n m e => .fin n m (e + i) | v => v

/-- The special values of R162 with their flags; `none` where only the accuracy bound applies. -/
def sfuSpecial (func x : Nat) : Option (Nat × Nat) :=
  let inf := fun n => infOf 0 n
  match decodeEl 0 x with
  | .nan sg => some (canonNaN 0, if sg then flNV else 0)
  | .inf neg =>
    if func = 0 then some (if neg then 0 else inf false, 0)
    else if func = 1 then some (if neg then (canonNaN 0, flNV) else (inf false, 0))
    else if func = 2 then some (signBit 0 neg, 0)
    else if func = 3 then some (if neg then (canonNaN 0, flNV) else (0, 0))
    else some (canonNaN 0, flNV)
  | .fin neg m e =>
    let v : Val := .fin neg m e
    let zero := decide (m = 0)
    if func = 0 then (if neg = false ∧ zero = false ∧ floorLog m e ≥ 7 then some (inf false, flOF + flNX) else none)
    else if func = 1 then
      if zero then some (inf true, flDZ) else if neg then some (canonNaN 0, flNV)
      else if m = 2 ^ m.log2 ∧ floorLog m e = 0 then some (0, 0) else none
    else if func = 2 then
      if zero then some (inf neg, flDZ)
      else if floorLog m e < -128 ∨ (m = 2 ^ m.log2 ∧ floorLog m e = -128) then some (inf neg, flOF + flNX) else none
    else if func = 3 then (if zero then some (inf neg, flDZ) else if neg then some (canonNaN 0, flNV) else none)
    else if func = 4 then (if (valInt v).isSome then some (signBit 0 neg, 0) else none)
    else (if (valInt v).isNone ∧ (valInt (valShift v 1)).isSome then some (0, 0) else none)

/-- The true value where it is an FP32 number that R162's table does not fix: powers of two, and the peaks of the sine. -/
def sfuTrue (func x : Nat) : Option Nat :=
  match decodeEl 0 x with
  | .fin neg m e =>
    let v : Val := .fin neg m e
    let pow := decide (m ≠ 0 ∧ m = 2 ^ m.log2)
    let enc := fun (v : Val) => (convTo 0 0 false v).1
    if func = 0 then (valInt v).bind fun i => if i ≥ -149 then some (enc (.fin false 1 i)) else none
    else if func = 1 then (if pow then some (enc (Val.ofInt (floorLog m e))) else none)
    else if func = 2 then (if pow then some (enc (.fin neg 1 (-floorLog m e))) else none)
    else if func = 3 then (if pow ∧ floorLog m e % 2 = 0 then some (enc (.fin false 1 (-(floorLog m e / 2)))) else none)
    else if func = 4 then (valInt (valShift v 1)).map fun j => enc (Val.ofInt (if j % 4 = 1 then 1 else -1))
    else (valInt v).map fun i => enc (Val.ofInt (if i % 2 = 0 then 1 else -1))
  | _ => none

/-- A special function: a fixed function of its input bits (R162). Where only an accuracy is given the value is free within
it; the result is inexact unless it is the true value, and tiny where that value is. -/
def sfuResult (func x : Nat) : Nat × Nat :=
  match sfuSpecial func x with
  | some r => r
  | none =>
    let draw := (Config.sfu func (BitVec.ofNat 32 x)).toNat
    let r := match decodeEl 0 x with | .fin neg m e => sfuWithin func neg m e draw | _ => draw
    (r, if sfuTrue func x = some r then 0 else flNX + (if bits r 30 23 = 0 then flUF else 0))

def execSfu (at' : Issue) (w : BitVec 128) (s : State) : Out :=
  .next <| s.instr 3 0x02 at' w fun o => State.lanesF o 1 fun k t => sfuResult (wFunc o.w) (srcA o.w 1 k t)

/-! ### UNIF, R193 -/

/-- A uniform source: 64 bits. -/
def uniA (w g : Nat) (k : Core) : Nat := k.src (g * 32) (wAK w) (wA w) 2 (wImm w)
def uniB (w g : Nat) (k : Core) : Nat := k.src (g * 32) (wBK w) (wB w) 2 (wImm w)

/-- A uniform operation, once for the original group. -/
def State.uni2 (f : Nat → Nat → Nat) (o : Op) (s : State) : State :=
  let k := s.core o.core
  s.done o (k.setUreg o.group (wD o.w) (f (uniA o.w o.group k) (uniB o.w o.group k)))

def execUmov (at' : Issue) (w : BitVec 128) (s : State) : Out := .next <| s.instr 8 0x01 at' w (State.uni2 fun a _ => a)
def execUadd (at' : Issue) (w : BitVec 128) (s : State) : Out := .next <| s.instr 8 0x02 at' w (State.uni2 fun a b => a + b)
def execUsub (at' : Issue) (w : BitVec 128) (s : State) : Out :=
  .next <| s.instr 8 0x03 at' w (State.uni2 fun a b => a + 2 ^ 64 - b)
def execUand (at' : Issue) (w : BitVec 128) (s : State) : Out := .next <| s.instr 8 0x04 at' w (State.uni2 fun a b => a &&& b)
def execUor (at' : Issue) (w : BitVec 128) (s : State) : Out := .next <| s.instr 8 0x05 at' w (State.uni2 fun a b => a ||| b)
def execUxor (at' : Issue) (w : BitVec 128) (s : State) : Out := .next <| s.instr 8 0x06 at' w (State.uni2 fun a b => a ^^^ b)
def execUshl (at' : Issue) (w : BitVec 128) (s : State) : Out :=
  .next <| s.instr 8 0x07 at' w (State.uni2 fun a b => a * 2 ^ (b % 64))
def execUshr (at' : Issue) (w : BitVec 128) (s : State) : Out :=
  .next <| s.instr 8 0x08 at' w fun o => State.uni2 (fun a b => shiftRight (wU o.w) 64 a b) o
def execUmul (at' : Issue) (w : BitVec 128) (s : State) : Out := .next <| s.instr 8 0x09 at' w (State.uni2 fun a b => a * b)

def State.ufirst (o : Op) (s : State) : State :=
  let k := s.core o.core
  match o.ex with
  | [] => s
  | t :: _ => s.done o (k.setUreg o.group (wD o.w) (k.regs t (wA o.w) (if wSz64 o.w then 2 else 1)))

def execUfirst (at' : Issue) (w : BitVec 128) (s : State) : Out := .next <| s.instr 8 0x0A at' w State.ufirst

end Sys2Proof.Machine
end

