-- ==== Sys2Proof/Machine/Coherence.lean ====
section
/-! DEFINITION. The transactions of the homes: requests, snoops, replies, grants, write-back notices, merging, the
directory, reductions and the stream detector (R275 to R285, R290 to R294). -/

namespace Sys2Proof.Machine

/-! ### Small updates -/

def State.setTxn (s : State) (line : Nat) (t : Txn) : State :=
  { s with coh := { s.coh with txns := tabIns s.coh.txns line t } }
def State.dirOf (s : State) (line : Nat) : Option Dir := (tabFind s.coh.dir line).map (·.st)

/-- A sharer set beyond four clusters becomes the vector of halves (R276). -/
def coarsen (l : List Nat) : List Nat :=
  if l.length ≤ 4 then l
  else (List.range 128).filter fun c => l.any fun x => x / 8 == c / 8

/-- A directory entry set, or dropped when no cluster is named; its use is stamped. A look-up that leaves the entry as it is
counts as no use (DESIGN CHOICE: R281 does not say what uses an entry). -/
def State.setDir (s : State) (line : Nat) (d : Option Dir) : State :=
  match d with
  | none => { s with coh := { s.coh with dir := tabDel s.coh.dir line } }
  | some (.shared l) =>
    let (n, s) := s.tick
    { s with coh := { s.coh with dir := tabIns s.coh.dir line ⟨.shared (coarsen l), n⟩ } }
  | some d =>
    let (n, s) := s.tick
    { s with coh := { s.coh with dir := tabIns s.coh.dir line ⟨d, n⟩ } }

def State.addSnoop (s : State) (x : Snoop) : State := { s with coh := { s.coh with snoops := s.coh.snoops ++ [x] } }
def State.addGrant (s : State) (g : Grant) : State := { s with coh := { s.coh with grants := s.coh.grants ++ [g] } }
def State.addReply (s : State) (r : SReply) : State := { s with coh := { s.coh with replies := s.coh.replies ++ [r] } }
def State.setWb (s : State) (l : List WbEnt) : State := { s with coh := { s.coh with wb := l } }
def State.wbFind (s : State) (cluster line : Nat) : Option WbEnt :=
  s.coh.wb.find? fun w => w.cluster == cluster && w.line == line && !w.acked
def State.wbUpd (s : State) (cluster line : Nat) (f : WbEnt → WbEnt) : State :=
  s.setWb (updFirst (fun w => w.cluster == cluster && w.line == line && !w.acked) f s.coh.wb)

/-- An E or M line leaves a cluster cache for its write-back buffer of 16 entries (R275); an S line is dropped. -/
def State.evictCc (s : State) (cluster line : Nat) : Option State :=
  match s.ccFind cluster line with
  | none => some s
  | some c =>
    if c.st = .S then some (s.delCc cluster line)
    else if (s.coh.wb.filter fun w => w.cluster == cluster).length ≥ 16 then none
    else
      let (n, s) := (s.delCc cluster line).tick
      some (s.setWb (s.coh.wb ++ [⟨cluster, line, c.st == .M, c.data, c.poison, false, false, false, false, n⟩]))

/-! ### Serving a request at the home -/

/-- Data written into the data array as dirty; none while no way is to be had (R267). -/
def State.homeTake (s : State) (line : Nat) (d : Data × Nat) : Option State :=
  (s.allocW line).map fun t => t.cisPut line 15 d.1 d.2 true

/-- NA is in force at the home, R285. -/
def State.naHolds (s : State) (line : Nat) (na : Bool) : Bool :=
  na && !s.on (F.CS_PART_CTL_SDIS (s.chunkPart (line * 128))) && !s.hasReds line &&
  !(match s.cisFind line with | some c => c.pin | none => false)

/-- The threads that sent a read. -/
def Core.sentBy (k : Core) (id : Nat) : List Nat :=
  match k.sent.find? fun x => x.id == id with
  | some x => x.lanes
  | none => []

/-- A response of the home to a requester that is not a cluster. -/
def State.answer (s : State) (r : Req) (d : Data × Nat) : State :=
  if r.agent = 0 then
    let k := s.core r.unit
    let a := r.addr / 32 * 32
    if !(k.sent.any fun x => x.id == r.id) then s
    else s.setCore r.unit { k with resps := k.resps ++
      [⟨r.group, r.pc, k.sentBy r.id, a, (List.range 32).map fun i => tabGet 0 d.1 (a % 128 + i), bit d.2 (a % 128 / 32), 0⟩] }
  else if r.agent = 16 then
    if r.unit % 8 = 3 ∧ !(s.fe.cmds.any fun c => c.id == r.unit / 8) then s
    else { s with coh := { s.coh with got := s.coh.got ++ [⟨r.unit, r.addr, r.kind == .rdNarrow, d.1, d.2⟩] } }
  else s.emit (.lineData r.agent r.unit r.addr ((List.range 128).map fun i => tabGet 0 d.1 i) (d.2 != 0))

/-- A reservation set by an LDR: the oldest of the slice gives way when it is full (R252). -/
def State.reserve (s : State) (thread ctx line : Nat) : State :=
  let slice := s.homeSlice (line / 2 * 2)
  let l := s.coh.resv.filter fun r => r.thread != thread
  let l := if (l.filter fun r => r.slice == slice).length ≥ 1024 then dropFirst (fun r => r.slice == slice) l else l
  { s with coh := { s.coh with resv := l ++ [⟨slice, line / 2, thread, ctx⟩] } }

/-- Another set of an atomic's instruction names a poisoned sector, or has met one: the instruction takes effect in no lane
(R177). -/
def State.flightPoison (s : State) (r : Req) : Bool :=
  match (s.core r.unit).flights.find? fun f => f.wait.contains r.id with
  | none => false
  | some f => f.poison || (s.coh.reqs ++ s.unserved).any fun q =>
      q.agent == 0 && q.unit == r.unit && f.wait.contains q.id && s.poisonAt q.addr

/-- An atomic with a result applied at its line: an LDR reads and reserves, an STC writes on an intact reservation and
always clears it, another operation is applied (R199, R252, R290). No copy is left in a cluster (R280); a poisoned value
changes nothing (R177). -/
def State.applyAtomic (s : State) (r : Req) (a : AtomReq) : State :=
  let line := r.addr / 128
  let v := s.lineNow line
  let k := if a.w64 then 8 else 4
  let bad := bit v.2 (a.addr % 128 / 32) || a.bad
  let off := bad || s.flightPoison r
  let s := s.dropCopies line
  if a.op = 16 then
    let vals := a.lanes.map fun l => (l.1, lineNum v.1 (a.addr % 128) k)
    (if off then s else s.reserve a.thread r.ctx line).atomAnswer r.unit r.id (if bad then [] else vals) bad
  else if a.op = 17 then
    let held := s.coh.resv.any fun x => x.thread == a.thread && x.granule == line / 2
    let s := { s with coh := { s.coh with resv := s.coh.resv.filter fun x => x.thread != a.thread } }
    let val := match a.lanes with | l :: _ => l.2.1 | [] => 0
    let s := if held then s.homeWrite line (numBytes (a.addr % 128) k val) else s
    s.atomAnswer r.unit r.id (a.lanes.map fun l => (l.1, b2n held)) false
  else
    let z := atomLine a v.1
    let b := numBytes (a.addr % 128) k (lineNum z.1 (a.addr % 128) k)
    (if off then s else s.homeWrite line b).atomAnswer r.unit r.id (if bad then [] else z.2) off

/-- A reduction applied at its line; poisoned operands poison the sector. -/
def State.applyRed (s : State) (line : Nat) (a : AtomReq) : State :=
  let z := atomLine a (s.lineNow line).1
  s.homeWriteBad line (numBytes (a.addr % 128) (if a.w64 then 8 else 4) (lineNum z.1 (a.addr % 128) (if a.w64 then 8 else 4)))
    (if a.bad then 15 else 0)

/-- The clusters that asked for a shared copy: the request and those that joined it. -/
def Txn.sharers (t : Txn) : List Nat :=
  (t.req :: t.joiners).filterMap fun r => match r.kind with | .rdShared _ => some r.cluster | _ => none

/-- The requests of a merge entry that get the line themselves. -/
def Txn.readers (t : Txn) : List Req := (t.req :: t.joiners).filter fun r => r.kind == .rdOnce

/-- RD_SHARED and its joiners are served: one requester alone is granted E, a merged read S (R280, R284). -/
def State.serveShared (s : State) (line : Nat) (t : Txn) : State :=
  let cs := t.sharers
  let d := t.peek.getD (s.lineNow line)
  let s := t.readers.foldl (fun s r => s.answer r d) s
  if t.forwarded then
    (match s.dirOf line with
     | some (.owner k) => s.setDir line (some (.shared (setIns cs k)))
     | some (.shared x) => s.setDir line (some (.shared (cs.foldl setIns x)))
     | none => s.setDir line (some (.shared cs)))
  else
    match s.dirOf line, cs, t.joiners with
    | some (.shared x), _, _ =>
      let s := cs.foldl (fun s c => s.addGrant ⟨line, c, .S, some d⟩) s
      s.setDir line (some (.shared (cs.foldl setIns x)))
    | _, [c], [] => (s.addGrant ⟨line, c, .E, some d⟩).setDir line (some (.owner c))
    | _, [], _ => s
    | _, _, _ =>
      let s := cs.foldl (fun s c => s.addGrant ⟨line, c, .S, some d⟩) s
      s.setDir line (some (.shared (cs.foldl setIns [])))

/-- RD_OWN or UPGRADE is served: write permission, with the line unless the cluster still holds it. -/
def State.serveOwn (s : State) (line : Nat) (r : Req) (forwarded : Bool) (d : Data × Nat) : State :=
  let s := (s.breakResv line).setDir line (some (.owner r.cluster))
  if forwarded then s
  else if r.kind = .upgrade ∧ (s.ccFind r.cluster line).isSome then s.addGrant ⟨line, r.cluster, .M, none⟩
  else s.addGrant ⟨line, r.cluster, .M, some d⟩

/-- The request of a transaction is served, every reply and the memory data being in. -/
def State.serve (s : State) (line : Nat) (t : Txn) : State :=
  let d := t.peek.getD (s.lineNow line)
  let s := (s.setTxn line { t with served := true }).cisTouch line
  match t.req.kind with
  | .rdShared _ => s.serveShared line t
  | .rdOwn => s.serveOwn line t.req t.forwarded d
  | .upgrade => s.serveOwn line t.req t.forwarded d
  | .rdOnce => if t.sharers = [] then t.readers.foldl (fun s r => s.answer r d) s else s.serveShared line t
  | .rdNarrow => s.answer t.req d
  | .wrLine b q => s.homeWriteBad line b q
  | .wrPart b q => s.homeWriteBad line b q
  | .atomic a => s.applyAtomic t.req a
  | .red a => (s.applyRed line a).atomAnswer t.req.unit t.req.id [] false
  | .dirEvict => s.setDir line none

/-- Sectors that a request needs and the home must read from memory. -/
def State.needs (s : State) (line : Nat) (t : Txn) : Nat :=
  let sv := match s.cisFind line with | some c => c.sv | none => 0
  let want := match t.req.kind with
    | .rdShared _ => if t.forwarded then 0 else 15
    | .rdOwn => if t.forwarded then 0 else 15
    | .upgrade => if t.forwarded || (s.ccFind t.req.cluster line).isSome then 0 else 15
    | .rdOnce => 15
    | .rdNarrow => 2 ^ (t.req.addr % 128 / 32)
    | .wrLine _ _ => 0
    | .wrPart b _ => touched b &&& (15 ^^^ covered b)
    | .atomic a => 2 ^ (a.addr % 128 / 32)
    | .red a => 2 ^ (a.addr % 128 / 32)
    | .dirEvict => 0
  if t.peek.isSome || (s.ownedData line).isSome then 0 else want &&& (15 ^^^ sv)

/-- A request that changes the line needs a way for it (R267). -/
def ReqKind.changes : ReqKind → Bool
  | .wrLine _ _ => true
  | .wrPart _ _ => true
  | .atomic _ => true
  | .red _ => true
  | _ => false

/-- The request waits for a way of its set. -/
def State.noWay (s : State) (line : Nat) (t : Txn) : Bool := t.req.kind.changes && (s.cisAlloc line).isNone

/-- A transaction that would give a cluster a copy of the line. -/
def Txn.gives (t : Txn) : Bool := match t.req.kind with
  | .rdShared _ => true | .rdOwn => true | .upgrade => true | _ => t.sharers != []

/-- A request that would need a directory entry in a full set: the least recently used entry is evicted first
(R281). -/
def State.dirVictim (s : State) (line : Nat) (k : ReqKind) : Option Nat :=
  let tracks := match k with | .rdShared _ => true | .rdOwn => true | .upgrade => true | _ => false
  if !tracks || (s.dirOf line).isSome then none
  else
    let l := s.coh.dir.filter fun e => s.homeSlice e.1 == s.homeSlice line && dirSet e.1 == dirSet line
    if l.length < 16 then none
    else (l.foldl (fun (a : Option (Nat × DirEnt)) e => match a with
      | none => some e
      | some b => if e.2.use < b.2.use then some e else some b) none).map (·.1)

/-- The transaction would need a directory entry in a full set. -/
def State.dirFull (s : State) (line : Nat) (t : Txn) : Bool := t.gives && (s.dirVictim line .rdOwn).isSome

/-! ### The memory queue, R305 -/

/-- A read of the sectors of `need` asks its channel for entries: it takes them, or waits in its slice's memory queue. -/
def State.memAsk (s : State) (line need : Nat) (t : Txn) : State :=
  let n := ((List.range 4).filter fun j => bit need j).length
  let p := s.chunkPart (line * 128)
  let ch := chanOf (line * 128)
  if s.entsFit ch p n && s.entsTurn ch p n s.mc.waiting then (s.setTxn line { t with mem := true, ents := n }).entsAdd ch p n
  else
    let s := s.setTxn line { t with mem := true }
    { s with mc := { s.mc with waiting := s.mc.waiting ++ [(line, n)] } }

/-- Waiting reads of a channel take what entries are free, in arrival order; those still waiting are listed, and a read that
is over is none of them. -/
def State.memAdmit (s : State) (ch : Nat) : List (Nat × Nat) → List (Nat × Nat) → State × List (Nat × Nat)
  | [], kept => (s, kept)
  | e :: r, kept =>
    let p := s.chunkPart (e.1 * 128)
    match s.txn e.1 with
    | some t =>
      if !t.mem then s.memAdmit ch r kept
      else if chanOf (e.1 * 128) == ch && s.entsFit ch p e.2 && s.entsTurn ch p e.2 kept then
        ((s.setTxn e.1 { t with ents := e.2 }).entsAdd ch p e.2).memAdmit ch r kept
      else s.memAdmit ch r (kept ++ [e])
    | none => s.memAdmit ch r kept

/-- The entries of a read are free again, and go to the reads that wait. -/
def State.memFree (s : State) (line : Nat) (t : Txn) : State :=
  let ch := chanOf (line * 128)
  let z := (s.entsSub ch (s.chunkPart (line * 128)) t.ents).memAdmit ch s.mc.waiting []
  { z.1 with mc := { z.1.mc with waiting := z.2 } }

/-- The transaction moves on once no reply, notice or memory data is awaited. The device's own writes have no counter
class (R296). -/
def State.progress (s : State) (line : Nat) : State :=
  match s.txn line with
  | none => s
  | some t =>
    if t.await ≠ [] ∨ t.wbs ≠ [] ∨ t.mem ∨ t.served ∨ s.noWay line t ∨ s.dirFull line t then s
    else
      let counted := t.req.kind != .dirEvict && !(t.req.agent == 3 && t.req.kind.changes)
      let need := s.needs line t
      if need = 0 then
        (if counted then (s.serve line t).countCs (F.CS_HIT_COUNT · t.req.cls) line 1 else s.serve line t)
      else
        let s := s.memAsk line need t
        if counted then s.countCs (F.CS_MISS_COUNT · t.req.cls) line 1 else s

/-! ### Starting a transaction, R280 -/

/-- The snoops of a request in a directory state: kind and targets. -/
def snoopPlan (k : ReqKind) (c : Nat) : Option Dir → Nat × List Nat
  | none => (0, [])
  | some (.shared x) =>
    (match k with
     | .rdShared _ => (0, [])
     | .rdOnce => (0, [])
     | .rdNarrow => (0, [])
     | .rdOwn => (1, x.filter (· ≠ c))
     | .upgrade => (1, x.filter (· ≠ c))
     | _ => (1, x))
  | some (.owner o) =>
    (match k with
     | .rdShared _ => (0, [o])
     | .rdOnce => (3, [o])
     | .rdNarrow => (3, [o])
     | .rdOwn => (2, [o])
     | .upgrade => (2, [o])
     | .wrLine _ _ => (1, [o])
     | _ => (4, [o]))

/-- A read that may share one read of its line with others (R284). -/
def ReqKind.merges : ReqKind → Bool
  | .rdShared _ => true
  | .rdOnce => true
  | _ => false

/-- Merge entries open in a slice: until the line's data is ready to send. -/
def State.merges (s : State) (slice : Nat) : Nat :=
  (s.coh.txns.filter fun e => s.homeSlice e.1 == slice && e.2.entry && !e.2.served).length

/-- A read of a line that no cluster owns opens one of the slice's 32 merge entries (R284). -/
def State.opensEntry (s : State) (r : Req) : Bool :=
  r.kind.merges && (match s.dirOf (r.addr / 128) with | some (.owner _) => false | _ => true) &&
  decide (s.merges (s.homeSlice (r.addr / 128)) < 32)

/-- A request starts on an idle line. -/
def State.startTxn (s : State) (r : Req) : State :=
  let line := r.addr / 128
  let (k, l) := snoopPlan r.kind r.cluster (s.dirOf line)
  let s := s.setTxn line ⟨r, l, [], false, 0, [], false, false, s.opensEntry r, none⟩
  (l.foldl (fun s c => s.addSnoop ⟨line, c, k, r.cluster⟩) s).progress line

/-- A read joins the open merge entry of its line, R284. -/
def Txn.joins (t : Txn) (k : ReqKind) : Bool := k.merges && t.entry && !t.served

/-- A request arrives at its home: it joins a merge entry, waits in the line's queue, or starts (R277, R279, R284). A line
with buffered reductions, or one whose home or directory set changes, is joined by none (R271, R291, R294). -/
def State.arrive (s : State) (r : Req) : State :=
  let line := r.addr / 128
  let wait : State := { s with coh := { s.coh with waitq := s.coh.waitq ++ [r] } }
  match s.txn line with
  | some t =>
    if t.joins r.kind && !s.hasReds line && !s.heldLine line then
      (s.setTxn line { t with joiners := t.joiners ++ [r] }).countCs (F.CS_HIT_COUNT · r.cls) line 1
    else wait
  | none => if !s.lineOpen line || s.trackersFull (s.homeSlice line) then wait else s.startTxn r

/-- A request of the device's own numbering arrives. -/
def State.arriveNew (s : State) (r : Req) : State :=
  let (n, s) := s.tick
  s.arrive { r with id := n, serial := n }

/-- A step that read a line whose home could not serve it leaves its requests only: it is taken again later (R279). -/
def State.unlessStalled (s t : State) : State := if t.coh.stalled then t.coh.asked.foldl State.arriveNew s else t

/-- Requests of a cluster cache; the others of cores are the cores' own (R278). -/
def ReqKind.ofCache : ReqKind → Bool
  | .rdShared _ => true
  | .rdOwn => true
  | .upgrade => true
  | _ => false

/-- Two requests come from one source: a cluster cache, or a core, or another agent (R277, R278). -/
def Req.sameSource (a b : Req) : Bool :=
  a.agent == b.agent && a.kind.ofCache == b.kind.ofCache && a.cluster == b.cluster && (a.kind.ofCache || a.unit == b.unit)

/-- A reserved load or a conditional store. -/
def ReqKind.resv : ReqKind → Bool
  | .atomic a => decide (16 ≤ a.op)
  | _ => false

/-- An earlier message of the same source to the same slice has not arrived (R277), or an earlier reserved access of the
core to the granule has not been performed (R199). -/
def State.outOfTurn (s : State) (r : Req) : Bool :=
  let slice := s.homeSlice (r.addr / 128)
  (s.coh.reqs ++ s.coh.redWait).any (fun q => decide (q.id < r.id) && q.sameSource r && s.homeSlice (q.addr / 128) == slice) ||
  (r.kind.ofCache && s.coh.wb.any fun w =>
    !w.noticed && w.cluster == r.cluster && decide (w.serial < r.id) && s.homeSlice w.line == slice) ||
  (r.kind.resv && (s.coh.reqs ++ s.unserved).any fun q =>
    decide (q.id < r.id) && q.agent == 0 && q.unit == r.unit && q.kind.resv && q.addr / 256 == r.addr / 256)

/-- An in-flight request with this identifier and kind whose turn has come. -/
def State.takeReq (s : State) (id : Nat) (ok : ReqKind → Bool) : Option (Req × State) :=
  match s.coh.reqs.find? fun r => r.id == id with
  | none => none
  | some r =>
    if !ok r.kind || s.heldLine (r.addr / 128) || s.outOfTurn r then none
    else some (r, { s with coh := { s.coh with reqs := s.coh.reqs.filter fun q => q.id != id } })

/-- The eviction of a directory entry starts, unless its line is busy (R281). -/
def State.evictDir (s : State) (v : Nat) : State :=
  if s.busy v then s
  else
    let (n, s) := s.tick
    s.startTxn ⟨n, .dirEvict, v * 128, 9, 0, 0, 0x3FF, 0, 0, 0, n⟩

/-- A transaction that waits for a directory entry has the least recently used one of the full set evicted (R281). -/
def State.dirRoom (s : State) (line : Nat) : State :=
  match s.txn line with
  | some t =>
    if !t.served && s.dirFull line t && t.await == [] && t.wbs == [] then
      match s.dirVictim line .rdOwn with
      | some v => s.evictDir v
      | none => s
    else s
  | none => s

/-- A request of a core or a cluster arrives; a full directory set gives up an entry for it. -/
def State.arriveId (s : State) (id : Nat) (ok : ReqKind → Bool) : State :=
  match s.takeReq id ok with
  | none => s
  | some (r, t) => (t.arrive r).dirRoom (r.addr / 128)

/-- An uncorrectable error in a directory entry: the set's lines are recalled from every cluster, the set is held
(R294). -/
def State.dirError (s : State) (line : Nat) : State :=
  { s with coh := { s.coh with rebuild := s.coh.rebuild ++ [(s.homeSlice line, dirSet line)] } }

/-- An error in the data array at a line's access (R293): 2 corrected, 4 + sector uncorrectable. -/
def State.arrayError (s : State) (line err : Nat) : State :=
  let i := s.homeSlice line
  let u := s.slPhys i - 1
  match s.cisFind line with
  | none => s
  | some c =>
    if err = 2 then s.wear 4 u 1
    else if 4 ≤ err ∧ err < 8 ∧ bit c.sv (err - 4) then
      let s := s.setCis line { c with sp := c.sp ||| 2 ^ (err - 4) }
      (s.wear 4 u 256).event 2 4 3 none i 0x3FF [i, line * 128, err - 4]
    else s

/-- What a request meets at its home: `err` 0 nothing; 1 the directory entry is damaged, and its set is held; 2 or 4 to 7 an
error of the data array (R293, R294). -/
def State.found (s : State) (line err : Nat) : State :=
  if err = 1 then
    if s.heldLine line then s else (s.wear 4 (s.slPhys (s.homeSlice line) - 1) 256).dirError line
  else s.arrayError line err

/-- A request in flight meets its home: a damaged entry leaves it where it is (R294). -/
def State.meets (s : State) (line err : Nat) (go : State → State) : State :=
  if err = 1 then s.found line 1 else go (s.found line err)

/-- An in-flight request of a core or a cluster meets its home. -/
def State.arriveMeets (s : State) (id err : Nat) (ok : ReqKind → Bool) : State :=
  match s.takeReq id ok with
  | some (r, _) => s.meets (r.addr / 128) err fun s => s.arriveId id ok
  | none => s

def execRdShared (id err : Nat) (s : State) : Out :=
  .next <| s.arriveMeets id err fun k => match k with | .rdShared _ => true | _ => false
def execRdOwn (id err : Nat) (s : State) : Out := .next <| s.arriveMeets id err (· == .rdOwn)
def execUpgrade (id err : Nat) (s : State) : Out := .next <| s.arriveMeets id err (· == .upgrade)
def execRdNarrow (id err : Nat) (s : State) : Out := .next <| s.arriveMeets id err (· == .rdNarrow)
def ReqKind.isAtomic : ReqKind → Bool
  | .atomic _ => true
  | _ => false
def ReqKind.isRed : ReqKind → Bool
  | .red _ => true
  | _ => false

/-- The operands of a request are poisoned. -/
def ReqKind.poisoned : ReqKind → ReqKind
  | .atomic a => .atomic { a with bad := true }
  | .red a => .red { a with bad := true }
  | k => k

/-- A codeword of a request in flight that carries operands could not be corrected: they are poisoned, and the wire is counted
(R18). -/
def State.opPoison (s : State) (id : Nat) (link : Option Nat) (ok : ReqKind → Bool) : State :=
  match link.filter wireReal, s.takeReq id ok with
  | some w, some _ =>
    let s := s.badCodeword w
    { s with coh := { s.coh with reqs := s.coh.reqs.map fun r => if r.id = id then { r with kind := r.kind.poisoned } else r } }
  | _, _ => s

def execAtomic (id err : Nat) (link : Option Nat) (s : State) : Out :=
  .next <| (s.opPoison id link ReqKind.isAtomic).arriveMeets id err ReqKind.isAtomic

/-- A request of an agent other than a core arrives, and meets an error of its home or none: on a line that is held it waits
(R271, R294, R295). A Pump's, a Lighter's or the front end's read that its own command makes meets an error as the RD_ONCE of
that agent before it. -/
def State.arriveFrom (s : State) (agent unit addr err : Nat) (k : ReqKind) : State :=
  if addr ≥ localTop then s
  else
    let s := if s.heldLine (addr / 128) then s else s.found (addr / 128) err
    s.arriveNew ⟨0, k, addr, agent, unit, 0, 0x3FF, 0, 0, agentClass agent, 0⟩

/-- A write arrives; `link` names a sector of it, and a wire, whose codeword could not be corrected (R18). -/
def State.arriveWrite (s : State) (agent unit addr err : Nat) (k : Nat → ReqKind) (link : Option (Nat × Nat)) : State :=
  match link.filter fun e => wireReal e.2 && decide (e.1 < 4 ∧ addr < localTop) with
  | some (j, w) => (s.badCodeword w).arriveFrom agent unit addr err (k (2 ^ j))
  | none => s.arriveFrom agent unit addr err (k 0)

def execRdOnce (agent unit addr err : Nat) (s : State) : Out :=
  .next <| if 1 ≤ agent ∧ agent ≤ 5 then s.arriveFrom agent unit addr err .rdOnce else s
def execWrLine (agent unit line err : Nat) (data : List Byte) (link : Option (Nat × Nat)) (s : State) : Out :=
  .next <| if 1 ≤ agent ∧ agent ≤ 5 ∧ data.length = 128 then
    s.arriveWrite agent unit (line * 128) err (.wrLine (data.mapIdx fun i b => (i, b))) link else s
def execWrPart (agent unit addr err : Nat) (data : List Byte) (link : Option (Nat × Nat)) (s : State) : Out :=
  .next <| if 1 ≤ agent ∧ agent ≤ 5 ∧ data ≠ [] ∧ addr % 128 + data.length ≤ 128 then
    s.arriveWrite agent unit addr err (.wrPart (data.mapIdx fun i b => (addr % 128 + i, b))) link else s

/-! ### Snoops at a cluster, R280, R283 -/

/-- The copy a snoop finds: in the cache, or in the write-back buffer. -/
def State.snoopFind (s : State) (cluster line : Nat) : Option (CcLine × Bool) :=
  match s.ccFind cluster line with
  | some c => some (c, false)
  | none =>
    match s.coh.wb.find? fun w => w.cluster == cluster && w.line == line && !w.taken && !w.acked with
    | some w => some (⟨if w.dirty then .M else .E, w.data, w.poison⟩, true)
    | none => none

/-- What is left at the cluster: a shared copy after share, the copy itself after peek, nothing otherwise. A buffer
entry counts as taken. -/
def State.snoopLeave (s : State) (x : Snoop) (c : CcLine) (wbp : Bool) : State :=
  if wbp then s.wbUpd x.target x.line fun w => { w with taken := true }
  else if x.kind = 0 then s.setCc x.target x.line { c with st := .S }
  else if x.kind = 3 then s
  else s.delCc x.target x.line

/-- A snoop of a kind reaches a cluster; `crossed`: the cluster has just evicted the line into its buffer. -/
def State.snoop (s : State) (kind cluster line : Nat) (crossed : Bool) : State :=
  match s.coh.snoops.find? fun x => x.kind == kind && x.target == cluster && x.line == line with
  | none => s
  | some x =>
    let s := { s with coh := { s.coh with snoops := dropFirst (· == x) s.coh.snoops } }
    let s := if crossed then (s.evictCc cluster line).getD s else s
    match s.snoopFind cluster line with
    | none => s.addReply ⟨line, cluster, false, none, false, false⟩
    | some (c, wbp) =>
      let s := s.snoopLeave x c wbp
      let back := if c.st = .M ∧ (kind = 0 ∨ kind = 3 ∨ kind = 4) then some (c.data, c.poison) else none
      let fwd := kind == 0 || kind == 2
      let s := if kind = 0 then s.addGrant ⟨line, x.dest, .S, some (c.data, c.poison)⟩
        else if kind = 2 then s.addGrant ⟨line, x.dest, .M, some (c.data, c.poison)⟩ else s
      s.addReply ⟨line, cluster, true, back, fwd, wbp⟩

def execSnpShare (cluster line : Nat) (crossed : Bool) (s : State) : Out := .next <| s.snoop 0 cluster line crossed
def execSnpInv (cluster line : Nat) (crossed : Bool) (s : State) : Out := .next <| s.snoop 1 cluster line crossed
def execSnpMove (cluster line : Nat) (crossed : Bool) (s : State) : Out := .next <| s.snoop 2 cluster line crossed
def execSnpPeek (cluster line : Nat) (crossed : Bool) (s : State) : Out := .next <| s.snoop 3 cluster line crossed
def execSnpRecall (cluster line : Nat) (crossed : Bool) (s : State) : Out := .next <| s.snoop 4 cluster line crossed

/-- The data of a reply at the home: an owner's peeked line is for the answer alone; other data is written as dirty, but
for what a crossing notice has brought already. None while no way is to be had. -/
def State.replyData (s : State) (r : SReply) (t : Txn) : Option (State × Option (Data × Nat)) :=
  let came := match s.wbFind r.cluster r.line with | some w => w.home | none => false
  match r.data with
  | none => some (s, t.peek)
  | some d =>
    if (t.req.kind == .rdOnce || t.req.kind == .rdNarrow) && !r.wbp then some (s, some d)
    else if r.wbp && came then some (s, t.peek)
    else (s.homeTake r.line d).map fun s => (s.wbUpd r.cluster r.line fun w => { w with home := true }, t.peek)

/-- A cluster that has evicted the line is no holder. -/
def State.dirForget (s : State) (cluster line : Nat) : State :=
  if s.dirOf line == some (.owner cluster) then s.setDir line none else s

/-- A line whose sector met a codeword that could not be corrected (R18): the line as delivered, and the state with the wire
counted. -/
def State.lineLink (s : State) (d : Data × Nat) (link : Option (Nat × Nat)) : State × (Data × Nat) :=
  match link.filter fun e => wireReal e.2 && decide (e.1 < 4) with
  | some (j, w) => (s.badCodeword w, (d.1, d.2 ||| 2 ^ j))
  | none => (s, d)

/-- A reply reaches the home. With a notice of the same cluster it is acknowledged once both have arrived (R283). -/
def State.snoopReply (s : State) (cluster line : Nat) (link : Option (Nat × Nat)) : State :=
  match s.coh.replies.find? fun r => r.cluster == cluster && r.line == line, s.txn line with
  | some r, some t =>
    let z := match r.data with
      | some d => let x := s.lineLink d link; (x.1, some x.2)
      | none => (s, none)
    match z.1.replyData { r with data := z.2 } t with
    | none => s
    | some (s, peek) =>
      let s := { s with coh := { s.coh with replies := dropFirst (· == r) s.coh.replies } }
      let came := match s.wbFind cluster line with | some w => w.noticed | none => false
      let s := if came then s.wbUpd cluster line fun w => { w with acked := true } else s
      let s := if came || r.wbp then s.dirForget cluster line else s
      let wbs := if r.wbp && !came then setIns t.wbs cluster else t.wbs
      let s := s.setTxn line { t with
        await := setDel t.await cluster, wbs := wbs, forwarded := t.forwarded || r.forwarded, peek := peek }
      s.progress line
  | _, _ => s

def execSnoopReply (cluster line : Nat) (link : Option (Nat × Nat)) (s : State) : Out := .next <| s.snoopReply cluster line link

/-! ### Write-back notices, R275, R280, R283 -/

/-- The data of a notice at the home: the dirty line is written once (R283). None while no way is to be had. -/
def State.noticeData (s : State) (cluster line : Nat) (w : WbEnt) (link : Option (Nat × Nat)) : Option State :=
  if w.dirty && !w.home then
    let z := s.lineLink (w.data, w.poison) link
    (z.1.homeTake line z.2).map fun s => s.wbUpd cluster line fun w => { w with home := true }
  else some s

/-- A notice reaches the home: with the snoop of a transaction it crosses; otherwise it waits for the line, and is
acknowledged (R279, R280, R283). -/
def State.notice (s : State) (cluster line : Nat) (w : WbEnt) (link : Option (Nat × Nat)) : State :=
  let taken := fun (s : State) => s.wbUpd cluster line fun w => { w with noticed := true, acked := true }
  match s.txn line with
  | some t =>
    if t.await.contains cluster then
      match s.noticeData cluster line w link with
      | some s => s.wbUpd cluster line fun w => { w with noticed := true }
      | none => s
    else if t.wbs.contains cluster then
      match s.noticeData cluster line w link with
      | some s => ((taken s).setTxn line { t with wbs := setDel t.wbs cluster }).progress line
      | none => s
    else s
  | none =>
    if s.heldLine line then s
    else if w.taken || s.dirOf line != some (.owner cluster) then taken s
    else
      match s.noticeData cluster line w link with
      | some s => taken (s.setDir line none)
      | none => s

/-- An earlier message of the cluster cache to the slice has not arrived; a held request does not keep a notice waiting
(R277). -/
def State.noticeTurn (s : State) (w : WbEnt) : Bool :=
  let slice := s.homeSlice w.line
  !(s.coh.reqs.any fun q => q.agent == 0 && q.kind.ofCache && q.cluster == w.cluster && decide (q.id < w.serial) &&
    s.homeSlice (q.addr / 128) == slice && !s.heldLine (q.addr / 128)) &&
  !(s.coh.wb.any fun x => !x.noticed && x.cluster == w.cluster && decide (x.serial < w.serial) && s.homeSlice x.line == slice)

/-- A notice of a line that is or was in M (dirty) or E: the cluster evicts the line now if its buffer does not already
hold it. -/
def State.writeBack (s : State) (dirty : Bool) (cluster line : Nat) (link : Option (Nat × Nat)) : State :=
  let s' := match s.wbFind cluster line with
    | some _ => s
    | none => match s.ccFind cluster line with
      | some c => if c.st = (if dirty then CState.M else .E) then (s.evictCc cluster line).getD s else s
      | none => s
  match s'.wbFind cluster line with
  | some w => if w.dirty = dirty ∧ w.noticed = false ∧ s'.noticeTurn w = true then s'.notice cluster line w link else s
  | none => s

def execWbDirty (cluster line : Nat) (link : Option (Nat × Nat)) (s : State) : Out := .next <| s.writeBack true cluster line link
def execWbClean (cluster line : Nat) (s : State) : Out := .next <| s.writeBack false cluster line none

/-- The acknowledgement frees the buffer entry. -/
def execWbAck (cluster line : Nat) (s : State) : Out :=
  .next <| s.setWb (dropFirst (fun w => w.cluster == cluster && w.line == line && w.acked) s.coh.wb)

/-! ### Data reaches a cluster, and the end of a transaction -/

/-- Lines that a cluster cache of 4 MiB holds (R275). -/
def ccLines : Nat := 32768

/-- The line or the permission is installed; `victim` is the line that the cluster evicts to make room, which a full cache
needs; `link` names a sector of the data, and a wire of its path, whose codeword could not be corrected (R18). -/
def State.fill (s : State) (cluster line : Nat) (victim : Option Nat) (link : Option (Nat × Nat)) : State :=
  match s.coh.grants.find? fun g => g.cluster == cluster && g.line == line with
  | none => s
  | some g =>
    match (match victim with | some v => if v = line then some s else s.evictCc cluster v | none => some s) with
    | none => s
    | some t =>
      if (t.ccFind cluster line).isNone && decide (ccLines ≤ (t.coh.cc.filter fun e => e.1 % 128 == cluster).length) then s
      else
        let s := { t with coh := { t.coh with grants := dropFirst (· == g) t.coh.grants } }
        let old := s.ccFind cluster line
        let d := match g.data, old with
          | some d, _ => d
          | none, some c => (c.data, c.poison)
          | none, none => s.homeData line
        let (s, d) := s.lineLink d (link.filter fun _ => g.data.isSome)
        let s := (s.setCc cluster line ⟨g.st, d.1, d.2⟩).mergePend cluster line
        match s.coh.pend.find? fun q => q.cluster == cluster && q.line == line with
        | some _ => s.askOwn (cluster * 8) cluster line
        | none => s

def execClusterFillResponse (cluster line : Nat) (victim : Option Nat) (link : Option (Nat × Nat)) (s : State) : Out :=
  .next <| s.fill cluster line victim link

/-- The next request of a line's queue starts, once the line's reductions are applied, no change of its home holds it and
a tracker is free. -/
def State.startNext (s : State) (line : Nat) : State :=
  match s.coh.waitq.find? fun r => r.addr / 128 == line with
  | none => s
  | some r =>
    if s.hasReds line || s.heldLine line || s.trackersFull (s.homeSlice line) then s
    else ({ s with coh := { s.coh with waitq := dropFirst (· == r) s.coh.waitq } }).startTxn r

/-- A served transaction ends once its grants have arrived; the next queued request starts (R279). One that waited for
a way goes on, and one that waits for a directory entry has the least recently used entry evicted (R281). -/
def execHomeTransactionComplete (line : Nat) (s : State) : Out :=
  .next <| match s.txn line with
    | some t =>
      if !t.served then
        if s.dirFull line t then s.dirRoom line else s.progress line
      else if s.coh.grants.any fun g => g.line == line then s
      else ({ s with coh := { s.coh with txns := tabDel s.coh.txns line } }).startNext line
    | none => s.startNext line

/-! ### Reductions, R291, R292 -/

/-- The buffered reductions of a slice. -/
def State.bufferUse (s : State) (slice : Nat) : Nat := (s.coh.reds.filter fun r => r.slice == slice).length

/-- The buffered entry that a reduction combines with: the last one of its 8-byte word, when both name one address,
operation and width and the operation is not a floating-point add (R292). -/
def State.redMate (s : State) (a : AtomReq) : Option RedEnt :=
  match (s.coh.reds.filter fun x => x.a.addr / 8 == a.addr / 8).getLast? with
  | some x => if a.op != 1 && !a.bad && !x.a.bad && x.a.op == a.op && x.a.w64 == a.w64 && x.a.addr == a.addr then some x else none
  | none => none

/-- A reduction joins the buffer; it is counted when it is applied. -/
def State.bufferRed (s : State) (r : Req) (a : AtomReq) (acked : Bool) : State :=
  let line := r.addr / 128
  let w := if acked then [] else [(r.id, r.unit)]
  let reds := match s.redMate a with
    | some m => s.coh.reds.map fun x => if x == m then
        { x with a := { x.a with lanes := x.a.lanes ++ a.lanes }, wait := x.wait ++ w, n := x.n + 1 } else x
    | none => s.coh.reds ++ [⟨line, s.homeSlice line, a, r.serial, w, 1⟩]
  let s := { s with coh := { s.coh with reds := reds } }
  if acked then s.atomAnswer r.unit r.id [] false else s

/-- A reduction that its home has taken in: applied at once on a present idle line in state I, buffered on a line that is
busy or has other work waiting and where its set has no eligible way, else started as a partial write (R280, R292). `t` is
the state without it; with a full buffer it waits at the slice's input, behind those that came there earlier, and `waited`
N-clocks are counted. -/
def State.redArrive (s t : State) (r : Req) (a : AtomReq) (waited : Nat) : State :=
  let line := r.addr / 128
  let slice := s.homeSlice line
  let full : State :=
    let u : State := if s.coh.redWait.any (fun q => q.id == r.id) then s else
      { t with coh := { t.coh with redWait := t.coh.redWait ++ [r] } }
    u.count (F.CS_RBFULL_COUNT (s.chunkPart r.addr)) waited
  if (s.coh.redWait.takeWhile fun q => q.id != r.id).any fun q => s.homeSlice (q.addr / 128) == slice then full
  else if s.lineOpen line && (s.cisAlloc line).isSome && !s.trackersFull slice then
    if s.onlyMem line (2 ^ (a.addr % 128 / 32)) == 0 && (s.dirOf line).isNone then
      ((t.applyRed line a).atomAnswer r.unit r.id [] false).countCs (F.CS_HIT_COUNT · 5) line 1
    else t.startTxn r
  else if s.bufferUse slice < 64 ∨ (s.redMate a).isSome then
    t.bufferRed r a ((s.dirOf line).isNone && !(match s.txn line with | some x => x.gives | none => false))
  else full

/-- A reduction on its way whose turn has come, or one that waits at a slice's input. -/
def State.takeRed (s : State) (id : Nat) : Option Req :=
  match s.coh.redWait.find? fun r => r.id == id with
  | some r => if s.heldLine (r.addr / 128) then none else some r
  | none => (s.takeReq id ReqKind.isRed).map (·.1)

def execRed (id waited err : Nat) (link : Option Nat) (s : State) : Out :=
  .next <|
    let s := s.opPoison id link ReqKind.isRed
    match s.takeRed id with
    | none => s
    | some r => s.meets (r.addr / 128) err fun s =>
      let t : State := { s with coh := { s.coh with
        reqs := s.coh.reqs.filter fun q => q.id != id, redWait := s.coh.redWait.filter fun q => q.id != id } }
      match r.kind with
      | .red a => s.redArrive t r a waited
      | _ => s

/-- Buffered reductions of an idle line are applied, and what waits behind them goes on. -/
def execReductionBufferApply (line : Nat) (s : State) : Out :=
  .next <| if s.hasReds line && !s.busy line && !s.heldLine line && !s.redsWait line then
      let t := s.applyReds line
      if t.hasReds line then s else t.startNext line
    else s

/-! ### The stream detector, R285 -/

/-- Line L continues the tracker's stream. -/
def Tracker.follows (t : Tracker) (cluster line : Nat) : Bool :=
  t.cluster == cluster &&
  ((t.dir != 2 && line == t.last + 1) || (t.dir != 1 && line + 1 == t.last)) &&
  (decide (t.hits ≥ 8) || line / 512 == t.last / 512)

/-- A miss in the normal class is watched: whether its fill carries NA. -/
def State.track (s : State) (cluster line : Nat) : Bool × State :=
  match s.coh.trackers.find? fun t => t.follows cluster line with
  | some t =>
    let u : Tracker := { t with last := line, dir := if line = t.last + 1 then 1 else 2, hits := t.hits + 1 }
    (decide (t.hits ≥ 8), { s with coh := { s.coh with trackers := dropFirst (· == t) s.coh.trackers ++ [u] } })
  | none =>
    let l := s.coh.trackers
    let l := if (l.filter fun t => t.cluster == cluster).length ≥ 16 then dropFirst (fun t => t.cluster == cluster) l else l
    (false, { s with coh := { s.coh with trackers := l ++ [⟨cluster, line, 0, 1⟩] } })

/-- A tracker without a miss for 4,096 N-clocks is freed; it is named by its cluster and its last line. -/
def execStreamTrackerExpiry (cluster last : Nat) (s : State) : Out :=
  .next { s with coh := { s.coh with trackers := dropFirst (fun t => t.cluster == cluster && t.last == last) s.coh.trackers } }

/-! ### Rebuilding a directory set, R294 -/

/-- The recalls of a damaged set end: every line of the set is back at its home, and the set is empty. -/
def execDirectoryRebuildComplete (slice set : Nat) (s : State) : Out :=
  .next <| if s.coh.rebuild.contains (slice, set) then
      let lines := (s.coh.cc.map fun e => e.1 / 128) ++ s.coh.dir.map fun e => e.1
      let mine := lines.eraseDups.filter fun l => s.homeSlice l == slice && dirSet l == set
      if mine.any s.busy then s
      else
        match mine.foldl (fun (o : Option State) l => o.bind fun s => match s.ownedData l with
          | some d => (s.homeTake l d).map fun s => s.dropCopies l
          | none => some (s.dropCopies l)) (some s) with
        | none => s
        | some s =>
          let s := { s with coh := { s.coh with rebuild := s.coh.rebuild.filter fun x => x != (slice, set) } }
          s.event 2 4 0x0002 none slice 0x3FF [slice, set]
    else s

end Sys2Proof.Machine
end

