-- ==== Sys2Proof/Machine/Cistern.lean ====
section
/-! DEFINITION. The data array against memory: fills, the assignment of homes and rehoming, flushes, pinning, and the
replacement of a slice (R266 to R272, R286 to R289, R293, R295, R302, R311). -/

namespace Sys2Proof.Machine

/-! ### Reads of the controllers, R302, R311 -/

/-- Sectors of a line read for a partition: the checks, the counters, the charge. `errs` lists sector and result. -/
def State.sectorsRead (s : State) (line mask : Nat) (errs : List (Nat × Nat)) (narrow : Bool) : State :=
  let p := s.chunkPart (line * 128)
  let l := (List.range 4).filter fun j => bit mask j
  let s := s.each l fun s j => s.sectorCheck (4 * line + j) (tabGet 0 errs j)
  let bad := (l.filter fun j => s.sectorPoison (4 * line + j)).length
  let s := (s.chanAccess p (line * 128) l.length).sampleTime 4 (chanOf (line * 128))
  let s := s.count (if narrow then F.MC_RDNARROW_COUNT p else F.MC_RDLINE_COUNT p) l.length
  if bad = 0 then s else s.count (F.MC_POISON_COUNT p) bad

/-- The sectors read enter the data array unless the request allocates nothing; a read without an eligible way is
served without allocation (R267, R285). -/
def State.fillArray (s : State) (line mask : Nat) (k : ReqKind) (recent : Bool) : State :=
  let put := fun (s : State) => match s.cisAlloc line with
    | none => s
    | some t =>
      let d := s.homeData line
      let u := t.cisPut line mask d.1 d.2 false
      if cisLost s t ≠ [] ∧ recent then u.thrash line else u
  match k with
  | .rdShared na => if s.naHolds line na then s.countCs F.CS_NA_COUNT line 1 else put s
  | .rdOwn => put s
  | .upgrade => put s
  | .wrPart _ _ => put s
  | .atomic _ => put s
  | .red _ => put s
  | _ => s

/-- What a merged read does with the array: it allocates when one of its members allocates (R280, R284). -/
def State.fillKind (s : State) (line : Nat) (t : Txn) : ReqKind :=
  match (t.req :: t.joiners).find? fun r => match r.kind with | .rdShared na => !s.naHolds line na | _ => false with
  | some r => r.kind
  | none => t.req.kind

/-- Reads that hold entries of a channel. -/
def State.chanReads (s : State) (ch : Nat) : Tab Txn :=
  s.coh.txns.filter fun e => e.2.mem && decide (e.2.ents ≠ 0) && chanOf (e.1 * 128) == ch

/-- The partition has not used up its guarantee of the window: the read's next burst comes before every request above a
guarantee (R319), and takes the others of the read with it. -/
def State.guaranteed (s : State) (ch : Nat) (e : Nat × Txn) : Bool :=
  let p := s.chunkPart (e.1 * 128)
  decide (s.chargeOf ch p < s.guarOf ch p)

/-- A read finds its row open. -/
def State.rowHit (s : State) (line : Nat) : Bool :=
  tabFind s.mc.opened (s.bankAt (line * 128)) == some (s.rowOpen (line * 128))

/-- The scheduler's turn (R306, R319): guaranteed reads come before the others; within its class a read goes when it is the
oldest, which is the first to grow older than 512 N-clocks, or the oldest to an open row. Reads at the cap wait. -/
def State.chanTurn (s : State) (line : Nat) (t : Txn) : Bool :=
  let ch := chanOf (line * 128)
  let open' := fun (e : Nat × Txn) => !s.rowHeld (e.1 * 128) && !s.capped (s.chunkPart (e.1 * 128)) (e.1 * 128) e.2.ents
  let first := fun (l : Tab Txn) => l.all fun e => decide (t.req.serial ≤ e.2.req.serial)
  let l := (s.chanReads ch).filter open'
  let l := if l.any (s.guaranteed ch) then l.filter (s.guaranteed ch) else l
  l.any (fun e => e.1 == line) && (first l || (s.rowHit line && first (l.filter fun e => s.rowHit e.1)))

/-- Data leaves the controller for a read that holds entries: the entries are free again. -/
def State.memDone (s : State) (line : Nat) (t : Txn) : State := (s.setTxn line { t with mem := false, ents := 0 }).memFree line t

/-- A sector of the line that is read from memory met, on its way to the home, a codeword that could not be corrected: it is
poisoned where it was filled, and in the answer (R18, R301). The link names sector and wire. -/
def State.linkPoison (s : State) (line mask : Nat) (t : Txn) (link : Option (Nat × Nat)) : State × Txn :=
  match link.filter fun e => wireReal e.2 && bit mask e.1 with
  | none => (s, t)
  | some (j, w) =>
    let s := s.badCodeword w
    let s := match s.cisFind line with
      | some c => if bit c.sv j then s.setCis line { c with sp := c.sp ||| 2 ^ j } else s
      | none => s
    let d := s.lineNow line
    (s, { t with peek := some (d.1, d.2 ||| 2 ^ j) })

/-- The sectors of a line read arrive at the home: the line fills, the request is served. -/
def State.lineCame (s : State) (line : Nat) (t : Txn) (errs : List (Nat × Nat)) (recent : Bool) (link : Option (Nat × Nat)) :
    State :=
  let mask := s.needs line t
  let s := (s.sectorsRead line mask errs false).memDone line t
  let (s, t) := (s.fillArray line mask (s.fillKind line t) recent).linkPoison line mask t link
  s.serve line { t with mem := false, ents := 0 }

/-- A narrow read's sector goes straight to the requester and allocates nowhere. -/
def State.sectorCame (s : State) (line : Nat) (t : Txn) (err : Nat) (link : Option Nat) : State :=
  let j := t.req.addr % 128 / 32
  let (s, t) := ((s.sectorsRead line (2 ^ j) [(j, err)] true).memDone line t).linkPoison line (2 ^ j) t (link.map fun w => (j, w))
  s.serve line { t with mem := false, ents := 0 }

def execMemoryReadResponse (line : Nat) (errs : List (Nat × Nat)) (recent : Bool) (link : Option (Nat × Nat)) (s : State) : Out :=
  .next <| match s.txn line with
    | some t =>
      if !t.mem || t.req.kind == .rdNarrow || !s.chanTurn line t || s.noWay line t || s.dirFull line t then s
      else s.lineCame line t errs recent link
    | none => s

def execNarrowReadResponse (line err : Nat) (link : Option Nat) (s : State) : Out :=
  .next <| match s.txn line with
    | some t =>
      if !t.mem || t.req.kind != .rdNarrow || !s.chanTurn line t then s else s.sectorCame line t err link
    | none => s

/-! ### A line leaves its home -/

/-- Every copy is recalled, reductions are applied, dirty sectors are written back; the line is invalidated, or stays
clean and pinned where `keep` holds (R271, R272). -/
def State.cleanLine (s : State) (keep : Bool) (line : Nat) : State :=
  let v := s.newest line
  let l := s.lineReds line
  let own := (s.ownedData line).isSome
  let c := s.cisFind line
  let mask := if own then 15 else redMask l ||| (match c with | some c => c.sd | none => 0)
  let need := s.onlyMem line (redMask l)
  let s := (s.redCount line need l).fetched line need false
  let s := (s.dropCopies line).dropReds line
  let s := if mask = 0 then s else s.memWrite line mask v.1 v.2
  let s := match c with
    | some c => if keep && c.pin then
        let sv := c.sv ||| mask
        s.setCis line { c with data := mixSectors sv v.1 c.data, sv := sv, sd := 0, sp := v.2 &&& sv }
      else s.delCis line
    | none => s
  (if l = [] then s else s.breakResv line).ackReds l

/-- Lines are cleaned, but for those that are busy or whose reductions wait for their channel: whether none is left. -/
def State.cleanLines (s : State) (keep : Bool) : List Nat → State × Bool
  | [] => (s, true)
  | line :: r =>
    if s.busy line || s.redsWait line then ((s.cleanLines keep r).1, false)
    else (s.cleanLine keep line).cleanLines keep r

/-- The lines that stand anywhere in the caches, the directory or the reduction buffers. -/
def State.heldLines (s : State) : List Nat :=
  let c : List Nat := s.coh.cc.map fun e => e.1 / 128
  let l : List Nat := c ++ s.coh.dir.map (·.1) ++ s.coh.cis.map (·.1) ++ s.coh.reds.map (·.line) ++
    s.coh.pend.map (·.line) ++ s.coh.wb.map (·.line)
  l.eraseDups

/-- PINNED of a partition brought up to date. -/
def State.showPinned (s : State) (p : Nat) : State :=
  s.set (F.CS_PIN_STAT_PINNED p) (s.coh.cis.filter fun e => e.2.pin && s.chunkPart (e.1 * 128) == p).length

/-! ### Assigning homes, R268, R271 -/

/-- The home lists of two states differ for some chunk. -/
def homesDiffer (s t : State) : Bool := (List.range 768).any fun c => s.homeList c != t.homeList c

/-- A write to CS_PSLICE or CS_HOMEMAP that passed its own checks; at the configuration step nothing is cached, and it
holds at once. -/
def State.homeReg (s : State) (off : Nat) (v : BitVec 64) : State × Bool :=
  if s.on F.CS_REHOME_BUSY then (s.set F.CS_ERR_BUSY 1, false)
  else
    let t := s.setRaw off v
    if homesDiffer s t && s.boot.phase != .running 9 then
      ({ s with coh := { s.coh with rehome := some (off, v) } }.set F.CS_REHOME_BUSY 1, true)
    else ((List.range 16).foldl State.showPinned t, true)

def State.psliceWrite (s : State) (p w v : Nat) : State × Bool :=
  let n := s.presentSlices w v
  if s.on F.CS_REHOME_BUSY then (s.set F.CS_ERR_BUSY 1, false)
  else if (List.range 16).any fun q => q != p && (s.presentSlices w (s.get (F.CS_PSLICE_SLICES q w)) &&& n) != 0 then
    (s.set F.CS_ERR_OVERLAP 1, false)
  else s.homeReg (A.CS_PSLICE p w) (BitVec.ofNat 64 n)

def State.homemapWrite (s : State) (c v : Nat) : State × Bool := s.homeReg (A.CS_HOMEMAP c) (BitVec.ofNat 64 (bits v 5 0))

def execCsPsliceWrite (p w : Nat) (v : BitVec 64) (s : State) : Out :=
  .next <| if s.barOk && decide (p < 16 ∧ w < 4) then (s.psliceWrite p w v.toNat).1 else s
def execCsHomemapWrite (c : Nat) (v : BitVec 64) (s : State) : Out :=
  .next <| if s.barOk && decide (c < 768) then (s.homemapWrite c v.toNat).1 else s

/-- The lines whose home the write in progress changes. -/
def State.moving (s : State) : List Nat :=
  match s.coh.rehome with
  | none => []
  | some (off, v) =>
    let t := s.setRaw off v
    s.heldLines.filter fun l => t.homeSlice l != s.homeSlice l

/-- The lines whose home changes leave the caches; when none is left, the rehome ends: the new assignment holds, and the
reservations of the affected granules are broken. -/
def execRehomeComplete (s : State) : Out :=
  .next <| match s.coh.rehome with
    | none => s
    | some (off, v) =>
      match s.cleanLines false s.moving with
      | (s, false) => s
      | (s, true) =>
        let t := s.setRaw off v
        let resv := s.coh.resv.filter fun r =>
          t.homeSlice (2 * r.granule) == s.homeSlice (2 * r.granule) &&
          t.homeSlice (2 * r.granule + 1) == s.homeSlice (2 * r.granule + 1)
        let s := (s.setRaw off v).set F.CS_REHOME_BUSY 0
        let s := { s with coh := { s.coh with rehome := none, resv := resv } }
        s.each (List.range 16) State.showPinned

/-! ### The partition controls, R268, R286 -/

/-- CS_PART_CTL: SDIS as written; PINWAYS ignored above 21 or while the partition holds a pinned line. -/
def State.partCtlWrite (s : State) (p v : Nat) : State × Bool :=
  let n := bits v 4 0
  let s := s.set (F.CS_PART_CTL_SDIS p) (bits v 8 8)
  let held := s.on F.CS_REHOME_BUSY || s.coh.cis.any fun e => e.2.pin && s.chunkPart (e.1 * 128) == p
  let s := if 21 < n then s.set F.CS_ERR_PINCAP 1 else s
  let s := if held then s.set F.CS_ERR_BUSY 1 else s
  if 21 < n ∨ held then (s, false) else (s.set (F.CS_PART_CTL_PINWAYS p) n, true)

def execPinwaysWrite (p : Nat) (v : BitVec 64) (s : State) : Out :=
  .next <| if s.barOk && decide (p < 16) then (s.partCtlWrite p v.toNat).1 else s

/-! ### Flush, R272 -/

def State.flushGo (s : State) (p : Nat) : State :=
  if s.on (F.CS_FLUSH_BUSY p) then s.set F.CS_ERR_FLUSHBUSY 1 else s.set (F.CS_FLUSH_BUSY p) 1

def execCsFlush (p : Nat) (s : State) : Out :=
  .next <| if s.barOk && decide (p < 16) then s.flushGo p else s

def execFlushComplete (p : Nat) (s : State) : Out :=
  .next <| if p < 16 ∧ s.on (F.CS_FLUSH_BUSY p) then
      let z := s.cleanLines true (s.heldLines.filter fun line => s.chunkPart (line * 128) == p)
      if z.2 then z.1.set (F.CS_FLUSH_BUSY p) 0 else z.1
    else s

/-! ### Pinning, R287 -/

/-- A range is denied: outside local memory, past its end, or in a chunk of another partition. -/
def State.pinDenied (s : State) (p line n : Nat) : Bool :=
  decide (localTop < (line + n) * 128) ||
  (List.range ((line + n - 1) / 2 ^ 23 - line / 2 ^ 23 + 1)).any fun i => s.chunkPart ((line / 2 ^ 23 + i) * 2 ^ 30) != p

/-- A write of CS_PIN_CTL with GO. A pin that is denied while PINWAYS is 0 gives status 2 (DESIGN CHOICE: R287 orders the two
statuses by nothing but its text). -/
def State.pinGo (s : State) (p op : Nat) : State :=
  let s := s.set (F.CS_PIN_CTL_OP p) op
  if s.on (F.CS_PIN_CTL_BUSY p) then s.set (F.CS_PIN_CTL_STATUS p) 4
  else
    let s := s.set (F.CS_PIN_CTL_BUSY p) 1
    let op := if op = 3 then 1 else op
    let line := s.get (F.CS_PIN_BASE_LINE p)
    let n := max 1 (s.get (F.CS_PIN_LINES_COUNT p))
    let st := if op ≠ 2 ∧ s.pinDenied p line n then 2
      else if op = 0 ∧ s.get (F.CS_PART_CTL_PINWAYS p) = 0 then 3 else 8 + op
    { s with coh := { s.coh with pinning := tabIns s.coh.pinning p (st, line, n, 0) } }

def execPin (p : Nat) (s : State) : Out := .next <| if s.barOk && decide (p < 16) then s.pinGo p 0 else s
def execUnpinRange (p : Nat) (s : State) : Out := .next <| if s.barOk && decide (p < 16) then s.pinGo p 1 else s
def execUnpinAll (p : Nat) (s : State) : Out := .next <| if s.barOk && decide (p < 16) then s.pinGo p 2 else s

/-- The line stands whole in a way of the data array, pinned: read as under RD_ONCE, which takes an owner's line only from
M (R280, R287). -/
def State.pinIn (s : State) (line way : Nat) : State :=
  let d := s.lineNow line
  let own := (s.ownedData line).isSome
  let sd := match s.cisFind line with | some c => c.sd | none => 0
  let (n, s) := (s.fetched line (s.onlyMem line 15) false).tick
  s.setCis line ⟨s.homeSlice line, lineSet line, way, d.1, 15, if own then 15 else sd, d.2, true, n⟩

/-- One line pinned among the first n ways, which are reserved in the slices of partition p alone (R286): `none` while the
line, or every line in its way, is busy, or the line's channel cannot serve it; true when it is pinned. -/
def State.pinLine (s : State) (p n line : Nat) : Option (State × Bool) :=
  if s.busy line || s.heldLine line || s.redsWait line || s.chanWaits line (s.onlyMem line 15) then none
  else if s.sliceOwner (s.homeSlice line) ≠ some p then some (s, false)
  else
    let s := s.applyReds line
    let place := fun (s : State) =>
      match s.takeWay (s.homeSlice line) (lineSet line) (some n) with
      | some (w, t) => some (t.pinIn line w, true)
      | none =>
        let l := (s.cisSet (s.homeSlice line) (lineSet line)).filter fun e => decide (e.2.way < n)
        if l.all fun e => e.2.pin then some (s, false) else none
    if s.hasReds line then none
    else
      match s.cisFind line with
      | none => place s
      | some c => if c.pin then some (s, true) else if c.way < n then some (s.pinIn line c.way, true) else place s

/-- Lines pinned in ascending order up to one that must wait: the state, the lines not done, and those left unpinned. -/
def State.pinLines (s : State) (p n line : Nat) : Nat → Nat → State × Nat × Nat
  | 0, miss => (s, 0, miss)
  | k + 1, miss =>
    match s.pinLine p n line with
    | none => (s, k + 1, miss)
    | some (t, ok) => t.pinLines p n (line + 1) k (miss + b2n (!ok))

/-- PIN cleared on the lines a test accepts. -/
def State.unpin (s : State) (f : Nat → Bool) : State :=
  { s with coh := { s.coh with cis := s.coh.cis.map fun e => if f e.1 then (e.1, { e.2 with pin := false }) else e } }

/-- The end of a pin operation: STATUS, PINNED, BUSY. -/
def State.pinEnd (s : State) (p st : Nat) : State :=
  let s := { s with coh := { s.coh with pinning := tabDel s.coh.pinning p } }
  ((s.set (F.CS_PIN_CTL_STATUS p) st).set (F.CS_PIN_CTL_BUSY p) 0).showPinned p

def execPinOperationComplete (p recent : Nat) (s : State) : Out :=
  .next <| match tabFind s.coh.pinning p with
    | none => s
    | some (st, line, n, out) =>
      if st = 8 then
        let z := s.pinLines p (s.get (F.CS_PART_CTL_PINWAYS p)) line n out
        let t := z.1.each (List.range (min recent (cisLost s z.1).length)) fun t _ => t.thrash line
        if z.2.1 = 0 then (t.set (F.CS_PIN_STAT_NOTPINNED p) z.2.2).pinEnd p (if z.2.2 = 0 then 0 else 1)
        else { t with coh := { t.coh with pinning := tabIns t.coh.pinning p (8, line + n - z.2.1, z.2.1, z.2.2) } }
      else if st = 9 then (s.unpin fun l => decide (line ≤ l ∧ l < line + n)).pinEnd p 0
      else if st = 10 then (s.unpin fun l => s.chunkPart (l * 128) == p).pinEnd p 0
      else s.pinEnd p st

/-! ### Slice replacement, R295, R516 -/

/-- A slice is to be replaced: its spare is copied to, its requests held; without a spare it leaves the home lists of
its partition through a rehome of that partition's lines. -/
def State.sliceWant (s : State) (i reason : Nat) : State :=
  if (s.replFind 4 i).isSome || !s.slThere i then s
  else
    match s.spareSlices i with
    | x :: _ =>
      let s := s.setRepl (s.sp.repl ++ [⟨4, i, x, 1, 0, reason⟩])
      { s with coh := { s.coh with copying := setIns s.coh.copying i } }
    | [] => s.setRepl (s.sp.repl ++ [⟨4, i, 0, 2, 0, reason⟩])

/-- The replacement of a slice, or the rehome of what it homed, is a service event for the partition that owns it. -/
def State.sliceEvent (s : State) (owner : Option Nat) (code phys i : Nat) (e : RepEnt) : State :=
  let s := s.spareEventFor owner code 2 phys i e
  match owner with
  | some p => s.svcPipes fun x => x.part == p
  | none => s

/-- The slot of a slice that leaves without a spare becomes absent: the lines it homes leave first (R271). -/
def State.sliceDrop (s : State) (r : Repl) : State :=
  let t := s.setSlSlot r.unit 0
  let z := s.cleanLines false (s.heldLines.filter fun line => t.homeSlice line != s.homeSlice line)
  if s.on F.CS_REHOME_BUSY then s
  else if !z.2 then z.1
  else
    let u := s.slPhys r.unit - 1
    let w := s.wearOf 4 u
    let owner := s.sliceOwner r.unit
    let resv := s.coh.resv.filter fun x => t.homeSlice (2 * x.granule) == s.homeSlice (2 * x.granule)
    let s := { z.1 with coh := { z.1.coh with resv := resv } }
    let s := (s.replDel 4 r.unit).setSlSlot r.unit 0
    let s := s.each (List.range 16) fun s p =>
      s.set (F.CS_PSLICE_SLICES p (r.unit / 64)) (s.presentSlices (r.unit / 64) (s.get (F.CS_PSLICE_SLICES p (r.unit / 64))))
    let s := (s.each (List.range 16) State.showPinned).retire 2 u r.reason w
    s.sliceEvent owner 3 u r.unit ⟨0, r.reason, 0xFFFFFFFF, w⟩

/-- The copy of a retiring slice ends: the spare takes the logical slot, the old slice is retired, held requests
proceed. -/
def execSliceCopyComplete (slice : Nat) (s : State) : Out :=
  .next <| match s.replFind 4 slice with
    | none => s
    | some r =>
      if r.stage = 2 then s.sliceDrop r
      else if s.coh.txns.any fun e => s.homeSlice e.1 == slice then s
      else
        let u := s.slPhys slice - 1
        let w := s.wearOf 4 u
        let s := { s with coh := { s.coh with copying := setDel s.coh.copying slice } }
        let s := (s.replDel 4 slice).setSlSlot slice (r.spare + 1)
        let s := s.retire 2 u r.reason w
        let s := s.repSet 2 r.spare ⟨1, r.reason, slice, 0⟩
        (s.sliceEvent (s.sliceOwner slice) 2 r.spare slice ⟨1, r.reason, slice, 0⟩).retireDone 2 slice

end Sys2Proof.Machine
end

