-- ==== Sys2Proof/Machine/Link.lean ====
section
/-! DEFINITION. The fabric's ports: flits, link retry, credits, the regulator, and the states of a port (R417 to R425,
R445, R450). -/

namespace Sys2Proof.Machine

/-- The port of loopback, which no link serves (R429). -/
def loopPort : Nat := 36

def State.portState (s : State) (j : Nat) : Nat := s.get (F.GF_PORT_STAT_STATE j)

/-! ### Packets as bytes, R423 to R425 -/

/-- Bytes of a data block. -/
def blockSize (sz : Nat) : Nat := [8, 16, 32, 64, 128].getD sz 0

/-- Types that carry data. -/
def pktHasData (ty : Nat) : Bool := ty == 2 || ty == 3 || ty == 4

/-- Slots of a packet. -/
def pktSlots (ty : Nat) (mask : Bool) (sz : Nat) : Nat :=
  2 + b2n mask + (if pktHasData ty then (blockSize sz + 15) / 16 else 0)
def Packet.slots (p : Packet) : Nat := pktSlots p.ty p.hasMask p.sz

/-- The header without its ECRC. -/
def Packet.header (p : Packet) (ecrc : Nat) : List Byte :=
  toBytes 1 (p.ty + p.gcls * 16 + b2n p.hasMask * 64 + b2n p.opn * 128) ++ toBytes 1 p.sz ++ toBytes 2 p.dst ++
  toBytes 2 p.src ++ toBytes 2 p.cgen ++ toBytes 5 p.off ++ toBytes 3 p.psn ++ toBytes 2 p.tag ++ toBytes 2 p.dom ++
  toBytes 1 p.spart ++ toBytes 1 p.status ++ toBytes 2 0 ++ toBytes 4 ecrc ++ toBytes 2 p.sinst ++ toBytes 2 p.dinst

/-- The slots after the header. -/
def Packet.tail (p : Packet) : List Byte :=
  (if p.hasMask then toBytes 16 p.mask else []) ++
  (if pktHasData p.ty then ((p.data ++ List.replicate 16 0).take ((blockSize p.sz + 15) / 16 * 16)) else [])

/-- The packet with its ECRC. -/
def Packet.bytes (p : Packet) : List Byte := p.header (crc32c (p.header 0 ++ p.tail)) ++ p.tail

/-- A packet read from its slots. -/
def packetOf (l : List Byte) : Packet :=
  let b := fun i k => bytesAt l i k
  let ty := b 0 1 % 16
  let mask := bit (b 0 1) 6
  let sz := b 1 1 % 8
  let at' := if mask then 48 else 32
  { ty := ty, gcls := bits (b 0 1) 5 4, hasMask := mask, opn := bit (b 0 1) 7, sz := sz
    resv := b 1 1 / 8 != 0 || b 20 1 / 16 != 0 || b 22 2 != 0 || decide (4 < sz)
    dst := b 2 2, src := b 4 2, cgen := b 6 2, off := b 8 5, psn := b 13 3, tag := b 16 2, dom := b 18 2
    spart := b 20 1 % 16, status := b 21 1, sinst := b 28 2, dinst := b 30 2
    mask := if mask then b 32 16 else 0
    data := if pktHasData ty then (l.drop at').take (blockSize sz) else [] }

/-- The packet's ECRC holds. -/
def ecrcOk (l : List Byte) : Bool :=
  bytesAt l 24 4 == crc32c (l.take 24 ++ List.replicate 4 0 ++ l.drop 28)

/-! ### Flits, R420, R421 -/

/-- A flit: FSEQ, FTYPE, ACKSEQ, credits, RSEQ and the 15 slots. -/
def flitBytes (fseq ftype ack : Nat) (cred : List Nat) (rseq : Nat) (slots : List Byte) : List Byte :=
  let body := (slots ++ List.replicate 240 0).take 240
  let h := toBytes 2 (fseq % 4096 + ftype * 4096) ++ toBytes 2 (ack % 4096) ++
    ((List.range 4).flatMap fun i => toBytes 1 (cred.getD i 0)) ++ toBytes 4 (rseq % 4096)
  h ++ toBytes 4 (crc32c (h ++ [0, 0, 0, 0] ++ body)) ++ body

/-- A flit arrives whole: its length and FCRC hold. -/
def flitGood (l : List Byte) : Bool :=
  l.length == 256 && bytesAt l 12 4 == crc32c (l.take 12 ++ [0, 0, 0, 0] ++ l.drop 16)
def flitType (l : List Byte) : Nat := bytesAt l 0 2 / 4096
def flitSeq (l : List Byte) : Nat := bytesAt l 0 2 % 4096
def flitAck (l : List Byte) : Nat := bytesAt l 2 2 % 4096
def flitCred (l : List Byte) (i : Nat) : Nat := bytesAt l (4 + i) 1
def flitRseq (l : List Byte) : Nat := bytesAt l 8 4 % 4096
/-- A reserved FTYPE or a reserved field that is not zero. -/
def flitBad (l : List Byte) : Bool := decide (3 < flitType l) || bytesAt l 2 2 / 4096 != 0 || bytesAt l 8 4 / 4096 != 0

/-- ACKSEQ of an outgoing flit: the last data flit received in sequence. -/
def Port.ack (p : Port) : Nat := (p.exp + 4095) % 4096

/-- A flit without packets leaves: idle 1, retry request 2, credit initialisation 3. -/
def State.flitOut (s : State) (j ftype : Nat) (cred : List Nat) (rseq : Nat) : State :=
  let p := s.port j
  s.emit (.flit j (flitBytes p.fseq ftype p.ack cred rseq []))

/-! ### The regulator and sending, R422, R445 -/

/-- CAP of a partition: 0 and values above 64 act as 64. -/
def State.fabCap (s : State) (p : Nat) : Nat :=
  let c := s.get (F.GF_REG_CAP p)
  if c = 0 ∨ 64 < c then 64 else c

/-- Slots a partition may use of a port in a window: CAP × 4 flits of 15 slots. -/
def State.fabRoom (s : State) (j p : Nat) : Nat := s.fabCap p * 60 - tabGet 0 (s.port j).charge p

/-- The control class is not charged. -/
def Packet.charged (p : Packet) : Bool := p.gcls != 0

/-- The packet may leave now. -/
def State.txReady (s : State) (j : Nat) (p : Packet) : Bool :=
  s.portState j == 2 && decide (p.slots ≤ (s.port j).cred.getD p.gcls 0) && decide ((s.port j).replay.length < 512) &&
  (!p.charged || decide (0 < s.fabRoom j p.spart))

/-- The packet's partition is within its guarantee of GUAR × 4 flits of the port's window. -/
def State.guaranteedTx (s : State) (j : Nat) (p : Packet) : Bool :=
  decide (tabGet 0 (s.port j).charge p.spart < s.get (F.GF_REG_GUAR p.spart) * 60)

/-- The packet leaves in a data flit of its own, which is kept for replay. -/
def State.txPut (s : State) (j : Nat) (p : Packet) : State :=
  let q := s.port j
  let b := flitBytes q.fseq 0 q.ack [] 0 p.bytes
  let q := { q with
    fseq := (q.fseq + 1) % 4096
    replay := q.replay ++ [(q.fseq, b)]
    cred := q.cred.set p.gcls (q.cred.getD p.gcls 0 - p.slots)
    charge := if p.charged then tabSet 0 q.charge p.spart (tabGet 0 q.charge p.spart + p.slots) else q.charge
    turn := if p.charged && !s.guaranteedTx j p then p.spart else q.turn }
  let s := (s.setPort j q).emit (.flit j b)
  if pktHasData p.ty then s.count (F.GF_TXDATA_COUNT p.spart) p.data.length else s

/-- Packets that keep their order: of one class and destination, and of one partition or one line (R442, R445). -/
def Packet.before (q p : Packet) : Bool :=
  q.gcls == p.gcls && q.dst == p.dst && (q.spart == p.spart || q.off / 128 == p.off / 128)
def waitsFor (l : List Packet) (p : Packet) : Bool := l.any (·.before p)

/-- Who goes first of the packets that may leave: the control class, then those within their partition's guarantee, then the
partitions in turn, from the one after that served last (R445). -/
def State.txRank (s : State) (j : Nat) (p : Packet) : Nat :=
  if !p.charged then 0 else if s.guaranteedTx j p then 1 else 2 + (p.spart + 15 - (s.port j).turn) % 16

/-- A packet is handed to a port: loopback goes straight to the chip's own inbox. -/
def State.tx (s : State) (j : Nat) (p : Packet) : State :=
  let q := s.port j
  if j = loopPort then s.setPort j { q with inbox := q.inbox ++ [(p, false)] }
  else if waitsFor q.txq p || !s.txReady j p then s.setPort j { q with txq := q.txq ++ [p] }
  else s.txPut j p

/-- The waiting packet that leaves next: of those that may leave and wait for no earlier one, the first of the least
rank. -/
def State.txNext (s : State) (j : Nat) : Option Packet :=
  let l := (s.port j).txq
  (l.filter fun p => s.txReady j p && l.find? (·.before p) == some p).foldl
    (fun a p => match a with
      | none => some p
      | some q => if s.txRank j p < s.txRank j q then some p else a) none

def State.txRun (s : State) (j : Nat) : Nat → State
  | 0 => s
  | n + 1 =>
    match s.txNext j with
    | none => s
    | some p => ((s.setPort j { s.port j with txq := dropFirst (· == p) (s.port j).txq }).txPut j p).txRun j n

/-- Waiting packets that may leave now do. -/
def State.txDrain (s : State) (j : Nat) : State := s.txRun j (s.port j).txq.length

/-- Writes that are given up leave the ports' queues: they are never sent again (R436). -/
def State.txForget (s : State) (chip : Nat) (psns : List Nat) : State :=
  let gone := fun (p : Packet) => (p.ty == 2 || p.ty == 3) && p.dst == chip && psns.contains p.psn
  s.each (List.range 36) fun s j =>
    if (s.port j).txq.any gone then
      (s.setPort j { s.port j with txq := (s.port j).txq.filter fun p => !gone p }).txDrain j
    else s

/-- The partner's acknowledgement and returned credits are taken. -/
def State.takeLink (s : State) (j : Nat) (l : List Byte) : State :=
  let p := s.port j
  let p := { p with
    replay := p.replay.filter fun e => !decide ((flitAck l + 4096 - e.1) % 4096 < 2048)
    cred := p.cred.mapIdx fun i c => c + flitCred l i }
  (s.setPort j p).txDrain j

/-! ### Port states, R450 -/

/-- Writes to chips whose list changes wait until the earlier ones are acknowledged (R432). -/
def State.holdConns (s : State) (f : Nat → Bool) : State :=
  { s with fab := { s.fab with conns := s.fab.conns.map fun c => if f c.chip && c.out != [] then { c with hold := true } else c } }

/-- The lists that name a port change. -/
def State.holdPort (s : State) (j : Nat) : State := s.holdConns fun c => bit (s.get (F.GF_ROUTE_PORTS c)) j

/-- A port enters a state from another: the lists change when UP is entered or left, and a record is written. -/
def State.portGo (s : State) (j st : Nat) : State :=
  let old := s.portState j
  let s := s.set (F.GF_PORT_STAT_STATE j) st
  let s := if (st = 2) ≠ (old = 2) then s.holdPort j else s
  if st = 2 then s.event 5 10 0x0101 none j 0x3FF [j, s.get (F.GF_PORT_STAT_LANES j), s.get (F.GF_PORT_STAT_SPARE j)]
  else if st = 3 then s.event 5 10 0x0102 none j 0x3FF [j, old]
  else if st = 1 ∧ old ≠ 0 ∧ old ≠ 1 then s.event 5 10 0x0103 none j 0x3FF [j, old]
  else if st = 4 then s.event 5 10 0x0104 none j 0x3FF [j, old]
  else if st = 0 ∧ old = 2 then s.event 5 10 0x00FF none j 0x3FF [j, old]
  else s

/-- The link starts afresh: replay buffer, credits and waiting packets are discarded. -/
def State.portFresh (s : State) (j : Nat) : State := s.setPort j { Port.idle with bad := (s.port j).bad, inbox := (s.port j).inbox }

/-- A port's lane width from its failed lanes: 3 all four, 1 or 2 the pair that holds none. -/
def laneWidth (bad : List Nat) : Nat :=
  if bad = [] then 3 else if bad.all (2 ≤ ·) then 1 else if bad.all (· < 2) then 2 else 0

/-- A free spare lane that may serve the port: its index k of GF_SPARE (R419). -/
def State.spareLane (s : State) (j : Nat) : Option Nat :=
  if s.get (F.GF_PORT_STAT_SPARE j) ≠ 0 then none
  else [2 * (j / 18), 2 * (j / 18) + 1].find? fun k =>
    bit (s.get (F.GF_SPARE_PORTS k)) (j % 18) && !s.on (F.GF_SPARE_USED k) && !s.on (F.GF_SPARE_FAILED k)

/-- Why a lane failed: its wear reached the threshold in this window, or it failed training (R419, R521). -/
def State.laneReason (s : State) (phys : Nat) : Nat := if s.sp.acted.contains (wearKey 6 phys) then 1 else 4

/-- A failed lane without a spare is written to the running repair state, once. -/
def State.laneRetire (s : State) (j i : Nat) : State :=
  let u := s.lanePhys j i
  if s.isRetired 9 u then s else s.retire 9 u (s.laneReason u) (s.wearOf 6 u)

/-- The failed lane that a spare would replace: the lowest whose replacement leaves the port a width. -/
def laneSpared (bad : List Nat) : Option Nat := bad.find? fun i => laneWidth (bad.filter (· ≠ i)) != 0

/-- A failed lane meets a free spare: the spare takes its slot when it trains and the partner accepts, else it is
marked failed. -/
def State.laneOutcome (s : State) (j : Nat) (spareOk : Bool) : State :=
  match laneSpared (s.port j).bad, s.spareLane j with
  | some i, some k =>
    let sp := 74 * (j / 18) + 72 + k % 2
    let why := s.laneReason (s.lanePhys j i)
    if spareOk then
      let s := s.laneRetire j i
      let s := ((s.set (F.GF_SPARE_USED k) 1).set (F.GF_SPARE_PORT k) (j % 18)).set (F.GF_PORT_STAT_SPARE j) (k % 2 + 1)
      let s := { s with sp := { s.sp with laneSlot := tabIns s.sp.laneSlot (laneLogical j i) (sp + 1) } }
      let s := (s.repSet 9 sp ⟨1, why, laneLogical j i, 0⟩).setPort j { s.port j with bad := (s.port j).bad.filter (· ≠ i) }
      s.event 5 10 0x0110 none j 0x3FF [j, i]
    else
      let e : RepEnt := ⟨2, 4, 0xFFFFFFFF, 0⟩
      ((s.set (F.GF_SPARE_FAILED k) 1).repSet 9 sp e).spareEvent 4 9 sp j e
  | _, _ => s

/-- A free spare may still give the port a width. -/
def State.spareLeftFor (s : State) (j : Nat) : Bool := (laneSpared (s.port j).bad).isSome && (s.spareLane j).isSome

/-- Failed lanes in both pairs: FAILED. -/
def State.portFail (s : State) (j : Nat) : State :=
  let s := s.each (s.port j).bad fun s i => s.laneRetire j i
  ((s.portFresh j).set (F.GF_PORT_STAT_LANES j) 0).portGo j 4

/-- A port that has trained or retrained enters UP at the width its lanes allow. -/
def State.portUp (s : State) (j : Nat) : State :=
  let bad := (s.port j).bad
  let s := s.each bad fun s i => s.laneRetire j i
  let was := s.get (F.GF_PORT_STAT_LANES j)
  let s := s.set (F.GF_PORT_STAT_LANES j) (laneWidth bad)
  let s := match bad with
    | i :: _ => if was = laneWidth bad then s else s.event 5 10 0x0111 none j 0x3FF [j, i]
    | [] => s
  s.portGo j 2

/-- A write of GF_PORT_CTL: EN set starts training from DOWN when its checks hold; EN cleared takes the port DOWN. -/
def State.portCtlWrite (s : State) (j v : Nat) : State × Bool :=
  let s := (s.set (F.GF_PORT_CTL_EN j) (bits v 0 0)).set (F.GF_PORT_CTL_PMD j) (bits v 1 1)
  if bit v 0 then
    if s.portState j ≠ 0 then (s, true)
    else if s.get F.GF_CHIPID_INST = 0 ∨ localTop < s.get F.GF_CONNBASE_BASE * 2 ^ 25 + 2 ^ 25 then
      (s.set F.GF_ERR_NOSTART 1, false)
    else ((s.portFresh j).portGo j 1, true)
  else if s.portState j = 0 then (s, true)
  else
    let s := ((s.portFresh j).set (F.GF_PORT_STAT_LANES j) 0).portGo j 0
    (s.setPort j { s.port j with rx := [] }, true)

def execPortEnable (port pmd : Nat) (s : State) : Out :=
  .next <| if s.barOk && decide (port < 36) then (s.portCtlWrite port (1 + pmd % 2 * 2)).1 else s
def execPortDisable (port pmd : Nat) (s : State) : Out :=
  .next <| if s.barOk && decide (port < 36) then (s.portCtlWrite port (pmd % 2 * 2)).1 else s

/-- Training succeeds: a free spare that may serve a failed lane has trained in its place and the partner accepts it (one
that does not is told by TRAINING_ATTEMPT_FAILED). -/
def State.laneServed (s : State) (j : Nat) : State := s.laneOutcome j true

/-- Credits of 2,048 slots for each class are announced, and the port enters UP. -/
def execPortTrained (port : Nat) (s : State) : Out :=
  .next <| if port < 36 ∧ s.portState port = 1 ∧ (s.port port).gotInit then
      let t := s.laneServed port
      if laneWidth (t.port port).bad = 0 then s
      else ((t.flitOut port 3 [128, 128, 128, 128] 0).portUp port).txDrain port
    else s

/-- An attempt fails on some lanes. -/
def execTrainingAttemptFailed (port : Nat) (lanes : List Nat) (spareOk : Bool) (s : State) : Out :=
  .next <| if port < 36 ∧ (s.portState port = 1 ∨ s.portState port = 3) then
      let bad := (lanes.filter (· < 4)).foldl setIns (s.port port).bad
      let s := (s.setPort port { s.port port with bad := bad }).laneOutcome port spareOk
      if laneWidth (s.port port).bad = 0 ∧ s.spareLeftFor port = false then s.portFail port else s
    else s

/-- A recovering port retrains: it replays from its buffer. -/
def execPortRetrained (port : Nat) (s : State) : Out :=
  .next <| if port < 36 ∧ s.portState port = 3 then
      let t := s.laneServed port
      if laneWidth (t.port port).bad = 0 then s
      else
        let s := t.setPort port { t.port port with asked := 0 }
        let s := (s.port port).replay.foldl (fun s e => s.emit (.flit port e.2)) (s.portUp port)
        s.txDrain port
    else s

/-- Not retrained in time. -/
def execRecoveryTimeout (port : Nat) (s : State) : Out :=
  .next <| if port < 36 ∧ s.portState port = 3 then
      ((s.portFresh port).set (F.GF_PORT_STAT_LANES port) 0).portGo port 1 else s

/-- A port in UP enters RECOVERY. -/
def State.portRecover (s : State) (j : Nat) : State := if j < 36 ∧ s.portState j = 2 then s.portGo j 3 else s

def execLossOfFecAlignment (port : Nat) (s : State) : Out := .next <| s.portRecover port
def execPartnerRetrainingRequest (port : Nat) (s : State) : Out := .next <| s.portRecover port

/-! ### Receiving flits -/

/-- The incoming write buffer of an I/O die holds 4,096 entries (R435): writes not yet handled, and those that came in
on the die and wait for earlier writes. -/
def State.writeBuffer (s : State) (die : Nat) : Nat :=
  ((List.range 18).map fun i => ((s.port (18 * die + i)).inbox.filter fun e => e.1.gcls == 2 && !e.2).length).foldl (· + ·) 0 +
  (s.fab.rconns.map fun c => (c.sigs.filter fun e => e.2.1 / 18 == die).length).foldl (· + ·) 0

/-- A packet's slots arrive whole: a foreign DST, a bad ECRC or a reserved type drops it (R430). -/
def State.deliver (s : State) (j : Nat) (l : List Byte) : State :=
  let p := packetOf l
  if p.dst ≠ s.get F.GF_CHIPID_CHIP ∨ !ecrcOk l ∨ 6 < p.ty then s.count F.GF_RXDROP_COUNT 1
  else
    let q := s.port j
    s.setPort j { q with inbox := q.inbox ++ [(p, p.gcls == 2 && decide (4096 ≤ s.writeBuffer (j / 18)))] }

/-- Packets taken from the received slots, empty slots skipped; what is not whole waits for the next flit. Answers the
slots of each class taken. -/
def State.parse (s : State) (j : Nat) : Nat → List Byte → List Nat → State × List Nat
  | 0, _, c => (s, c)
  | n + 1, l, c =>
    let rest := fun (s : State) => s.setPort j { s.port j with rx := l }
    if l.length < 16 then (rest s, c)
    else if bytesAt l 0 1 % 16 = 0 then s.parse j n (l.drop 16) c
    else
      let k := pktSlots (bytesAt l 0 1 % 16) (bit (bytesAt l 0 1) 6) (bytesAt l 1 1 % 8)
      if l.length < 16 * k then (rest s, c)
      else
        let g := bits (bytesAt l 0 1) 5 4
        (s.deliver j (l.take (16 * k))).parse j n (l.drop (16 * k)) (c.set g (c.getD g 0 + k))

/-- A retry is requested; the eighth request for one FSEQ takes the port to RECOVERY. -/
def State.askRetry (s : State) (j : Nat) : State :=
  let p := s.port j
  let s := (s.setPort j { p with asked := p.asked + 1 }).flitOut j 2 [] p.exp
  if p.asked + 1 = 8 then s.portRecover j else s

/-- A data flit, or any flit that arrives damaged: `fec` is 0 clean, 1 corrected, 2 uncorrectable, and `lanes` names the
lane of each corrected symbol, which counts for the lane's wear (R514). A flit accepted in
sequence gives up its packets, its ACKSEQ and its CRED, and is answered by an idle flit with its acknowledgement and the
slots' credits; a discarded one gives nothing (R421). -/
def execDataFlit (port fec : Nat) (lanes : List Nat) (flit : List Byte) (s : State) : Out :=
  .next <| if 36 ≤ port ∨ s.portState port ≠ 2 then s
    else
      let s := if fec = 1 then (s.count (F.GF_PORT_FEC_CORR port) 1).each (lanes.filter (· < 4)) fun s i => s.wear 6 (s.lanePhys port i) 1
        else if fec = 2 then s.count (F.GF_PORT_FEC_UNCORR port) 1 else s
      if fec = 2 ∨ !flitGood flit then s.askRetry port
      else if flitBad flit then s.count F.GF_RXDROP_COUNT 1
      else if flitType flit ≠ 0 then s
      else
        if flitSeq flit = (s.port port).exp then
          let s := s.takeLink port flit
          let p := s.port port
          let s := s.setPort port { p with exp := (p.exp + 1) % 4096, asked := 0 }
          let r := s.parse port 512 (p.rx ++ flit.drop 16) [0, 0, 0, 0]
          r.1.flitOut port 1 r.2 0
        else if (flitSeq flit + 4096 - (s.port port).exp) % 4096 < 2048 ∧ (s.port port).asked = 0 then s.askRetry port
        else s

/-- Whether a flit of a given type is as it should be; a damaged one is asked for again while the port is UP, and one
with a reserved field is counted and discarded. -/
def State.flitIn (s : State) (j st ftype : Nat) (flit : List Byte) (f : State → State) : State :=
  if 36 ≤ j ∨ s.portState j ≠ st then s
  else if !flitGood flit then (if st = 2 then s.askRetry j else s)
  else if flitBad flit then s.count F.GF_RXDROP_COUNT 1
  else if flitType flit = ftype then f s else s

/-- The I/O dies' caches write connection state back to its region in local memory (R434): which bytes, and what they
hold, is free. -/
def State.connBack (s : State) : State :=
  let base := s.get F.GF_CONNBASE_BASE * 2 ^ 25
  if localTop < base + 2 ^ 25 then s
  else
    { s with
      mem := ((Config.connBytes s.free).filter fun e => decide (e.1 < 2 ^ 25)).foldl (fun m e => tabSet 0 m (base + e.1) e.2) s.mem
      free := s.free + 1 }

/-- An idle flit. The write-backs of the connection state reach memory between packets, here. -/
def execIdleFlit (port : Nat) (flit : List Byte) (s : State) : Out :=
  .next <| s.flitIn port 2 1 flit fun s => (s.takeLink port flit).connBack

/-- A retry request: every kept flit from RSEQ on is sent again. -/
def execRetryRequest (port : Nat) (flit : List Byte) (s : State) : Out :=
  .next <| s.flitIn port 2 2 flit fun s =>
      let s := (s.takeLink port flit).count (F.GF_PORT_STAT_RETRY port) 1
      ((s.port port).replay.filter fun e => decide ((e.1 + 4096 - flitRseq flit) % 4096 < 2048)).foldl
        (fun s e => s.emit (.flit port e.2)) s

/-- The partner's credits for each class, in units of 16 slots, while the port trains. -/
def execCreditInitialisation (port : Nat) (flit : List Byte) (s : State) : Out :=
  .next <| s.flitIn port 1 3 flit fun s =>
      let p := s.port port
      s.setPort port { p with cred := (List.range 4).map fun i => 16 * flitCred flit i, gotInit := true }

/-- A port's regulator window ends. -/
def execFabricWindowBoundary (port : Nat) (s : State) : Out :=
  .next <| if port < 36 then (s.setPort port { s.port port with charge := [] }).txDrain port else s

end Sys2Proof.Machine
end

