-- ==== Sys2Proof/Machine/Fabric.lean ====
section
/-! DEFINITION. The fabric's reliable transport: routing, write connections, reads, incoming accesses, signals,
multicast, errors (R426 to R449). -/

namespace Sys2Proof.Machine

def State.chip (s : State) : Nat := s.get F.GF_CHIPID_CHIP
def State.inst (s : State) : Nat := s.get F.GF_CHIPID_INST

/-- First offset that reaches nothing at a destination, and names multicast groups at the own chip (R426, R429). -/
def winTop : Nat := 0xC000000000

/-! ### Routing, R431 -/

def routeHash (chip off : Nat) : Nat := (chip * 2 ^ 33 + off / 128) * 0x9E3779B97F4A7C15 % 2 ^ 64 / 2 ^ 32

/-- The port of a packet to a chip, if any. -/
def State.route (s : State) (chip off : Nat) : Option Nat :=
  if chip = s.chip then some loopPort
  else
    let l := (List.range 36).filter fun j => bit (s.get (F.GF_ROUTE_PORTS chip)) j && s.portState j == 2
    if !s.on (F.GF_ROUTE_V chip) || l.length == 0 then none
    else if s.get (F.GF_ROUTE_MODE chip) = 1 then l.head?
    else l[routeHash chip off * l.length / 2 ^ 32]?

/-- A route entry written: the list of that chip changes (R432). -/
def State.routeWrite (s : State) (c v : Nat) : State :=
  (s.setRaw (A.GF_ROUTE c) (BitVec.ofNat 64 (bits v 38 0))).holdConns (· == c)

/-! ### Connections -/

def Conn.new (chip : Nat) : Conn := ⟨chip, 0, 0, true, [], [], false⟩
def State.conn (s : State) (chip : Nat) : Conn := (s.fab.conns.find? fun c => c.chip == chip).getD (.new chip)
def State.setConn (s : State) (c : Conn) : State :=
  let l := s.fab.conns
  let l := if l.any (fun x => x.chip == c.chip) then updFirst (fun x => x.chip == c.chip) (fun _ => c) l else l ++ [c]
  { s with fab := { s.fab with conns := l } }
def State.rconn (s : State) (chip : Nat) : Option RConn := s.fab.rconns.find? fun c => c.chip == chip
def State.setRconn (s : State) (c : RConn) : State :=
  let l := s.fab.rconns
  let l := if l.any (fun x => x.chip == c.chip) then updFirst (fun x => x.chip == c.chip) (fun _ => c) l else l ++ [c]
  { s with fab := { s.fab with rconns := l } }

/-- A header from this chip. -/
def State.newPkt (s : State) (ty gcls chip : Nat) : Packet :=
  { ty := ty, gcls := gcls, hasMask := false, opn := false, sz := 0, resv := false, dst := chip, src := s.chip, cgen := 0,
    off := 0, psn := 0, tag := 0, dom := 0, spart := 0, status := 0, sinst := s.inst, dinst := (s.conn chip).inst,
    mask := 0, data := [] }

/-- The packet of a write. -/
def State.wrPkt (s : State) (chip : Nat) (w : TxWr) : Packet :=
  { s.newPkt (if w.sig then 3 else 2) 2 chip with
    hasMask := w.mask.isSome, opn := w.opn, sz := w.sz, cgen := w.org.cgen, off := w.off, psn := w.psn
    dom := s.get (F.GF_DOMAIN_DOMAIN w.org.part), spart := w.org.part, mask := w.mask.getD 0, data := w.data }

/-- The packet of a read. -/
def State.rdPkt (s : State) (r : RdOut) : Packet :=
  { s.newPkt 1 1 r.chip with
    sz := r.sz, cgen := r.org.cgen, off := r.off, tag := r.tag, dom := s.get (F.GF_DOMAIN_DOMAIN r.org.part)
    spart := r.org.part }

/-- A packet goes to the port its route names; without one it is not sent. -/
def State.txTo (s : State) (p : Packet) (off : Nat) : State :=
  match s.route p.dst off with
  | some j => s.tx j p
  | none => s

/-! ### Final errors, R447 -/

/-- The vector of GF_PERR, signalled at most once per 65,536 C-clocks: the first time always, later as the free value
says. -/
def State.perrSignal (s : State) (p : Nat) : State :=
  if s.fab.told.contains p then
    let (v, s) := s.draw
    if v.getLsbD 0 then s.interrupt (s.signalFn p) (s.get (F.GF_PERR_VEC p)) else s
  else
    ({ s with fab := { s.fab with told := setIns s.fab.told p } }).interrupt (s.signalFn p) (s.get (F.GF_PERR_VEC p))

/-- A final error of a request of partition p is recorded. -/
def State.fabErr (s : State) (org : Origin) (write : Bool) (code chip off : Nat) : State :=
  let p := org.part
  let cls := if org.agent = 0 && !write then 3 else 9
  let s := s.event cls 10 code (some p) org.unit org.ctx [chip, off, org.unit]
  let s := s.count (if write then F.GF_WFAIL_COUNT p else F.GF_RFAIL_COUNT p) 1
  let s := ((s.count (F.GF_PERR_COUNT p) 1).set (F.GF_PERR_LAST p) code).set (F.GF_PERR_LASTCHIP p) chip
  if write && org.agent == 0 then s.perrSignal p else s

/-- A write of a Lighter ends: the command learns how. -/
def State.fabDone (s : State) (org : Origin) (chip off code : Nat) (data : List Byte) : State :=
  if org.agent = 2 ∧ s.fe.cmds.any (fun c => c.id == org.cmd && c.job.isSome) then
    { s with fab := { s.fab with done := s.fab.done ++ [⟨org.cmd, chip, off, code, org.member, data⟩] } }
  else s

/-- A write ends in a final error. -/
def State.wrFail (s : State) (chip : Nat) (w : TxWr) (code : Nat) : State :=
  (s.fabErr w.org true code chip w.off).fabDone w.org chip w.off code []

/-! ### Sending writes, R432, R434, R443 -/

/-- A write is sent: it takes the next PSN, the first of a connection with OPEN and PSN 0. -/
def State.wrSend (s : State) (chip : Nat) (w : TxWr) : State :=
  match s.route chip w.off with
  | none => s.wrFail chip w 1
  | some j =>
    let c := s.conn chip
    let psn := if c.fresh then 0 else c.psn
    let w := { w with psn := psn, opn := c.fresh, port := j }
    let s := s.setConn { c with psn := (psn + 1) % 2 ^ 24, fresh := false, out := c.out ++ [w] }
    s.tx j (s.wrPkt chip w)

/-- The connection's window is full, or its path has changed. -/
def Conn.stops (c : Conn) : Bool := c.hold || decide (1024 ≤ c.out.length)

/-- Queued writes that may go now do; a hold ends with the last unacknowledged write. -/
def State.connGo (s : State) (chip : Nat) : State :=
  let c := s.conn chip
  let c := { c with hold := c.hold && c.out != [] }
  let s := s.setConn { c with queue := [] }
  c.queue.foldl (fun s w =>
    let c := s.conn chip
    if c.stops || c.queue != [] then s.setConn { c with queue := c.queue ++ [w] } else s.wrSend chip w) s

/-- A new write to a chip. -/
def State.wrNew (s : State) (chip : Nat) (w : TxWr) : State :=
  let c := s.conn chip
  if c.stops || c.queue != [] then s.setConn { c with queue := c.queue ++ [w] } else s.wrSend chip w

/-- The valid members of a group. -/
def State.groupMembers (s : State) (g : Nat) : List Nat := (List.range 64).filter fun m => s.on (F.GF_MCG_MEM_V g m)

/-- A remote write of a block at a fabric address: to the chip, or replicated to the members of a group. -/
def State.fabWrite (s : State) (org : Origin) (fa sz : Nat) (mask : Option Nat) (data : List Byte) (sig : Bool) : State :=
  let chip := bits fa 55 40
  let off := bits fa 39 0
  let w : TxWr := ⟨0, off, sz, mask, data, sig, false, org, 0⟩
  if chip = s.chip ∧ winTop ≤ off then
    let g := (off - winTop) / 2 ^ 30
    let l := s.groupMembers g
    if !s.on (F.GF_MCG_CTL_EN g) || s.get (F.GF_MCG_CTL_PART g) != org.part || l.length == 0 then s.wrFail chip w 9
    else s.each l fun s m =>
      s.wrNew (s.get (F.GF_MCG_MEM_CHIP g m))
        { w with off := s.get (F.GF_MCG_MEM_BASE g m) * 2 ^ 30 + off % 2 ^ 30, org := { org with member := some m } }
  else s.wrNew chip w

/-! ### Reads, R437, R440 -/

/-- A read ends at its requester: a core takes the block when it issues again, a Lighter's command collects it. -/
def State.rdDone (s : State) (r : RdOut) (code : Nat) (data : List Byte) : State :=
  let s := if code = 0 then s else s.fabErr r.org false code r.chip r.off
  if r.org.agent = 0 then
    let k := s.core r.org.unit
    let fa := 2 ^ 56 + r.chip * 2 ^ 40 + r.off
    if !(k.sent.any fun x => x.id == r.org.serial) then s
    else s.setCore r.org.unit { k with
      resps := k.resps ++ [⟨r.group, r.pc, k.sentBy r.org.serial, fa, if code = 0 then data else List.replicate (blockSize r.sz) 0, code != 0,
        if code = 0 then 0 else code + r.chip * 256⟩]
      sent := k.sent.filter fun x => x.id != r.org.serial }
  else s.fabDone r.org r.chip r.off code data

/-- A read's data comes, poisoned where `bad`: no fabric error, but 0x36 to a thread and 0x49 to a Lighter (R18). -/
def State.rdData (s : State) (r : RdOut) (code : Nat) (data : List Byte) (bad : Bool) : State :=
  if !bad then s.rdDone r code data
  else if r.org.agent = 0 then
    let k := s.core r.org.unit
    let fa := 2 ^ 56 + r.chip * 2 ^ 40 + r.off
    if !(k.sent.any fun x => x.id == r.org.serial) then s
    else s.setCore r.org.unit { k with
      resps := k.resps ++ [⟨r.group, r.pc, k.sentBy r.org.serial, fa, data, true, 0⟩]
      sent := k.sent.filter fun x => x.id != r.org.serial }
  else s.fabDone r.org r.chip r.off 5 data

/-- A tag that no outstanding or recently reissued read to the chip holds. -/
def State.freeTag (s : State) (chip : Nat) : Nat :=
  ((List.range 65536).find? fun t =>
    !(s.fab.reads.any fun r => r.chip == chip && r.tag == t) && !s.fab.burned.contains (chip * 65536 + t)).getD 0

/-- A remote read of a block. -/
def State.fabRead (s : State) (org : Origin) (group pc fa sz : Nat) : State :=
  let chip := bits fa 55 40
  let off := bits fa 39 0
  let r : RdOut := ⟨chip, s.freeTag chip, off, sz, org, group, pc, false⟩
  if chip = s.chip ∧ winTop ≤ off then s.rdDone r 10 []
  else
    match s.route chip off with
    | none => s.rdDone r 1 []
    | some j => ({ s with fab := { s.fab with reads := s.fab.reads ++ [r] } }).tx j (s.rdPkt r)

/-- A read leaves the list; a reissued one keeps its tag reserved. -/
def State.rdDrop (s : State) (r : RdOut) : State :=
  { s with fab := { s.fab with
      reads := dropFirst (fun x => x.chip == r.chip && x.tag == r.tag) s.fab.reads
      burned := if r.again then s.fab.burned ++ [r.chip * 65536 + r.tag] else s.fab.burned } }

/-! ### Instances, R438 -/

/-- A packet of a peer whose instance differs from the one held: every unacknowledged write is given up, the
connection starts afresh, and outstanding reads are reissued. Answers whether that happened. -/
def State.adopt (s : State) (chip sinst : Nat) : State × Bool :=
  let c := s.conn chip
  if c.inst = sinst then (s, false)
  else if c.inst = 0 then (s.setConn { c with inst := sinst }, false)
  else
    let s := (s.setConn { c with inst := sinst, psn := 0, fresh := true, out := [], hold := false }).txForget chip (c.out.map (·.psn))
    let s := s.each c.out fun s w => s.wrFail chip w 8
    let l := s.fab.reads.filter fun r => r.chip == chip
    let rs : List RdOut := s.fab.reads.map fun (r : RdOut) => if r.chip = chip then { r with again := true } else r
    let s := { s with fab := { s.fab with reads := rs } }
    let s := s.each l fun s r => (s.txTo (s.rdPkt r) r.off).count (F.GF_RETX_COUNT r.org.part) 1
    (s.connGo chip, true)

/-! ### Incoming packets -/

/-- The first packet of a type in a port's inbox leaves it. -/
def State.takePkt (s : State) (j ty : Nat) : Option (Packet × Bool × State) :=
  match (s.port j).inbox.find? fun e => e.1.ty == ty with
  | none => none
  | some e => some (e.1, e.2, s.setPort j { s.port j with inbox := dropFirst (fun x => x.1.ty == ty) (s.port j).inbox })

/-- A packet is malformed, R448. -/
def Packet.malformed (p : Packet) : Bool :=
  let g := [0, 1, 2, 2, 3, 0, 0].getD p.ty 9
  p.resv || p.gcls != g || p.off % (max 1 (blockSize p.sz)) != 0 || ((p.ty == 1 || p.ty == 4) && p.hasMask) ||
  (p.hasMask && (p.mask == 0 || decide (2 ^ blockSize p.sz ≤ p.mask))) || (p.ty == 3 && decide (1 < p.sz))

/-- The access check of an incoming request, R426, R428: 0, or the code. -/
def State.fabCheck (s : State) (p : Packet) (write : Bool) : Nat :=
  let c := p.off / 2 ^ 30
  if p.malformed then 6
  else if winTop ≤ p.off then 4
  else if !s.on (if write then F.GF_EXPORT_W c else F.GF_EXPORT_R c) || s.get (F.GF_EXPORT_DOMAIN c) != p.dom then 3
  else 0

/-- A read is answered. -/
def State.rdr (s : State) (p : Packet) (code : Nat) (data : List Byte) : State :=
  let q := { s.newPkt 4 3 p.src with
    sz := if p.sz ≤ 4 then p.sz else 0, cgen := p.cgen, off := p.off, tag := p.tag, dom := p.dom, spart := p.spart
    status := code, dinst := p.sinst
    data := if code = 0 then data else List.replicate (blockSize (if p.sz ≤ 4 then p.sz else 0)) 0 }
  s.txTo q p.off

/-- An incoming read, served at the line's home; the link names a wire of its answer's way to the I/O die, one of whose
codewords could not be corrected (R18). -/
def execRd (port : Nat) (link : Option Nat) (s : State) : Out :=
  .next <| match s.takePkt port 1 with
    | none => s
    | some (p, _, t) => s.unlessStalled <|
      let s := (t.adopt p.src p.sinst).1
      if p.dinst ≠ 0 ∧ p.dinst ≠ s.inst then s.rdr p 8 []
      else
        match s.fabCheck p false with
        | 0 =>
          let n := blockSize p.sz
          let r := s.readAs (portReader port) 7 false p.off n
          let m := r.1.linkMark link
          if r.2.2 || m.2 then m.1.rdr p 5 []
          else (r.1.count (F.GF_RXDATA_COUNT (s.chunkPart p.off)) n).rdr p 0 r.2.1
        | c => s.rdr p c []

/-- An acknowledgement up to W, and a refusal of one write. -/
def State.sendAck (s : State) (chip w : Nat) : State := s.txTo { s.newPkt 5 0 chip with psn := w } 0
def State.sendNak (s : State) (chip psn code : Nat) : State := s.txTo { s.newPkt 6 0 chip with psn := psn, status := code } 0

/-- The bytes an incoming write changes in its line. -/
def Packet.bytesIn (p : Packet) : Data :=
  let l := p.data.mapIdx fun i b => (p.off % 128 + i, b)
  if p.hasMask then l.filter fun e => bit p.mask (e.1 - p.off % 128) else l

/-- An incoming write performed at the line's home: counted, and done; a codeword of it that could not be corrected is counted
and poisons its sector. -/
def State.wrPerform (s : State) (p : Packet) (link : Option (Nat × Nat)) : State :=
  let line := lineOf p.off
  let s := (s.count (F.GF_RXDATA_COUNT (s.chunkPart p.off)) p.data.length).countWrite 5 line p.bytesIn
  match link.filter fun e => wireReal e.2 && lineOf e.1 == line && bit (touched p.bytesIn) (e.1 % 128 / 32) with
  | none => s.homeWrite line p.bytesIn
  | some (a, w) => (s.badCodeword w).homeWriteBad line p.bytesIn (2 ^ (a % 128 / 32))

/-- The line of a write is open and has a way. -/
def State.lineFree (s : State) (line : Nat) : Bool := s.lineOpen line && (s.cisAlloc line).isSome

/-- An incoming write can be performed now: its line is free, and the sectors that it covers in part can be read. -/
def State.wrReady (s : State) (p : Packet) : Bool :=
  let line := lineOf p.off
  s.lineFree line && !s.chanWaits line (s.onlyMem line (touched p.bytesIn &&& (15 ^^^ covered p.bytesIn)))

/-- W has moved on from what was last acknowledged: the source is told. -/
def State.rconnAck (s : State) (chip old : Nat) : State :=
  match s.rconn chip with
  | some c => if c.w = old then s else s.sendAck chip c.w
  | none => s

/-- W moves over the PSNs received without a gap and is acknowledged where it moves on from `old`; a write that waits is
performed when its turn has come, if its line is free, and a signal is acknowledged at once. DESIGN CHOICE: a write waits for
every earlier one of its connection, since any of them may be to its line (R442). -/
def State.rconnGo (s : State) (chip old : Nat) : Nat → State
  | 0 => s.rconnAck chip old
  | n + 1 =>
    match s.rconn chip with
    | none => s
    | some c =>
      let nx := (c.w + 1) % 2 ^ 24
      match c.sigs.find? fun e => e.1.psn == nx with
      | some (p, _, link) =>
        if s.wrReady p then
          let s := (s.wrPerform p link).setRconn { c with w := nx, got := c.got.filter (· ≠ nx), sigs := dropFirst (fun e => e.1.psn == nx) c.sigs }
          if p.ty = 3 then (s.sendAck chip nx).rconnGo chip nx n else s.rconnGo chip old n
        else s.rconnAck chip old
      | none =>
        if c.got.contains nx then (s.setRconn { c with w := nx, got := c.got.filter (· ≠ nx) }).rconnGo chip old n
        else s.rconnAck chip old

/-- The connection of a source moves on as far as it can. -/
def State.rconnRun (s : State) (chip : Nat) : State :=
  match s.rconn chip with
  | some c => s.rconnGo chip c.w 1100
  | none => s

/-- A PSN has been received: it counts towards W. -/
def State.received (s : State) (chip psn : Nat) : State :=
  match s.rconn chip with
  | none => s
  | some c => (s.setRconn { c with got := setIns c.got psn }).rconnRun chip

/-- Every connection moves on as far as it can. -/
def State.rconnsRun (s : State) : State := s.each s.fab.rconns fun s c => s.rconnRun c.chip

/-- An incoming write or signal is sequenced, checked, and performed in its turn or refused (R435, R438). -/
def State.wrIn (t : State) (port : Nat) (p : Packet) (full : Bool) (link : Option (Nat × Nat)) : State :=
  let t := (t.adopt p.src p.sinst).1
  if (p.dinst ≠ 0 ∧ p.dinst ≠ t.inst) ∨
      (p.opn = false ∧ (t.rconn p.src).map (·.inst) ≠ some p.sinst) then t.sendNak p.src p.psn 8
  else
    let t := if p.opn then t.setRconn ⟨p.src, (p.psn + 2 ^ 24 - 1) % 2 ^ 24, [], p.sinst, []⟩ else t
    match t.rconn p.src with
    | none => t
    | some c =>
      let d := (p.psn + 2 ^ 24 - c.w) % 2 ^ 24
      if d = 0 ∨ 2 ^ 23 ≤ d ∨ c.got.contains p.psn ∨ c.sigs.any (fun e => e.1.psn == p.psn) then t.sendAck p.src c.w
      else if 1024 < d then t.count F.GF_RXDROP_COUNT 1
      else if full then t.sendNak p.src p.psn 7
      else
        match t.fabCheck p true with
        | 0 => (t.setRconn { c with sigs := c.sigs ++ [(p, port, link)] }).rconnRun p.src
        | code => (t.sendNak p.src p.psn code).received p.src p.psn

/-- Without a write in the inbox, those that wait for a free line are tried again. -/
def execWr (port : Nat) (link : Option (Nat × Nat)) (s : State) : Out :=
  .next <| match s.takePkt port 2 with
    | none => s.rconnsRun
    | some (p, full, t) => t.wrIn port p full link

/-- Without a signal in the inbox, those that wait for a free line are tried again. -/
def execSig (port : Nat) (link : Option (Nat × Nat)) (s : State) : Out :=
  .next <| match s.takePkt port 3 with
    | none => s.rconnsRun
    | some (p, full, t) => t.wrIn port p full link

/-- CGEN of a requester now. -/
def State.cgenOf (s : State) (ctx : Nat) : Nat := s.get (F.PT_CTX_STAT_CGEN ctx)

/-- A read response completes its read, or is stale; the link names a wire of its way from the I/O die, one of whose codewords
could not be corrected (R18). -/
def execRdr (port : Nat) (link : Option Nat) (s : State) : Out :=
  .next <| match s.takePkt port 4 with
    | none => s
    | some (p, _, s) =>
      if p.malformed then s.count F.GF_RXDROP_COUNT 1
      else
        let (s, reset) := s.adopt p.src p.sinst
        match s.fab.reads.find? fun r => r.chip == p.src && r.tag == p.tag with
        | none => s.count (F.GF_STALE_COUNT p.spart) 1
        | some r =>
          if r.org.cgen ≠ p.cgen ∨ s.cgenOf r.org.ctx ≠ p.cgen then s.count (F.GF_STALE_COUNT p.spart) 1
          else if reset && p.status == 8 then s
          else
            let m := s.linkMark (if p.status = 0 then link else none)
            (m.1.rdDrop r).rdData r p.status p.data m.2

/-- Writes retired by an acknowledgement end well. -/
def execAck (port : Nat) (s : State) : Out :=
  .next <| match s.takePkt port 5 with
    | none => s
    | some (p, _, s) =>
      if p.malformed then s.count F.GF_RXDROP_COUNT 1
      else
        let (s, reset) := s.adopt p.src p.sinst
        if reset then s
        else
          let c := s.conn p.src
          let dead := fun (w : TxWr) => decide ((p.psn + 2 ^ 24 - w.psn) % 2 ^ 24 < 2 ^ 23)
          let s := s.setConn { c with out := c.out.filter fun w => !dead w }
          (s.each (c.out.filter dead) fun s w => (s.fabDone w.org p.src w.off 0 []).sampleTime 5 w.port).connGo p.src

/-- A refusal ends the write, unless the incoming buffer was full: the write then waits for its retransmission. -/
def execNak (port : Nat) (s : State) : Out :=
  .next <| match s.takePkt port 6 with
    | none => s
    | some (p, _, s) =>
      if p.malformed then s.count F.GF_RXDROP_COUNT 1
      else
        let (s, reset) := s.adopt p.src p.sinst
        let c := s.conn p.src
        match c.out.find? fun w => w.psn == p.psn with
        | none => s
        | some w =>
          if reset || p.status == 7 then s
          else
            let s := s.setConn { c with out := dropFirst (fun x => x.psn == p.psn) c.out }
            (s.wrFail p.src w p.status).connGo p.src

/-- A write (PSN n) or a read (tag n) is sent again. -/
def execRetransmitTimeout (write : Bool) (chip n : Nat) (s : State) : Out :=
  .next <| if write then
      match (s.conn chip).out.find? fun w => w.psn == n with
      | none => s
      | some w => (s.txTo (s.wrPkt chip w) w.off).count (F.GF_RETX_COUNT w.org.part) 1
    else
      match s.fab.reads.find? fun r => r.chip == chip && r.tag == n with
      | none => s
      | some r =>
        let s := { s with fab := { s.fab with reads := updFirst (fun x => x.chip == chip && x.tag == n) (fun x => { x with again := true }) s.fab.reads } }
        (s.txTo (s.rdPkt r) r.off).count (F.GF_RETX_COUNT r.org.part) 1

/-- A write or a read reaches LIMIT and is given up; for a tag no read holds, its reservation ends. -/
def execFabricGiveUp (write : Bool) (chip n : Nat) (s : State) : Out :=
  .next <| if write then
      let c := s.conn chip
      match c.out.find? fun w => w.psn == n with
      | none => s
      | some w =>
        let s := (s.setConn { c with out := dropFirst (fun x => x.psn == n) c.out }).txForget chip [n]
        (s.wrFail chip w 2).connGo chip
    else
      match s.fab.reads.find? fun r => r.chip == chip && r.tag == n with
      | none => { s with fab := { s.fab with burned := dropFirst (· == chip * 65536 + n) s.fab.burned } }
      | some r => (s.rdDrop r).rdDone r 2 []

/-- The smallest distance above W of a PSN received or of a waiting signal. -/
def RConn.nextGap (c : RConn) : Option Nat :=
  ((c.got ++ c.sigs.map (·.1.psn)).map fun n => (n + 2 ^ 24 - c.w) % 2 ^ 24).foldl
    (fun (a : Option Nat) d => match a with | none => some d | some x => some (min x d)) none

/-- A gap below a received PSN closes: W moves past the missing PSNs, and the signals that waited on it are
discarded. -/
def execGapCloseTimeout (chip : Nat) (s : State) : Out :=
  .next <| match s.rconn chip with
    | none => s
    | some c =>
      match c.nextGap with
      | none => s
      | some d =>
        if d ≤ 1 then s
        else
          let gone := c.sigs.filter fun e => e.1.ty == 3
          let lost := gone.map (·.1.psn)
          let s := s.each gone fun s e => s.count (F.GF_SIGDROP_COUNT (s.chunkPart e.1.off)) 1
          let s := s.setRconn { c with w := (c.w + d - 1) % 2 ^ 24, got := lost.foldl setIns c.got, sigs := c.sigs.filter fun e => e.1.ty != 3 }
          s.rconnGo chip c.w 1100

/-! ### Fabric registers, R451 -/

/-- GF_CHIPID and GF_CONNBASE change only while every port is DOWN. -/
def State.fabIdWrite (s : State) (off v : Nat) : State × Bool :=
  if (List.range 36).any fun j => s.portState j != 0 then (s.set F.GF_ERR_BUSY 1, false)
  else if off = A.GF_CHIPID then ((s.set F.GF_CHIPID_CHIP (bits v 15 0)).set F.GF_CHIPID_INST (bits v 31 16), true)
  else (s.set F.GF_CONNBASE_BASE (bits v 56 25), true)

def execFabricIdWrite (conn : Bool) (v : BitVec 64) (s : State) : Out :=
  .next <| if s.barOk then (s.fabIdWrite (if conn then A.GF_CONNBASE else A.GF_CHIPID) v.toNat).1 else s

/-- GF_REG: ignored where GUAR lies above 60 or the sum would. -/
def State.fabRegWrite (s : State) (p v : Nat) : State × Bool :=
  let g := bits v 6 0
  let sum := ((List.range 16).filter (· ≠ p)).foldl (fun n q => n + s.get (F.GF_REG_GUAR q)) g
  if 60 < g then (s.set F.GF_ERR_RANGE 1, false)
  else if 60 < sum then (s.set F.GF_ERR_SUM 1, false)
  else ((s.set (F.GF_REG_GUAR p) g).set (F.GF_REG_CAP p) (bits v 14 8), true)

def execFabricRegWrite (p : Nat) (v : BitVec 64) (s : State) : Out :=
  .next <| if s.barOk && decide (p < 16) then (s.fabRegWrite p v.toNat).1 else s

/-- The remote writes of a core that are not yet acknowledged, refused or given up, with an older serial. -/
def State.fabPending (s : State) (core serial : Nat) : Bool :=
  s.fab.conns.any fun c => (c.out ++ c.queue).any fun w => w.org.agent == 0 && w.org.unit == core && decide (w.org.serial < serial)

end Sys2Proof.Machine
end

