-- ==== Sys2Proof/Machine/Bar0Read.lean ====
section
/-! DEFINITION. Reads of BAR0: registers, the capability list, the MSI-X structures, the matrix format table, the view
of a VF, and the debug access window (R36, R37, R40, R43 to R47, R98, R545). -/

namespace Sys2Proof.Machine

/-! ### Debug access, R541, R545 -/

/-- The debug level in force; BT_POLICY.DBG 3 acts as 0 (R507). -/
def State.dbgLevel (s : State) : Nat :=
  if !s.boot.cfgDone then 0 else if s.on F.BT_STAT_LOCK then s.get F.BT_POLICY_DBG % 3 else 2

/-- The access that TD_ACC_SEL selects: thread, space, index. -/
def State.accSel (s : State) : Nat × Nat × Nat :=
  let sp := s.get F.TD_ACC_SEL_SPACE
  (s.get F.TD_ACC_SEL_THREAD, if sp ≥ 6 then 0 else sp, s.get F.TD_ACC_SEL_INDEX)

/-- The core selected, when the target is halted and runs on it. -/
def State.accCore (s : State) : Option Core :=
  let k := s.core (s.get F.TD_ACC_SEL_CORE)
  if s.on F.TD_DBG_STAT_HALTED ∧ s.dbg.target.isSome ∧ k.blk.map (·.ctx) = s.dbg.target then some k else none

/-- The state selected, as read. -/
def Core.accGet (k : Core) (t space i : Nat) : Nat :=
  match space with
  | 0 => if i < 256 then (k.reg t i).toNat else 0
  | 1 => (List.range 8).foldl (fun n j => n + b2n (k.pred t j) * 2 ^ j) 0
  | 2 => if i < 64 then (k.ureg (t / 32) i).toNat else 0
  | 3 => k.thPc t
  | 4 => k.flags (t / 32)
  | _ => if i < k.P / 8 then ofBytes ((List.range 8).map fun j => tabGet 0 k.well (8 * i + j)) else 0

/-- Bytes stored in the scratchpad. -/
def Core.wellPut (k : Core) (a : Nat) (l : List Byte) : Core :=
  { k with well := (l.mapIdx fun i b => (a + i, b)).foldl (fun t e => tabSet 0 t e.1 e.2) k.well }

/-- The state selected, changed. DESIGN CHOICE: bits 3:0 of a program counter are written as 0, since it always holds a multiple
of 16 (R181). -/
def Core.accPut (k : Core) (t space i v : Nat) : Core :=
  match space with
  | 0 => if i < 256 then k.setReg t i (BitVec.ofNat 32 v) else k
  | 1 => (List.range 8).foldl (fun k j => k.setPred t j (bit v j)) k
  | 2 => if i < 64 then k.setUreg (t / 32) i v else k
  | 3 => k.setPc t (v / 16 * 16)
  | 4 => { k with fstat := tabSet 0 k.fstat (t / 32) (v % 128) }
  | _ => if i < k.P / 8 then k.wellPut (8 * i) (toBytes 8 v) else k

/-- A read of TD_ACC_DATA. -/
def State.accRead (s : State) : State × Nat :=
  let (t, space, i) := s.accSel
  if s.dbgLevel = 0 then (s.event 7 17 0x01, 0)
  else match s.accCore with
    | some k => (s, k.accGet t space i)
    | none => (s.set F.TD_DBG_STAT_ACCERR 1, 0)

/-- A write of TD_ACC_DATA: at level 2 alone. -/
def State.accWrite (s : State) (v : Nat) : State :=
  let (t, space, i) := s.accSel
  if s.dbgLevel < 2 then s.event 7 17 0x01
  else match s.accCore with
    | some k => s.setCore (s.get F.TD_ACC_SEL_CORE) (k.accPut t space i v)
    | none => s.set F.TD_DBG_STAT_ACCERR 1

/-! ### The capability list, R43 to R46 -/

/-- A count word. -/
def countWord (now phys : Nat) : Nat := now % 2 ^ 32 + phys * 2 ^ 32

def count' (n : Nat) (f : Nat → Bool) : Nat := ((List.range n).filter f).length

/-- A VF's partition, while it is bound. -/
def State.fnPart (s : State) (v : Nat) : Nat := s.get (F.PT_FN_PART v)

/-- A VF is enabled and bound. -/
def State.vfBound (s : State) (v : Nat) : Bool := s.host.vfEn && s.on (F.PT_FN_BOUND v)

/-- A function that its list shows counts to: PF0, or a bound VF (R408). -/
def State.counted (s : State) (v : Nat) : Bool := v == 0 || s.vfBound v

/-- Units of a partition's Pump and Lighter masks that are in service. -/
def State.pumpIn (s : State) (p u : Nat) : Bool := bit (s.get (F.PT_PART_PU_PUMPS p (u / 64))) (u % 64) && !s.isRetired 10 u
def State.lighterIn (s : State) (p u : Nat) : Bool := bit (s.get (F.PT_PART_LT_LIGHTERS p)) u && !s.isRetired 11 u
def State.clusterIn (s : State) (p l : Nat) : Bool := bit (s.get (F.PT_PART_CL_CLUSTERS p (l / 64))) (l % 64) && s.clThere l

/-- The lanes that carry a port which is UP (R453): four, or two while it runs at half width (R419). -/
def State.lanesUp (s : State) : Nat :=
  ((List.range 36).map fun j => if s.portState j = 2 then (if s.get (F.GF_PORT_STAT_LANES j) = 3 then 4 else 2) else 0).foldl (· + ·) 0

/-- The entry bodies, R99, R100, R228, R297, R323, R352, R387, R414, R415, R453, R478, R508, R512, R526, R537, R547.
A VF that is not bound sees counts of 0, and no partition (R408). `v` is the function whose list is read. -/
def State.capBody (s : State) (v id : Nat) : List Nat :=
  let p := s.fnPart v
  match id with
  | 1 => [if !s.counted v then 0 else countWord (if v = 0 then 4096 else count' 4096 fun q => s.get (F.FE_Q_OWN_PART q) == p) 4096,
      16 + 6 * 2 ^ 5 + 64 * 2 ^ 10 + 32768 * 2 ^ 17 + 4 * 2 ^ 33 + 8 * 2 ^ 36 + 4 * 2 ^ 40 + 4095 * 2 ^ 43 + 128 * 2 ^ 55]
  | 2 => [if !s.counted v then 0 else countWord (count' 16 fun q => s.on (F.PT_PART_CTL_EN q)) 16,
      1024 + 63 * 2 ^ 16 + 24 * 2 ^ 24 + 400 * 2 ^ 32 + 64 * 2 ^ 48,
      if v = 0 ∨ s.vfBound v = false then 0 else p + count' 128 (s.clusterIn p) * 2 ^ 4 + count' 192 (s.pumpIn p) * 2 ^ 12 + count' 32 (s.lighterIn p) * 2 ^ 20]
  | 3 => [countWord (count' 256 s.slThere) 272,
      24 + 21 * 2 ^ 8 + 1024 * 2 ^ 16 + 128 * 2 ^ 32 + 32 * 2 ^ 40 + 64 * 2 ^ 48 + 32 * 2 ^ 56]
  | 4 => [countWord (count' 1536 fun c => s.chThere c && s.get (F.MC_CH_STAT_STATE c) != 2) 1584,
      12 + 128 * 2 ^ 8 + 4 * 2 ^ 16 + 32 * 2 ^ 24 + 64 * 2 ^ 32 + 208 * 2 ^ 40 + 1024 * 2 ^ 48]
  | 5 => [countWord (count' 192 fun u => !s.isRetired 10 u) 192, countWord (count' 32 fun u => !s.isRetired 11 u) 32,
      200 + 256 * 2 ^ 16 + 64 * 2 ^ 32 + 4096 * 2 ^ 40]
  | 6 => [4 + 4 * 2 ^ 8 + 2048 * 2 ^ 16 + 4096 * 2 ^ 32 + 32 * 2 ^ 48 + 64 * 2 ^ 56,
      4 + 10 * 2 ^ 8 + 18 * 2 ^ 16 + 44 * 2 ^ 24 + 60 * 2 ^ 32]
  | 7 => [countWord s.lanesUp 148, countWord (count' 36 fun j => s.portState j == 2) 36,
      4 + 2 * 2 ^ 8 + 256 * 2 ^ 16 + 64 * 2 ^ 32 + 128 * 2 ^ 40 + 1024 * 2 ^ 48]
  | 8 => [416 + 15 * 2 ^ 16 + 4 * 2 ^ 24 + 64 * 2 ^ 32 + 105 * 2 ^ 40 + 110 * 2 ^ 48]
  | 9 => [s.get F.BT_FW_VERSION + s.get F.BT_FW_SVN * 2 ^ 32 + (b2n s.boot.dev0 + b2n s.boot.dev1) * 2 ^ 48,
      s.get F.BT_CFG_VERSION + s.get F.BT_STAT_CFGSRC * 2 ^ 32 + s.get F.BT_STAT_CFGFALL * 2 ^ 34 +
        s.get F.BT_STAT_LOCK * 2 ^ 35 + s.get F.BT_STAT_OWNED * 2 ^ 36 + s.get F.BT_STAT_LEAD * 2 ^ 37]
  | 10 => [0x1EDC6F41 + 4 * 2 ^ 32 + 2 ^ 36]
  | 11 =>
    let cl := count' 128 s.clThere
    [countWord cl 144, countWord (8 * cl) 1152, countWord (count' 16 fun h => !s.isRetired 12 h) 16,
     countWord (count' 4 fun b => !s.isRetired 6 b) 4, countWord s.modules 8, (s.raw A.SP_REC_STAT).toNat % 2 ^ 50]
  | 12 => [128 + 17 * 2 ^ 8 + 20 * 2 ^ 16 + 6 * 2 ^ 24 + 16 * 2 ^ 32 + 16 * 2 ^ 40 + 16 * 2 ^ 48,
      s.get F.EV_SNAP_NUM + s.evr.seq * 2 ^ 32]
  | 13 => [0x1FFC + 0x67FF * 2 ^ 32, 64 + 32 * 2 ^ 8 + 16 * 2 ^ 16]
  | 14 => [192 + 40 * 2 ^ 8 + (2 ^ 16 - 512) * 2 ^ 16 + 511 * 2 ^ 32 + 32 * 2 ^ 48]
  | 15 => [1 + 64 * 2 ^ 16 + 2 * 2 ^ 24 + 4 * 2 ^ 32]
  | 16 => [8 + 24 * 2 ^ 8 + 4 * 2 ^ 16 + s.dbgLevel * 2 ^ 24]
  | _ => []

/-- The entries that a function sees. -/
def capIds (v : Nat) : List Nat := if v = 0 then (List.range 16).map (· + 1) else [1, 2, 12, 13, 14]

/-- The words of the list from an offset on: each header names the next entry. -/
def State.capFrom (s : State) (v off : Nat) : List Nat → List Nat
  | [] => []
  | id :: r =>
    let b := s.capBody v id
    let len := b.length + 1
    let next := if r = [] then 0 else off + 8 * len
    (id + 2 ^ 16 + len * 2 ^ 24 + next * 2 ^ 32) :: b ++ s.capFrom v (off + 8 * len) r

/-- The 64-bit word at an offset of a function's capability list. -/
def State.capWord (s : State) (v off : Nat) : Nat := (s.capFrom v 0 (capIds v)).getD (off / 8) 0

/-! ### MSI-X structures, R40 -/

def State.msixWord (s : State) (v i : Nat) : Nat :=
  let e := (s.msixEntry v (i / 2)).toNat
  if i % 2 = 0 then bits e 63 0 else bits e 127 64

/-- The pending bits of vectors 64 i to 64 i + 63. -/
def State.pbaWord (s : State) (v i : Nat) : Nat :=
  (List.range 64).foldl (fun n j => n + b2n (s.host.pba.contains (v * 2048 + 64 * i + j)) * 2 ^ j) 0

/-! ### Registers, R7 -/

/-- The bits of a register that a read returns: every field but the write-only ones. -/
def readMask (off : Nat) : Nat :=
  match regDesc? off with
  | none => 0
  | some d => d.fields.foldl (fun m f => if f.acc = .wo then m else m ||| ((2 ^ (f.hi + 1 - f.lo) - 1) * 2 ^ f.lo)) 0

/-- The switch bound of R399 holds: GUAR is at least ceil(C / 92), C the cores of the partition. -/
def State.switchBound (s : State) (p : Nat) : Bool :=
  s.on (F.PT_PART_CTL_EN p) && decide (8 * count' 128 (s.clusterIn p) ≤ 92 * s.get (F.MC_REG_GUAR p))

/-- A register's value without the bits of absent units (R268, R389), and the new value of a register whose rehome is in
progress (R7, R271). -/
def State.shownReg (s : State) (off v : Nat) : Nat :=
  let v := match s.coh.rehome with | some (o, w) => if o = off then w.toNat else v | none => v
  if A.CS_PSLICE 0 0 ≤ off ∧ off < A.CS_PSLICE 16 0 ∧ off % 0x40 < 0x20 then s.presentSlices (off % 0x40 / 8) v
  else if A.PT_PART_CTL 0 ≤ off ∧ off < A.PT_PART_CTL 16 then
    let r := off % 0x100
    if r = 0x08 ∨ r = 0x10 then v &&& unitMask s.clThere ((r - 0x08) / 8) 64
    else if 0x18 ≤ r ∧ r < 0x30 then v &&& unitMask (fun u => !s.isRetired 10 u) ((r - 0x18) / 8) 64
    else if r = 0x30 then v &&& unitMask (fun u => !s.isRetired 11 u) 0 32
    else v
  else v

/-- A register whose value follows the machine when it is read; markers are never in flight (R364). -/
def State.liveReg (s : State) (off : Nat) : Nat :=
  let v := s.shownReg off (s.raw off).toNat
  if off = A.FE_INFLIGHT then (s.fe.cmds.filter fun c => !([0x0D, 0x0E, 0x10].contains (bytesAt c.entry 0 1))).length
  else if off = A.PT_FN 0 then setBits v 4 4 1
  else if off = A.MC_EVAC then setBits v 17 17 (s.get (F.MC_STACK_EVAC (s.get F.MC_EVAC_CH / 128)))
  else if A.PT_PART_STAT 0 ≤ off ∧ off < A.PT_PART_STAT 16 ∧ off % 0x100 = 0x38 then
    let p := (off - A.PT_PART_STAT 0) / 0x100
    setBits (setBits v 10 0 (count' 1024 fun c => s.on (F.PT_CTX_CTL_LIVE c) && s.get (F.PT_CTX_CTL_PART c) == p))
      23 16 (count' 128 (s.clusterIn p)) + b2n (s.switchBound p) * 2 ^ 32
  else v

/-- A 64-bit word of PF0's BAR0. -/
def State.bar0Word (s : State) (off : Nat) : State × Nat :=
  if off < 0x10000 then (s, s.capWord 0 off)
  else if off < 0x18000 then (s, s.msixWord 0 ((off - 0x10000) / 8))
  else if off < 0x18100 then (s, s.pbaWord 0 ((off - 0x18000) / 8))
  else if 0xE00000 ≤ off ∧ off < 0xE00100 then (s, formatEntry ((off - 0xE00000) / 8))
  else if off = A.TD_ACC_DATA then s.accRead
  else (s, s.liveReg off &&& readMask off)

/-- 4 or 8 bytes of a word read whole. -/
def partOf (off k v : Nat) : Nat := if k = 4 then (if off % 8 = 4 then v / 2 ^ 32 else v % 2 ^ 32) else v

/-! ### The view of a VF, R47 -/

/-- The queues of a VF, ascending. -/
def State.vfQueues (s : State) (v : Nat) : List Nat :=
  (if v = 0 then List.range 4096 else s.regsAt (A.FE_Q_OWN 0) 0x80 4096).filter fun q => s.get (F.FE_Q_OWN_FUNC q) == v

/-- A context that the VF may see: one whose FUNC names it (R392). -/
def State.vfCtx (s : State) (v c : Nat) : Bool := s.get (F.PT_CTX_CTL_FUNC c) == v

/-- The PF0 offset of a register in a bound VF's view. -/
def State.vfMap (s : State) (v off : Nat) : Option Nat :=
  let p := s.fnPart v
  let o := off
  if 0x20000 ≤ o ∧ o < 0x22000 then
    match (s.vfQueues v)[(o - 0x20000) / 0x80]? with
    | some q => if o % 0x80 / 8 * 8 = 0x28 then none else some (A.FE_Q_RING q + o % 0x80)
    | none => none
  else if 0x24000 ≤ o ∧ o < 0x26000 then some (A.FE_GRAPH p 0 + (o - 0x24000))
  else if 0x28000 ≤ o ∧ o < 0x28008 then some (A.PT_PART_STAT p + (o - 0x28000))
  else if 0x28008 ≤ o ∧ o < 0x28010 then some (A.PT_FN v + (o - 0x28008))
  else if 0x28100 ≤ o ∧ o < 0x28118 then some (A.PT_XLAT_INV v + (o - 0x28100))
  else if 0x28400 ≤ o ∧ o < 0x28800 then some (A.PT_FLOG p 0 + (o - 0x28400))
  else if 0x28800 ≤ o ∧ o < 0x28840 then some (A.CS_PIN_BASE p + (o - 0x28800))
  else if 0x29000 ≤ o ∧ o < 0x29100 then some (A.CS_HIT p 0 + (o - 0x29000))
  else if 0x29100 ≤ o ∧ o < 0x29140 then some (A.MC_RDLINE p + (o - 0x29100))
  else if 0x29140 ≤ o ∧ o < 0x29180 then some (A.PU_SRCBYTES p + (o - 0x29140))
  else if 0x29180 ≤ o ∧ o < 0x291C0 then some (A.GF_TXDATA p + (o - 0x29180))
  else if 0x291C0 ≤ o ∧ o < 0x291C8 then some (A.GF_PERR p + (o - 0x291C0))
  else if 0x29200 ≤ o ∧ o < 0x29240 then some (A.EV_LOG_BASE p + (o - 0x29200))
  else if 0x2A000 ≤ o ∧ o < 0x2A100 then some (A.SH_CS_HIT p 0 + (o - 0x2A000))
  else if 0x2A100 ≤ o ∧ o < 0x2A140 then some (A.SH_MC_RDLINE p + (o - 0x2A100))
  else if 0x2A140 ≤ o ∧ o < 0x2A180 then some (A.SH_PU_SRCBYTES p + (o - 0x2A140))
  else if 0x2A180 ≤ o ∧ o < 0x2A1C0 then some (A.SH_GF_TXDATA p + (o - 0x2A180))
  else if 0x2A200 ≤ o ∧ o < 0x2A228 then
    some ([A.CS_SNAPNUM, A.MC_SNAPNUM, A.PU_SNAPNUM, A.GF_SNAPNUM, A.PT_SNAPNUM].getD ((o - 0x2A200) / 8) 0 + o % 8)
  else if 0x2B000 ≤ o ∧ o < 0x2B100 then some (0xE00000 + (o - 0x2B000))
  else if 0x30000 ≤ o ∧ o < 0x40000 then
    if s.vfCtx v ((o - 0x30000) / 0x40) then some (A.PT_CTX_ROOT 0 + (o - 0x30000)) else none
  else if 0x40000 ≤ o ∧ o < 0x50000 then
    if s.vfCtx v ((o - 0x40000) / 0x40) then some (A.PT_CHG_CORE 0 + (o - 0x40000)) else none
  else if 0x50000 ≤ o ∧ o < 0x60000 then
    if s.vfCtx v ((o - 0x50000) / 0x40) then some (A.SH_PT_CHG_CORE 0 + (o - 0x50000)) else none
  else none

/-- A 64-bit word of a function's BAR0. -/
def State.bar0WordOf (s : State) (func off : Nat) : State × Nat :=
  if func = 0 then s.bar0Word off
  else if off < 0x10000 then (s, s.capWord func off)
  else if off < 0x10400 then (s, s.msixWord func ((off - 0x10000) / 8))
  else if 0x18000 ≤ off ∧ off < 0x18008 then (s, s.pbaWord func 0)
  else if s.vfBound func then
    match s.vfMap func off with
    | some o => s.bar0Word o
    | none => (s, 0)
  else (s, 0)

/-- A naturally aligned read of 4 or 8 bytes. -/
def State.bar0Read (s : State) (func off k : Nat) : State × Nat :=
  let (s, v) := s.bar0WordOf func (off / 8 * 8)
  (s, partOf off k v)

end Sys2Proof.Machine
end

