-- ==== Sys2Proof/Machine/CoreMem.lean ====
section
/-! DEFINITION. Loads and stores of threads, the store buffer, the remote-write queue, and releases (R164, R177, R194 to
R197, R240 to R251, R439, R440). -/

namespace Sys2Proof.Machine

/-! ### Addresses of a lane, R195 -/

/-- The device virtual address of a thread's access. -/
def laneVa (o : Op) (k : Core) (t : Nat) : Nat :=
  let b := if wAK o.w = 0 then k.regs t (wA o.w) 2 else (k.ureg o.group (wA o.w)).toNat
  wrap 64 ((b : Int) + wDisp o.w)

/-- The scratchpad offset of a thread's access, signed. -/
def laneOff (o : Op) (k : Core) (t : Nat) : Int :=
  let b := if wAK o.w = 0 then k.regs t (wA o.w) 1 else (k.ureg o.group (wA o.w)).toNat % 2 ^ 32
  (b : Int) + wDisp o.w

/-- The check of a scratchpad access of n bytes: 0, or the lowest code (R164, R195). -/
def spCheck (k : Core) (off : Int) (n : Nat) : Nat :=
  if off % n ≠ 0 then 0x31 else if off < 0 ∨ (k.P : Int) < off + n then 0x32 else 0

/-- An access that can go on, a missing translation, or an exception. -/
inductive LaneRes where
  | miss (va : Nat)
  | fault (code va pa level : Nat)
  | ok (va pa : Nat) (p : Page)
  deriving DecidableEq, Repr

/-- What the region of an address adds: host-window checks, the widths of setup space, the space of atomics. -/
def State.regionCheck (s : State) (part : Nat) (write atomic : Bool) (pa n : Nat) : Nat :=
  match region pa with
  | .hostWin => if atomic then 0x33 else s.hwinCheck part write pa
  | .setup0 => if atomic then 0x33 else if n = 4 ∨ n = 8 then 0 else 0x3F
  | .setup2 => if atomic then 0x33 else if n = 4 ∨ n = 8 then 0 else 0x3F
  | .fabric => if atomic then 0x33 else 0
  | _ => 0

/-- One lane's access: translation, alignment and region, the lowest code first. -/
def State.laneCheck (s : State) (o : Op) (write atomic : Bool) (va n : Nat) : LaneRes :=
  match s.xlate o.core o.blk.ctx va (if write then .write else .read) with
  | .miss => .miss va
  | .fault c l pa => .fault c va pa l
  | .ok p pa =>
    let r := s.regionCheck o.blk.part write atomic pa n
    if r ≠ 0 ∧ r < 0x31 then .fault r va pa 7
    else if va % n ≠ 0 then .fault 0x31 va 0 7
    else if r ≠ 0 then .fault r va pa 7
    else .ok va pa p

/-- The lanes' accesses in ascending order: all go on, or the first that does not. -/
def State.lanesCheck (s : State) (o : Op) (write atomic : Bool) (n : Nat) :
    List Nat → List (Nat × Nat × Nat × Page) × Option LaneRes
  | [] => ([], none)
  | t :: r =>
    match s.laneCheck o write atomic (laneVa o (s.core o.core) t) n with
    | .ok va pa p =>
      let z := s.lanesCheck o write atomic n r
      ((t, va, pa, p) :: z.1, z.2)
    | x => ([], some x)

/-- A missing translation starts a walk and the instruction issues again later; a fault is raised. -/
def State.laneStop (s : State) (o : Op) (write : Bool) : LaneRes → State
  | .miss va => s.walkStart o.core o.group o.pc o.all o.w o.blk.ctx o.blk.part va (if write then .write else .read)
  | .fault c va pa l => s.raiseOp o c { va := va, pa := pa, level := l, write := write }
  | .ok _ _ _ => s

/-! ### The scratchpad -/

/-- The bytes of the Well array. -/
def Core.wellGet (k : Core) (a n : Nat) : List Byte := (List.range n).map fun i => tabGet 0 k.well (a + i)

/-- The lowest lane whose scratchpad access faults. -/
def spFault (o : Op) (k : Core) (n : Nat) : Option (Nat × Int) :=
  (o.ex.map fun t => (spCheck k (laneOff o k t) n, laneOff o k t)).find? fun e => e.1 ≠ 0

/-! ### Releases, R245, R247, R439 -/

/-- Closed entries stand before open ones, in closing order. -/
def Core.closeSb (k : Core) (f : SbEnt → Bool) : Core :=
  let c := k.sb.filter (·.closed)
  let n := (k.sb.filter fun e => !e.closed && f e).map fun e => { e with closed := true }
  { k with sb := c ++ n ++ k.sb.filter fun e => !e.closed && !f e }

/-- The smallest naturally aligned block of 8 to 128 bytes of a line that holds two offsets: its size code. -/
def blockOf (lo hi : Nat) : Nat := ((List.range 5).find? fun z => lo / blockSize z == hi / blockSize z).getD 4

/-- The origin of a core's remote requests. -/
def State.coreOrg (s : State) (core serial : Nat) (b : Blk) : Origin :=
  ⟨0, core, b.part, b.ctx, s.cgenOf b.ctx, 0, none, serial⟩

/-- An entry of the remote-write queue becomes one write packet (R439). -/
def State.handEntry (s : State) (core : Nat) (b : Blk) (e : RqEnt) : State :=
  let os := e.bytes.map (·.1)
  let lo := os.foldl min 127
  let hi := os.foldl max 0
  let z := blockOf lo hi
  let at' := lo / blockSize z * blockSize z
  let mask := e.bytes.foldl (fun m x => m + 2 ^ (x.1 - at')) 0
  let full := e.bytes.length == blockSize z
  s.fabWrite (s.coreOrg core e.serial b) (e.line * 128 + at') z (if full then none else some mask)
    ((List.range (blockSize z)).map fun i => tabGet 0 e.bytes (at' + i)) false

/-- Entries of the remote-write queue close and are handed to the transport, oldest first. -/
def State.handRq (s : State) (core : Nat) (f : RqEnt → Bool) : State :=
  let k := s.core core
  match k.blk with
  | none => s
  | some b =>
    let s := s.setCore core { k with rq := k.rq.filter fun e => !f e }
    s.each (k.rq.filter f) fun s e => s.handEntry core b e

/-- An atomic or reduction of the core is outstanding. -/
def State.atomsOut (s : State) (core : Nat) : Bool :=
  let mine := fun (r : Req) => r.agent == 0 && r.unit == core &&
    (match r.kind with | .atomic _ => true | .red _ => true | _ => false)
  (s.coh.reqs ++ s.unserved).any mine || (s.coh.reds.any fun r => r.wait.any fun e => e.2 == core) ||
  (s.core core).flights.any fun f => f.wait != []

/-- A release of a scope that covers the serials below n holds now. -/
def State.relOk (s : State) (core scope n : Nat) : Bool :=
  let k := s.core core
  scope == 0 ||
  (!(k.sb.any fun e => decide (e.serial < n)) && !s.atomsOut core &&
   (scope == 1 ||
    (!(s.coh.pend.any fun q => q.cluster == core / 8 && decide (q.serial < n)) &&
     !(k.rq.any fun e => decide (e.serial < n)))))

/-- The issue performs a release first: entries it covers close, and the rest of the instruction waits until the release
holds. -/
def State.withRelease (s : State) (o : Op) (scope : Nat) (go : State → State) : State :=
  let k := s.core o.core
  let mine := fun (r : Rel) => r.group == o.group && r.pc == o.pc
  match k.rels.find? mine with
  | some r =>
    if r.done then go (s.setCore o.core { k with rels := dropFirst mine k.rels }) else s
  | none =>
    let s := if scope = 0 then s else s.setCore o.core (k.closeSb fun _ => true)
    let s := s.handRq o.core fun _ => true
    let (n, s) := s.tick
    if s.relOk o.core scope n then go s
    else
      let k := s.core o.core
      s.setCore o.core { k with rels := k.rels ++ [⟨o.group, o.pc, o.all, scope, n, false⟩] }

/-- The earlier writes have reached the state that the scope of a fragment's release asks. -/
def execReleaseComplete (at' : Issue) (s : State) : Out :=
  .next <|
    let k := s.core at'.core
    let mine := fun (r : Rel) => r.group == at'.group && r.pc == at'.pc && r.scope < 3 && !r.done
    match k.rels.find? mine with
    | some r =>
      if s.relOk at'.core r.scope r.serial then
        s.setCore at'.core { k with rels := updFirst mine (fun r => { r with done := true }) k.rels }
      else s
    | none => s

/-- An acquire at a scope, R246: beyond the core the Well cache's lines are invalidated. -/
def State.acquire (s : State) (core scope : Nat) : State :=
  if scope = 0 then s else s.setCore core { s.core core with lines := [] }

/-! ### Loads, R196, R197, R242, R248 to R251 -/

/-- The bytes of a line that the core's store buffer holds, the latest store last. -/
def Core.sbLine (k : Core) (line : Nat) : Data :=
  (k.sb.filter fun e => e.line == line && !e.setup).foldl (fun d e => e.bytes.foldl (fun d x => tabIns d x.1 x.2) d) []

/-- Bytes that the cluster cache accepted for a line and has not merged. -/
def State.pendLine (s : State) (cluster line : Nat) : Data :=
  (s.coh.pend.filter fun q => q.cluster == cluster && q.line == line).foldl
    (fun d q => q.bytes.foldl (fun d x => tabIns d x.1 x.2) d) []

/-- n bytes at offset o, when all are listed. -/
def listed (d : Data) (o n : Nat) : Option (List Byte) := ((List.range n).map fun i => tabFind d (o + i)).mapM id

/-- Any of n bytes at offset o is listed. -/
def anyListed (d : Data) (o n : Nat) : Bool := (List.range n).any fun i => (tabFind d (o + i)).isSome

/-- The value of one lane: its bytes, poison, and an error's words for the exception record; `none` to try later. -/
abbrev LaneVal := Option (List Byte × Bool × List Nat)

/-- The class of a load (R197): 0 normal, 1 stream, 2 narrow. -/
def loadClass (p : Page) (cq : Nat) : Nat := if p.cc = 2 ∨ cq = 2 then 2 else if p.cc = 1 ∨ cq = 1 then 1 else 0

/-- The load reads beyond the Well cache: an acquire wider than the core, or CQ 3 (R247, R248). -/
def beyondWell (w : Nat) : Bool := (wSem w == 1 && wScope w != 0) || wCQ w == 3

/-- A response that covers an address, held for a thread: it sent the read with the fragment of then (R246). -/
def Core.respAt (k : Core) (o : Op) (t a n : Nat) : Option Resp :=
  k.resps.find? fun r => r.group == o.group && r.pc == o.pc && r.lanes.contains t && decide (r.addr ≤ a) && decide (a + n ≤ r.addr + r.bytes.length)

def Resp.val (r : Resp) (a n : Nat) : LaneVal :=
  some ((r.bytes.drop (a - r.addr)).take n, r.poison, if r.err = 0 then [] else [r.err % 256, r.err / 256])

/-- The Well cache's lines: (WCACHE + 1) × 512 of them, the oldest giving way. -/
def Core.wellFill (k : Core) (line : Nat) (d : Data) : Core :=
  let l := k.lines.filter fun e => e.1 != line
  let cap := (k.wcache + 1) * 512
  { k with lines := (if cap ≤ l.length then l.drop 1 else l) ++ [(line, d)] }

/-- A fill of the line for the cluster is under way. -/
def State.filling (s : State) (cluster line : Nat) : Bool :=
  let mine := fun (r : Req) => r.agent == 0 && r.cluster == cluster && r.addr / 128 == line &&
    (match r.kind with | .rdShared _ => true | .rdOwn => true | .upgrade => true | _ => false)
  s.coh.reqs.any mine || s.coh.waitq.any mine || (s.coh.grants.any fun g => g.cluster == cluster && g.line == line) ||
  s.coh.txns.any fun e => e.1 == line && (mine e.2.req || e.2.joiners.any mine)

/-- The cluster cache asks the home for a line, once; the stream class or a confirmed stream carries NA (R285). -/
def State.askShared (s : State) (o : Op) (line cls : Nat) : State :=
  let cl := o.core / 8
  if s.filling cl line then s
  else
    let (na, s) := if cls = 1 then (true, s) else s.track cl line
    let (n, s) := s.tick
    s.addReq ⟨n, .rdShared na, line * 128, 0, o.core, cl, o.blk.ctx, o.group, o.pc, cls, n⟩

/-- A request of a thread for an address is out. -/
def Core.isSent (k : Core) (o : Op) (t a : Nat) : Bool :=
  k.sent.any fun x => x.group == o.group && x.pc == o.pc && x.addr == a && x.lanes.contains t
def State.markSent (s : State) (o : Op) (a id : Nat) : State :=
  let k := s.core o.core
  s.setCore o.core { k with sent := k.sent ++ [⟨o.group, o.pc, o.ex, a, id⟩] }

/-- When a read leaves for a line, lanes of the load whose bytes the store buffer holds keep those bytes: the line is read at
one moment, the core's own buffered bytes with it (R242, R251). -/
def State.keepForward (s : State) (o : Op) (all : List (Nat × Nat × Nat × Page)) (line n : Nat) : State :=
  let k := s.core o.core
  let d := k.sbLine line
  let mine := (all.filter fun e => lineOf e.2.2.1 == line).filterMap fun e =>
    if k.resps.any fun r => r.group == o.group && r.pc == o.pc && r.lanes == [e.1] && r.addr == e.2.2.1 then none
    else (listed d (e.2.2.1 % 128) n).map fun l => (⟨o.group, o.pc, [e.1], e.2.2.1, l, false, 0⟩ : Resp)
  s.setCore o.core { k with resps := mine ++ k.resps }

/-- Answers held and reads sent for a line are given up: the core has stored to it since (R242). -/
def Core.lineDrop (k : Core) (line : Nat) : Core :=
  { k with resps := k.resps.filter fun r => lineOf r.addr != line, sent := k.sent.filter fun x => lineOf x.addr != line }

/-- A lane's narrow read (R250): the sector from its home, after the cluster's own writes of the line. -/
def State.loadNarrow (s : State) (o : Op) (all : List (Nat × Nat × Nat × Page)) (t pa n : Nat) : State × LaneVal :=
  let k := s.core o.core
  let a := pa / 32 * 32
  match k.respAt o t pa n with
  | some r => (s, r.val pa n)
  | none =>
    if k.isSent o t a || s.pendLine (o.core / 8) (lineOf pa) != [] then (s, none)
    else
      let (i, s) := s.tick
      (((s.keepForward o all (lineOf pa) n).addReq ⟨i, .rdNarrow, a, 0, o.core, o.core / 8, o.blk.ctx, o.group, o.pc, 2, i⟩).markSent o a i, none)

/-- A lane's read of a line: the Well cache, then the cluster cache, then the home. -/
def State.loadLine (s : State) (o : Op) (pa n cls : Nat) : State × LaneVal :=
  let k := s.core o.core
  let line := lineOf pa
  let at' := pa % 128
  let well := if beyondWell o.w then none else (k.lines.find? fun e => e.1 == line).map (·.2)
  match well with
  | some d => (s, some ((List.range n).map fun i => tabGet 0 d (at' + i), false, []))
  | none =>
    let pend := s.pendLine (o.core / 8) line
    match s.ccFind (o.core / 8) line, listed pend at' n with
    | some c, _ =>
      let d := overlay (overlay c.data pend) (k.sbLine line)
      let bad := bit c.poison (at' / 32) && (listed pend at' n).isNone
      let s := if beyondWell o.w || c.poison != 0 then s else s.setCore o.core (k.wellFill line d)
      (s, some ((List.range n).map fun i => tabGet 0 d (at' + i), bad, []))
    | none, some l => (s, some (l, false, []))
    | none, none => (s.askShared o line cls, none)

/-- The bytes of a line that the lanes of the load read: lowest and highest offset. -/
def lineSpan (l : List (Nat × Nat × Nat × Page)) (line n : Nat) : Nat × Nat :=
  (l.filter fun e => e.2.2.1 / 128 == line).foldl
    (fun a e => (min a.1 (e.2.2.1 % 128), max a.2 (e.2.2.1 % 128 + n - 1))) (127, 0)

/-- A lane's read of the host window: one request for the bytes of the line that the lanes `ask` need (R251), once a tag is
free, its answer kept. -/
def State.loadHost (s : State) (o : Op) (ask all : List (Nat × Nat × Nat × Page)) (t va pa n : Nat) : State × LaneVal :=
  let k := s.core o.core
  match k.respAt o t pa n with
  | some r => (s, r.val pa n)
  | none =>
    let sp := lineSpan ask (pa / 128) n
    let a := pa / 128 * 128 + sp.1
    if k.isSent o t a || !s.readRoom then (s, none)
    else
      let id := s.host.nextId
      let len := sp.2 + 1 - sp.1
      let r : HRead := ⟨id, 0, o.core, o.blk.part, o.blk.ctx, va - (pa - a), a, len, o.group, o.pc, o.all, o.w⟩
      let s := { s with host := { s.host with reads := s.host.reads ++ [r], nextId := id + 1 } }
      (((s.keepForward o all (lineOf pa) n).hostAsk (o.core / 512) a len).markSent o a (2 ^ 64 + id), none)

/-- The core's own writes to a fabric line are acknowledged. -/
def State.fabLineClear (s : State) (core fa : Nat) : Bool :=
  !((s.core core).rq.any fun e => e.line == fa / 128) &&
  !(s.fab.conns.any fun c => (c.out ++ c.queue).any fun w =>
    w.org.agent == 0 && w.org.unit == core && (2 ^ 56 + c.chip * 2 ^ 40 + w.off) / 128 == fa / 128)

/-- A lane's remote read (R440). -/
def State.loadFabric (s : State) (o : Op) (all : List (Nat × Nat × Nat × Page)) (t pa n : Nat) : State × LaneVal :=
  let k := s.core o.core
  match k.respAt o t pa n with
  | some r => (s, r.val pa n)
  | none =>
    let sp := lineSpan all (pa / 128) n
    let z := blockOf sp.1 sp.2
    let a := pa / 128 * 128 + sp.1 / blockSize z * blockSize z
    if k.isSent o t a then (s, none)
    else
      let s := s.handRq o.core fun e => e.line == pa / 128
      if !s.fabLineClear o.core pa || decide (64 ≤ (s.fab.reads.filter fun r => r.org.agent == 0 && r.org.unit == o.core).length) then
        (s, none)
      else
        let (i, s) := s.tick
        ((s.markSent o a i).fabRead (s.coreOrg o.core i o.blk) o.group o.pc a z, none)

/-- A lane's read, but for setup space, which waits for the core's own setup-space stores. -/
def State.loadLane (s : State) (o : Op) (all : List (Nat × Nat × Nat × Page)) (n : Nat) (e : Nat × Nat × Nat × Page) :
    State × LaneVal :=
  let (t, va, pa, p) := e
  let k := s.core o.core
  match region pa with
  | .fabric => s.loadFabric o all t pa n
  | .setup0 => (s, if k.sb.any (·.setup) then none else some ([], false, []))
  | .setup2 => (s, if k.sb.any (·.setup) then none else some ([], false, []))
  | r =>
    let d := k.sbLine (lineOf pa)
    match listed d (pa % 128) n with
    | some l => (s, some (l, false, []))
    | none =>
      let part := fun (e : Nat × Nat × Nat × Page) =>
        lineOf e.2.2.1 == lineOf pa && anyListed d (e.2.2.1 % 128) n && (listed d (e.2.2.1 % 128) n).isNone
      if all.any part && (k.respAt o t pa n).isNone then (s, none)
      else if anyListed d (pa % 128) n then (s, none)
      else if r = .hostWin then
        s.loadHost o (all.filter fun e => lineOf e.2.2.1 != lineOf pa ||
          ((listed d (e.2.2.1 % 128) n).isNone && (k.respAt o e.1 e.2.2.1 n).isNone)) all t va pa n
      else if s.lineOut o.core (lineOf pa) then (s, none)
      else
        let c := loadClass p (wCQ o.w)
        if c = 2 then s.loadNarrow o all t pa n else s.loadLine o pa n c

/-- Every lane's read: the values, or `none` while some lane waits. -/
def State.loadLanes (s : State) (o : Op) (all : List (Nat × Nat × Nat × Page)) (n : Nat) :
    List (Nat × Nat × Nat × Page) → State × Option (List (Nat × Nat × Nat × List Byte × Bool × List Nat))
  | [] => (s, some [])
  | e :: r =>
    let (s, v) := s.loadLane o all n e
    let (s, z) := s.loadLanes o all n r
    match v, z with
    | some v, some z => (s, some ((e.1, e.2.1, e.2.2.1, v) :: z))
    | _, _ => (s, none)

/-- The value a load writes: extended to the registers it fills (R196). -/
def loadValue (signed : Bool) (l : List Byte) : Nat :=
  if signed then wrap 32 (toSigned (8 * l.length) (ofBytes l)) else ofBytes l

/-- The setup-space lanes are read in lane order, once every lane is ready. -/
def State.setupReads (s : State) (n : Nat) :
    List (Nat × Nat × Nat × List Byte × Bool × List Nat) → State × List (Nat × List Byte)
  | [] => (s, [])
  | (t, _, pa, l, _) :: r =>
    let (s, l) := if region pa = .setup0 then
        let (s, v) := s.bar0Read 0 (pa - 0x020000000000) n
        (s, toBytes n v)
      else if region pa = .setup2 then (s, List.replicate n 0) else (s, l)
    let z := s.setupReads n r
    (z.1, (t, l) :: z.2)

/-- The load ends: registers are written, held answers are used up, an acquire is performed. -/
def State.loadEnd (s : State) (o : Op) (signed : Bool) (n : Nat) (vals : List (Nat × Nat × Nat × List Byte × Bool × List Nat)) :
    State :=
  let (s, z) := s.setupReads n vals
  let k := s.core o.core
  let k := z.foldl (fun k e => k.setRegs e.1 (wD o.w) (loadValue signed e.2) (max 1 (n / 4))) k
  let k := { k with
    resps := k.resps.filter fun r => !(r.group == o.group && r.pc == o.pc)
    sent := k.sent.filter fun x => !(x.group == o.group && x.pc == o.pc) }
  let s := s.done o k
  if wSem o.w = 1 then s.acquire o.core (wScope o.w) else s

/-- A load from the scratchpad. -/
def State.loadSp (n : Nat) (signed : Bool) (o : Op) (s : State) : State :=
  let k := s.core o.core
  match spFault o k n with
  | some (c, a) => s.raiseOp o c { va := wrap 64 a }
  | none =>
    let k' := o.ex.foldl (fun k' t => k'.setRegs t (wD o.w) (loadValue signed (k.wellGet (laneOff o k t).toNat n)) (max 1 (n / 4))) k
    let s := s.done o k'
    if wSem o.w = 1 then s.acquire o.core (wScope o.w) else s

/-- The lanes below the first that stops are read first: poison of a lower lane is the exception (R177). -/
def State.loadRun (s : State) (o : Op) (n : Nat) (l : List (Nat × Nat × Nat × Page))
    (go : State → List (Nat × Nat × Nat × List Byte × Bool × List Nat) → State) : State :=
  match s.loadLanes o l n l with
  | (s, none) => s
  | (s, some v) =>
    match v.find? fun e => e.2.2.2.2.1 with
    | some e => s.raiseOp o 0x36 { va := e.2.1, pa := e.2.2.1, extra := e.2.2.2.2.2 }
    | none => go s v

/-- A load of n bytes. -/
def State.load (n : Nat) (signed : Bool) (o : Op) (s : State) : State :=
  if wSpace o.w then s.loadSp n signed o
  else
    match s.lanesCheck o false false n o.ex with
    | (_, some (.miss va)) => s.laneStop o false (.miss va)
    | (l, some x) => s.loadRun o n l fun s _ => s.laneStop o false x
    | (l, none) => s.loadRun o n l fun s v => s.loadEnd o signed n v

def execLd8u (at' : Issue) (w : BitVec 128) (s : State) : Out := .next <| s.instr 4 0x01 at' w (State.load 1 false)
def execLd8s (at' : Issue) (w : BitVec 128) (s : State) : Out := .next <| s.instr 4 0x02 at' w (State.load 1 true)
def execLd16u (at' : Issue) (w : BitVec 128) (s : State) : Out := .next <| s.instr 4 0x03 at' w (State.load 2 false)
def execLd16s (at' : Issue) (w : BitVec 128) (s : State) : Out := .next <| s.instr 4 0x04 at' w (State.load 2 true)
def execLd32 (at' : Issue) (w : BitVec 128) (s : State) : Out := .next <| s.instr 4 0x05 at' w (State.load 4 false)
def execLd64 (at' : Issue) (w : BitVec 128) (s : State) : Out := .next <| s.instr 4 0x06 at' w (State.load 8 false)
def execLd128 (at' : Issue) (w : BitVec 128) (s : State) : Out := .next <| s.instr 4 0x07 at' w (State.load 16 false)

/-! ### Stores, R196, R240, R241 -/

/-- A store joins the open entry of its line, one that looked up the same host-window entry, or opens one; `none` when no
entry is free. DESIGN CHOICE: the entry keeps no class, so that a store of the stream class (CQ 1, a stream page) asks and
writes back as any other and its line may take a way (R58 against R278 and R280, which give RD_OWN no NA). -/
def State.sbPut (s : State) (o : Op) (va pa : Nat) (l : List Byte) (setup : Bool) : Option State :=
  let k := s.core o.core
  let line := lineOf pa
  let b : Data := l.mapIdx fun i x => (pa % 128 + i, x)
  let win := if region pa = .hostWin then s.hwinLook pa else 0
  let mine := fun (e : SbEnt) => e.line == line && !e.closed && !e.setup && e.win == win
  if !setup && k.sb.any mine then
    some (s.setCore o.core { k with sb := updFirst mine (fun e => { e with bytes := b.foldl (fun d x => tabIns d x.1 x.2) e.bytes }) k.sb })
  else if 64 ≤ k.sb.length then none
  else
    let (n, s) := s.tick
    some (s.setCore o.core { k with sb := k.sb ++ [⟨n, line, b, setup, false, va, win⟩] })

/-- A store joins the open entry of its line in the remote-write queue, or opens one (R439). -/
def State.rqPut (s : State) (o : Op) (pa : Nat) (l : List Byte) : State :=
  let b : Data := l.mapIdx fun i x => (pa % 128 + i, x)
  let mine := fun (e : RqEnt) => e.line == pa / 128 && !e.closed
  let k := s.core o.core
  if k.rq.any mine then
    s.setCore o.core { k with rq := updFirst mine (fun e => { e with bytes := b.foldl (fun d x => tabIns d x.1 x.2) e.bytes }) k.rq }
  else
    let s := match k.rq with
      | e :: _ => if 64 ≤ k.rq.length then s.handRq o.core fun x => x == e else s
      | [] => s
    let (n, s) := s.tick
    let k := s.core o.core
    s.setCore o.core { k with rq := k.rq ++ [⟨n, pa / 128, b, false⟩] }

/-- A release store to a fabric address leaves alone as a signal, after every entry of the queue (R439). -/
def State.sigPut (s : State) (o : Op) (pa : Nat) (l : List Byte) : State :=
  let z := if l.length = 16 then 1 else 0
  let at' := pa % blockSize z
  let (n, s) := s.tick
  let full := l.length == blockSize z
  s.fabWrite (s.coreOrg o.core n o.blk) (pa / blockSize z * blockSize z) z
    (if full then none else some ((2 ^ l.length - 1) * 2 ^ at'))
    (List.replicate at' 0 ++ l ++ List.replicate (blockSize z - at' - l.length) 0) true

/-- A copy of the line in the Well cache takes the store too (R242). -/
def Core.wellPatch (k : Core) (pa : Nat) (l : List Byte) : Core :=
  { k with lines := k.lines.map fun e => if e.1 = lineOf pa then
      (e.1, (l.mapIdx fun i b => (pa % 128 + i, b)).foldl (fun d x => tabSet 0 d x.1 x.2) e.2) else e }

/-- One lane's store. -/
def State.storeLane (s : State) (o : Op) (va pa : Nat) (l : List Byte) : Option State :=
  match region pa with
  | .fabric => some (if wSem o.w = 2 then s.sigPut o pa l else s.rqPut o pa l)
  | .setup0 => s.sbPut o va pa l true
  | .setup2 => s.sbPut o va pa l true
  | _ => (s.sbPut o va pa l false).map fun s => s.setCore o.core (((s.core o.core).wellPatch pa l).lineDrop (lineOf pa))

/-- Every lane's store in lane order, or none of them. -/
def State.storeLanes (s : State) (o : Op) (n : Nat) : List (Nat × Nat × Nat × Page) → Option State
  | [] => some s
  | (t, va, pa, _) :: r =>
    match s.storeLane o va pa (toBytes n ((s.core o.core).regs t (wD o.w) (max 1 (n / 4)))) with
    | some s => s.storeLanes o n r
    | none => none

/-- The lanes' stores; without room the oldest open entry closes and the store issues again. A setup-space store waits until
earlier ones are performed (R244). -/
def State.storeAll (s : State) (o : Op) (n : Nat) (l : List (Nat × Nat × Nat × Page)) : State :=
  let setup := fun (pa : Nat) => region pa == .setup0 || region pa == .setup2
  if l.any (fun e => setup e.2.2.1) && (s.core o.core).sb.any (·.setup) then
    s.setCore o.core ((s.core o.core).closeSb (·.setup))
  else
  match s.storeLanes o n l with
  | some s => s.done o (s.core o.core)
  | none =>
    let k := s.core o.core
    match k.sb.find? fun e => !e.closed with
    | some e => s.setCore o.core (k.closeSb fun x => x.serial == e.serial)
    | none => s

/-- A store to the scratchpad: the highest lane's value stays where lanes meet (R165). -/
def State.storeSp (n : Nat) (o : Op) (s : State) : State :=
  let k := s.core o.core
  match spFault o k n with
  | some (c, a) => s.raiseOp o c { va := wrap 64 a, write := true }
  | none =>
    let go := fun (s : State) =>
      let k := s.core o.core
      s.done o (o.ex.foldl (fun k' t => k'.wellPut (laneOff o k t).toNat (toBytes n (k.regs t (wD o.w) (max 1 (n / 4))))) k)
    if wSem o.w = 2 then s.withRelease o (wScope o.w) go else go s

/-- A store of n bytes. -/
def State.store (n : Nat) (o : Op) (s : State) : State :=
  if wSpace o.w then s.storeSp n o
  else
    match s.lanesCheck o true false n o.ex with
    | (_, some x) => s.laneStop o true x
    | (l, none) => if wSem o.w = 2 then s.withRelease o (wScope o.w) fun s => s.storeAll o n l else s.storeAll o n l

def execSt8 (at' : Issue) (w : BitVec 128) (s : State) : Out := .next <| s.instr 4 0x11 at' w (State.store 1)
def execSt16 (at' : Issue) (w : BitVec 128) (s : State) : Out := .next <| s.instr 4 0x13 at' w (State.store 2)
def execSt32 (at' : Issue) (w : BitVec 128) (s : State) : Out := .next <| s.instr 4 0x15 at' w (State.store 4)
def execSt64 (at' : Issue) (w : BitVec 128) (s : State) : Out := .next <| s.instr 4 0x16 at' w (State.store 8)
def execSt128 (at' : Issue) (w : BitVec 128) (s : State) : Out := .next <| s.instr 4 0x17 at' w (State.store 16)

/-! ### Entries closing and draining, R241, R243, R439 -/

/-- 256 A-clocks have passed since the entry with this serial opened. -/
def execStoreBufferEntryClose (core serial : Nat) (s : State) : Out :=
  .next <| s.setCore core ((s.core core).closeSb fun e => e.serial == serial)

/-- 64 A-clocks without a merge: the entry of a fabric line is handed to the transport. -/
def execRemoteWriteEntryClose (core line : Nat) (s : State) : Out := .next <| s.handRq core fun e => e.line == line

end Sys2Proof.Machine
end

