-- ==== Sys2Proof/Machine/Atomics.lean ====
section
/-! DEFINITION. Atomics, reductions, reserved loads and conditional stores of threads (R172 to R175, R198, R199, R253). -/

namespace Sys2Proof.Machine

/-- Registers of an atomic's operands. -/
def atomN (w : Nat) : Nat := if wW64 w then 2 else 1

/-- The sets of an issue: lanes that name one address, in order of the lowest lane (R172). -/
def atomSets (l : List (Nat × Nat)) : List (Nat × List Nat) :=
  l.foldl (fun a e =>
    if a.any fun x => x.1 == e.2 then a.map fun x => if x.1 = e.2 then (x.1, x.2 ++ [e.1]) else x
    else a ++ [(e.2, [e.1])]) []

/-- The request of a set of threads at an address. -/
def atomReqOf (o : Op) (k : Core) (pa : Nat) (ts : List Nat) : AtomReq :=
  let n := atomN o.w
  ⟨wAtop o.w, wW64 o.w, pa, ts.map fun t =>
    (t, k.regs t (wB o.w) n, if wAtop o.w = 12 then k.regs t (wC o.w) n else 0), 0, false⟩

/-! ### In the scratchpad -/

/-- Values returned to lanes, in D. -/
def Core.atomWrite (k : Core) (w : Nat) (vals : List (Nat × Nat)) : Core :=
  vals.foldl (fun k e => k.setRegs e.1 (wD w) e.2 (atomN w)) k

/-- One set applied to the Well array. -/
def Core.atomWell (o : Op) (k0 : Core) (k : Core) (e : Nat × List Nat) : Core :=
  let n := 4 * atomN o.w
  let r := atomSet (atomReqOf o k0 e.1 e.2) (ofBytes (k.wellGet e.1 n))
  let k := k.wellPut e.1 (toBytes n r.1)
  if wOp o.w = 1 then k.atomWrite o.w r.2 else k

/-- A scratchpad atomic is immediate. -/
def State.atomSp (o : Op) (s : State) : State :=
  let k := s.core o.core
  match spFault o k (4 * atomN o.w) with
  | some (c, a) => s.raiseOp o c { va := wrap 64 a, write := true }
  | none =>
    let go := fun (s : State) =>
      let k := s.core o.core
      let s := s.done o ((atomSets (o.ex.map fun t => (t, (laneOff o k t).toNat))).foldl (Core.atomWell o k) k)
      if wSem o.w % 2 = 1 then s.acquire o.core (wScope o.w) else s
    if 2 ≤ wSem o.w then s.withRelease o (wScope o.w) go else go s

/-! ### At the Cistern -/

/-- The core's own entries for the lines are closed; the access waits until they are gone (R253). -/
def State.drainLines (s : State) (core : Nat) (lines : List Nat) : State :=
  s.setCore core ((s.core core).closeSb fun e => lines.contains e.line)
def State.linesClear (s : State) (core : Nat) (lines : List Nat) : Bool :=
  !((s.core core).sb.any fun e => lines.contains e.line) &&
  !(s.coh.pend.any fun q => q.cluster == core / 8 && lines.contains q.line)

/-- Well cache lines of the addresses are invalidated (R172). -/
def Core.wellDrop (k : Core) (lines : List Nat) : Core := { k with lines := k.lines.filter fun e => !lines.contains e.1 }

/-- A request of the fragment leaves for the home; its identifier. -/
def State.sendAtom (s : State) (o : Op) (kind : ReqKind) (pa : Nat) : State × Nat :=
  let (n, s) := s.tick
  (s.addReq ⟨n, kind, pa, 0, o.core, o.core / 8, o.blk.ctx, o.group, o.pc, 5, n⟩, n)

/-- Requests sent in order; their identifiers. -/
def State.sendAtoms (s : State) (o : Op) : List (ReqKind × Nat) → State × List Nat
  | [] => (s, [])
  | e :: r =>
    let (s, n) := s.sendAtom o e.1 e.2
    let z := s.sendAtoms o r
    (z.1, n :: z.2)

/-- The requests of an issue: one for each set; for LDR and STC one for each lane. -/
def atomKinds (o : Op) (k : Core) (l : List (Nat × Nat)) : List (ReqKind × Nat) :=
  if wOp o.w = 1 then (atomSets l).map fun e => (.atomic (atomReqOf o k e.1 e.2), e.1)
  else if wOp o.w = 2 then (atomSets l).map fun e => (.red (atomReqOf o k e.1 e.2), e.1)
  else
    l.map fun e =>
      (.atomic ⟨if wOp o.w = 3 then 16 else 17, wW64 o.w, e.2,
        [(e.1, if wOp o.w = 4 then k.regs e.1 (wB o.w) (atomN o.w) else 0, 0)], o.core * 512 + e.1, false⟩, e.2)

/-- The requests are out: a reduction without an acquire is through, any other instruction waits for them. -/
def State.atomLaunch (s : State) (o : Op) (l : List (Nat × Nat)) : State :=
  let k := s.core o.core
  let (s, ids) := s.sendAtoms o (atomKinds o k l)
  let k := (s.core o.core).wellDrop (l.map fun e => lineOf e.2)
  if wOp o.w = 2 ∧ wSem o.w % 2 = 0 then s.done o k
  else s.setCore o.core { k with flights := k.flights ++ [⟨o.group, o.pc, o.all, ids, [], false⟩] }

/-- The address that the lowest lane with a poisoned answer names, and the physical address that it reaches. -/
def State.atomBad (s : State) (o : Op) (f : Flight) : ExcInfo :=
  let t := (o.ex.find? fun t => (tabFind f.got t).isNone).getD (o.ex.headD 0)
  let va := laneVa o (s.core o.core) t
  { va := va, pa := match s.xlate o.core o.blk.ctx va .read with | .ok _ pa => pa | _ => 0, write := wOp o.w != 3 }

/-- Every answer is in: D takes the values, p[D] the outcome of STC, and an acquire is performed. -/
def State.atomEnd (s : State) (o : Op) (f : Flight) : State :=
  let k := s.core o.core
  let drop := fun (k : Core) => { k with flights := dropFirst (fun x => x.group == o.group && x.pc == o.pc) k.flights }
  if f.poison then
    (s.setCore o.core (drop k)).raiseOp o 0x36 (s.atomBad o f)
  else
    let vals := o.ex.map fun t => (t, tabGet 0 f.got t)
    let k := if wOp o.w = 1 ∨ wOp o.w = 3 then k.atomWrite o.w vals
      else if wOp o.w = 4 then vals.foldl (fun k e => k.setPred e.1 (wD o.w) (e.2 != 0)) k
      else k
    let s := s.done o (drop k)
    if wSem o.w % 2 = 1 then s.acquire o.core (wScope o.w) else s

/-- An atomic on device memory: checks for every lane, the release, the core's own entries, then the requests. -/
def State.atomDev (o : Op) (s : State) : State :=
  match (s.core o.core).flight o.group o.pc with
  | some f => if f.wait = [] then s.atomEnd o f else s
  | none =>
    let wr := wOp o.w != 3
    match s.lanesCheck o wr true (4 * atomN o.w) o.ex with
    | (_, some x) => s.laneStop o wr x
    | (l, none) =>
      let l := l.map fun e => (e.1, e.2.2.1)
      let lines := l.map fun e => lineOf e.2
      let go := fun (s : State) =>
        let s := s.drainLines o.core lines
        if s.linesClear o.core lines then s.atomLaunch o l else s
      if 2 ≤ wSem o.w then s.withRelease o (wScope o.w) go else go s

def State.atom (o : Op) (s : State) : State := if wSpace o.w then State.atomSp o s else State.atomDev o s

def execAtom (at' : Issue) (w : BitVec 128) (s : State) : Out := .next <| s.instr 5 0x01 at' w State.atom
def execAtoms (at' : Issue) (w : BitVec 128) (s : State) : Out := .next <| s.instr 5 0x02 at' w State.atom
def execLdr (at' : Issue) (w : BitVec 128) (s : State) : Out := .next <| s.instr 5 0x03 at' w State.atom
def execStc (at' : Issue) (w : BitVec 128) (s : State) : Out := .next <| s.instr 5 0x04 at' w State.atom

end Sys2Proof.Machine
end

