-- ==== Sys2Proof/Machine/Sync.lean ====
section
/-! DEFINITION. The SYNC class, barriers and EXIT (R151, R167 to R171, R200, R247, R254). -/

namespace Sys2Proof.Machine

/-! ### Fences -/

/-- FENCE, R247: SEM 1 an acquire, 2 a release, 3 both. -/
def State.fence (o : Op) (s : State) : State :=
  let go := fun (s : State) =>
    let s := s.done o (s.core o.core)
    if wSem o.w % 2 = 1 then s.acquire o.core (wScope o.w) else s
  if 2 ≤ wSem o.w then s.withRelease o (wScope o.w) go else go s

def execFence (at' : Issue) (w : BitVec 128) (s : State) : Out := .next <| s.instr 6 0x01 at' w State.fence

/-- FFENCE, R254: the remote writes posted before it leave for the transport, and the fence waits for all of them. -/
def State.ffence (o : Op) (s : State) : State :=
  let mine := fun (r : Rel) => r.group == o.group && r.pc == o.pc
  if (s.core o.core).rels.any mine then s
  else
    let s := s.handRq o.core fun _ => true
    let (n, s) := s.tick
    let k := s.core o.core
    s.setCore o.core { k with rels := k.rels ++ [⟨o.group, o.pc, o.all, 3, n, false⟩] }

def execFfence (at' : Issue) (w : BitVec 128) (s : State) : Out := .next <| s.instr 6 0x02 at' w State.ffence

/-- The awaited remote writes are acknowledged, refused or given up: the Well cache is invalidated and the fence ends; where it
was stepped, the target halts again (R543). -/
def execFfenceComplete (at' : Issue) (s : State) : Out :=
  .next <|
    let k := s.core at'.core
    let mine := fun (r : Rel) => r.group == at'.group && r.pc == at'.pc && r.scope == 3
    match k.rels.find? mine with
    | some r =>
      let step := s.dbg.step == some (at'.core, at'.group, at'.pc)
      if (k.stopped && !step) || s.fabPending at'.core r.serial then s
      else
        let t := s.setCore at'.core (({ k with rels := dropFirst mine k.rels, lines := [] }.advance r.lanes).counted at'.group r.lanes)
        match k.blk with
        | some b => if k.stopped then t.halt b.ctx 2 at'.core at'.group 0 else t
        | none => t
    | none => s

/-! ### Barriers -/

/-- A thread waits at a barrier of a scope and number. -/
def Core.waitsAt (k : Core) (sc n t : Nat) : Bool :=
  match tabFind k.wait t with
  | some (.bar a b _) => a == sc && b == n
  | _ => false

/-- Every live thread of the core waits there. -/
def Core.allAt (k : Core) (sc n : Nat) : Bool := k.live.all (k.waitsAt sc n)

/-- Waiting threads go on. -/
def Core.letGo (k : Core) (l : List Nat) : Core :=
  { k with wait := l.foldl (fun t i => tabDel t i) k.wait }.advance l

/-- The threads of a core that wait at a barrier go on, with an acquire at its scope. -/
def State.barGo (s : State) (core sc n : Nat) : State :=
  let k := s.core core
  (s.setCore core (k.letGo (k.live.filter (k.waitsAt sc n)))).acquire core sc

/-- The release of a completed barrier is on its way to a core. -/
def State.barDone (s : State) (core sc n : Nat) : State :=
  let k := s.core core
  s.setCore core { k with wait := (k.live.filter (k.waitsAt sc n)).foldl (fun t i => tabIns t i (.barDone sc n)) k.wait }

/-- The cores that run core blocks of a launch. -/
def State.coresRunning (s : State) (launch : Nat) : List Nat :=
  (s.cores.filter fun e => (e.2.blk.map (·.launch)) == some launch).map (·.1)

/-- The cores of the cluster block that a core runs. -/
def State.clusterMates (s : State) (core : Nat) (b : Blk) : List Nat :=
  (s.coresRunning b.launch).filter fun c => c / 8 == core / 8

/-- A core barrier completes when every live thread has arrived. -/
def State.coreBar (s : State) (core n : Nat) : State :=
  let k := s.core core
  if k.live != [] && k.allAt 0 n then s.barGo core 0 n else s

/-- A cluster barrier completes: this core's threads go on, the release travels to the others. -/
def State.clusterBar (s : State) (core n : Nat) (b : Blk) : State :=
  let l := s.clusterMates core b
  if b.cluster && l.all (fun c => (s.core c).allAt 1 n) && l.any (fun c => (s.core c).live != []) then
    (l.filter (· ≠ core)).foldl (fun s c => s.barDone c 1 n) (s.barGo core 1 n)
  else s

def State.launch (s : State) (id : Nat) : Option Launch := s.fe.launches.find? fun l => l.id == id
def State.setLaunch (s : State) (l : Launch) : State :=
  { s with fe := { s.fe with launches := updFirst (fun x => x.id == l.id) (fun _ => l) s.fe.launches } }

/-- The block that a core block's arrival message names: its cluster block, or itself. -/
def Launch.blockOf (l : Launch) (index : Nat) : Nat := if l.cluster then index / 8 else index

/-- The cores that run a block. -/
def State.blockCores (s : State) (l : Launch) (block : Nat) : List Nat :=
  (s.coresRunning l.id).filter fun c => (s.core c).blk.any fun b => l.blockOf b.index == block

/-- The device barrier has counted every block that still has live threads. -/
def State.deviceReady (s : State) (l : Launch) (n : Nat) : Bool :=
  decide (l.next = l.grid) &&
  (s.coresRunning l.id).all fun c => (s.core c).live == [] ||
    (s.core c).blk.any fun b => l.arrived.contains (n, l.blockOf b.index)

/-- A device barrier completes once every block is counted: the release goes out to every core. -/
def State.deviceBar (s : State) (launch n : Nat) : State :=
  match s.launch launch with
  | none => s
  | some l =>
    if l.arrived.any (fun a => a.1 == n) && s.deviceReady l n then
      let s := s.setLaunch { l with arrived := l.arrived.filter fun a => a.1 != n }
      s.each (s.coresRunning launch) fun s c => s.barDone c 2 n
    else s

/-- BAR's arrival: the executing threads wait; a barrier that they complete lets its threads go. -/
def State.barArrive (o : Op) (s : State) : State :=
  let k := s.core o.core
  let sc := wBScope o.w
  let n := wBNum o.w
  let k := (k.advance (o.all.filter fun t => !o.ex.contains t)).counted o.group o.all
  let s := s.setCore o.core { k with wait := o.ex.foldl (fun t i => tabIns t i (.bar sc n o.w)) k.wait }
  if sc = 0 then s.coreBar o.core n else if sc = 1 then s.clusterBar o.core n o.blk else s

/-- BAR: the scope must be one that the launch permits (R168); the arrival is a release at the barrier's scope. -/
def State.bar (o : Op) (s : State) : State :=
  let sc := wBScope o.w
  if (sc = 1 ∧ o.blk.cluster = false) ∨ (sc = 2 ∧ o.blk.resident = false) then s.raiseOp o 0x35
  else s.withRelease o sc (State.barArrive o)

def execBar (at' : Issue) (w : BitVec 128) (s : State) : Out := .next <| s.instr 6 0x03 at' w State.bar

/-- The arrival message of a block whose live threads all wait at device barrier n reaches the launch's counter. -/
def execDeviceBarrierArrival (launch num block : Nat) (s : State) : Out :=
  .next <| match s.launch launch with
    | none => s
    | some l =>
      let cs := s.blockCores l block
      if cs.all (fun c => (s.core c).allAt 2 num) && cs.any (fun c => (s.core c).live != []) && !l.arrived.contains (num, block) then
        (s.setLaunch { l with arrived := l.arrived ++ [(num, block)] }).deviceBar launch num
      else s

/-- Threads for which a release was on its way go on, with an acquire. -/
def State.released (s : State) (core sc n : Nat) : State :=
  let k := s.core core
  match k.live.filter fun t => tabFind k.wait t == some (.barDone sc n) with
  | [] => s
  | l => (s.setCore core (k.letGo l)).acquire core sc

def execDeviceBarrierRelease (core num : Nat) (s : State) : Out := .next <| s.released core 2 num

def execClusterBarrierRelease (cluster num : Nat) (s : State) : Out :=
  .next <| (List.range 8).foldl (fun s i => s.released (cluster * 8 + i) 1 num) s

/-- The cores whose threads a barrier of a scope joins. -/
def State.barCores (s : State) (core sc : Nat) (b : Blk) : List Nat :=
  if sc = 0 then [core] else if sc = 1 then s.clusterMates core b else s.coresRunning b.launch

/-- A thread count over the cores of a barrier's scope. -/
def State.arrivedAt (s : State) (core sc n : Nat) (b : Blk) : Nat :=
  (s.barCores core sc b).foldl (fun m c => m + ((s.core c).live.filter ((s.core c).waitsAt sc n)).length) 0

/-- Another core of the barrier has raised the exception, and its teardown will end the waits here (R171). -/
def State.barRaised (s : State) (core sc n : Nat) (b : Blk) : Bool :=
  (s.barCores core sc b).any fun c => c != core && (s.core c).exc.any fun x => x.code == 0x34 && x.extra.headD 0 == sc + n * 4

/-- A thread that the barrier still awaits belongs to a group that waits on a Berth: the watchdog does not count (R205). -/
def State.berthHolds (s : State) (core sc n : Nat) (b : Blk) : Bool :=
  s.fe.waiters.any fun w => (s.barCores core sc b).contains w.core &&
    let k := s.core w.core
    k.live.any fun t => t / 32 == w.group && k.thPc t == w.pc && !k.waitsAt sc n t

/-- A barrier watchdog reaches its bound: 0x34 on the barrier instruction of the lowest waiting group (R171). -/
def execBarrierWatchdogExpiry (core scope num : Nat) (s : State) : Out :=
  .next <|
    let k := s.core core
    match k.blk, k.live.filter (k.waitsAt scope num) with
    | some b, t :: _ =>
      if k.stopped || s.barRaised core scope num b || s.berthHolds core scope num b then s
      else
        let missing := k.live.filter fun x => !k.waitsAt scope num x
        let low := (missing.map k.thPc).foldl min (if missing = [] then 0 else 2 ^ 64)
        let word := match tabFind k.wait t with | some (.bar _ _ w) => w | _ => 0
        let g := t / 32
        let lanes := (k.live.filter (k.waitsAt scope num)).filter fun x => x / 32 == g && k.thPc x == k.thPc t
        s.raise core g (k.thPc t) word lanes 0x34
          { extra := [scope + num * 4, s.arrivedAt core scope num b, missing.length, low] }
    | _, _ => s

/-! ### EXIT, R151, R168 -/

/-- The barriers that an exit may complete. -/
def State.exitBars (s : State) (core : Nat) (b : Blk) : State :=
  let s := (List.range 4).foldl (fun s n => s.coreBar core n) s
  let s := if b.cluster then (List.range 4).foldl (fun s n => s.clusterBar core n b) s else s
  if b.resident then (List.range 2).foldl (fun s n => s.deviceBar b.launch n) s else s

/-- The executing threads exit, keeping their registers. -/
def State.exit (o : Op) (s : State) : State :=
  let k := s.core o.core
  let k := (k.advance (o.all.filter fun t => !o.ex.contains t)).counted o.group o.all
  (s.setCore o.core { k with live := k.live.filter fun t => !o.ex.contains t }).exitBars o.core o.blk

def execExit (at' : Issue) (w : BitVec 128) (s : State) : Out := .next <| s.instr 7 0x06 at' w State.exit

end Sys2Proof.Machine
end

