-- ==== Sys2Proof/Machine/Teardown.lean ====
section
/-! DEFINITION. Contexts and their teardown (R392 to R394, R403, R404), the exception path after its drain (R178, R144),
and debug halts of it (R544). -/

namespace Sys2Proof.Machine

/-! ### Contexts -/

def State.ctx (s : State) (c : Nat) : Ctx := tabGet Ctx.new s.fe.ctxs c
def State.setCtx (s : State) (c : Nat) (x : Ctx) : State :=
  { s with fe := { s.fe with ctxs := tabSet Ctx.new s.fe.ctxs c x } }

/-- STATE of a context: 0 FREE, 1 IDLE, 2 RUNNING, 3 SAVING, 4 RESTORING, 5 FROZEN, 6 TEARING. -/
def State.ctxState (s : State) (c : Nat) : Nat := s.get (F.PT_CTX_STAT_STATE c)
def State.setCtxState (s : State) (c n : Nat) : State := s.set (F.PT_CTX_STAT_STATE c) n
def State.ctxPart (s : State) (c : Nat) : Nat := s.get (F.PT_CTX_CTL_PART c)

/-- Cluster l is in the context's mask. -/
def State.inMask (s : State) (c l : Nat) : Bool := bit (s.get (F.PT_CTX_CL_CLUSTERS c (l / 64))) (l % 64)

/-- The mask as one number, bit l for logical cluster l. -/
def State.ctxMask (s : State) (c : Nat) : Nat :=
  s.get (F.PT_CTX_CL_CLUSTERS c 0) + s.get (F.PT_CTX_CL_CLUSTERS c 1) * 2 ^ 64

/-- The clusters of a mask, ascending. -/
def maskClusters (m : Nat) : List Nat := (List.range 128).filter (bit m)

/-- The logical cores of the mask, ascending. -/
def State.maskCores (s : State) (c : Nat) : List Nat :=
  (maskClusters (s.ctxMask c)).flatMap fun l => (List.range 8).map fun i => 8 * l + i

/-- A generation advanced, skipping 0 (R401, R406). -/
def nextGen (n : Nat) : Nat := if (n + 1) % 65536 = 0 then 1 else (n + 1) % 65536

def State.bumpCgen (s : State) (c : Nat) : State := s.set (F.PT_CTX_STAT_CGEN c) (nextGen (s.cgenOf c))

/-! ### Commands -/

def State.cmd (s : State) (id : Nat) : Option Cmd := s.fe.cmds.find? fun c => c.id == id
def State.setCmds (s : State) (l : List Cmd) : State := { s with fe := { s.fe with cmds := l } }
def State.updCmd (s : State) (id : Nat) (f : Cmd → Cmd) : State := s.setCmds (updFirst (fun c => c.id == id) f s.fe.cmds)

def Cmd.op (c : Cmd) : Nat := bytesAt c.entry 0 1
/-- The 64-bit operand word at an offset of the entry. -/
def Cmd.word (c : Cmd) (off : Nat) : Nat := bytesAt c.entry off 8
/-- The context and the partition of a queue. -/
def State.qCtx (s : State) (q : Nat) : Nat := s.get (F.FE_Q_OWN_CTX q)
def State.qPart (s : State) (q : Nat) : Nat := s.get (F.FE_Q_OWN_PART q)

/-- A command ends: its record follows at its completion. -/
def State.endCmd (s : State) (id status source result : Nat) : State :=
  s.updCmd id fun c => if c.ended then c else { c with ended := true, status := status, source := source, result := result }

/-- A unit's registers when it stops running a command (R350). -/
def State.unitIdle (s : State) (u : Nat) : State :=
  if u < 224 then
    let s := if s.get (F.PU_UNIT_STAT_STATE u) = 1 then s.set (F.PU_UNIT_STAT_STATE u) 0 else s
    s.count (F.PU_UNIT_STAT_CMDS u) 1
  else s

/-- SOURCE of the records of a Pump's or a Lighter's command (R379). -/
def Cmd.engSource (c : Cmd) : Nat := if c.op = 0x07 ∨ c.op = 0x08 then 3 else 4

/-! ### Pipelines, R233 -/

/-- The launch's Sluices unbind, its slot is freed, and its records keep their values. -/
def State.unbind (s : State) (launch : Nat) : State :=
  let mine := s.sluices.filter fun x => x.launch == launch
  let s := { s with sluices := s.sluices.filter fun x => x.launch != launch }
  s.each mine fun s x => s.set (F.SL_PIPE_STAT_BOUND x.slot) 0

/-! ### Debug -/

/-- A halt ends and the target is cleared. -/
def State.detached (s : State) (ctx : Nat) : State :=
  if s.dbg.target = some ctx then
    (({ s with dbg := ⟨none, none, none⟩ }.set F.TD_DBG_STAT_ATTACHED 0).set F.TD_DBG_STAT_HALTED 0).set F.TD_DBG_CTL_BUSY 0
  else s

/-! ### Teardown, R404 -/

/-- Step 1 and 2 on one core: issue stops, stores not yet drained and remote writes not yet handed are discarded, but on a
core that is taking an exception and drains its stores (R178, R179), the engine's queue is dropped (R147), waits end. The
tokens keep their status words (R144) until the next launch (R109). -/
def Core.tear (k : Core) : Core :=
  { k with stopped := true, sb := if k.exc.isSome then k.sb else [], rq := [], rels := [], flights := [], resps := [],
           sent := [], queue := [], stalls := [], wait := [] }

/-- A Pump or Lighter command of the context stops at its next beat (R348), but for one that ended with its own fault. -/
def State.stopJob (s : State) (c : Cmd) : State :=
  match c.job with
  | some j =>
    if c.ended then s
    else
      let s := s.updCmd c.id fun c => { c with job := none }
      ((s.unitIdle j.unit).count (F.PU_ERR_COUNT (s.qPart c.queue)) 1).endCmd c.id 0x5B c.engSource 0
  | none => s

/-- The context's Berths: items discarded, EN cleared, posts that wait on them ended (R372). -/
def State.tearBerths (s : State) (ctx : Nat) : State :=
  let bs := (s.regsAt (A.FE_BERTH_OWN 0) 16 4096).filter fun b =>
    s.on (F.FE_BERTH_OWN_EN b) && s.get (F.FE_BERTH_OWN_CTX b) == ctx
  let s := s.each bs fun s b =>
    let s := (s.set (F.FE_BERTH_OWN_EN b) 0).set (F.FE_BERTH_OWN_COUNT b) 0
    { s with fe := { s.fe with taken := tabDel s.fe.taken b } }
  let s := { s with fe := { s.fe with waiters := s.fe.waiters.filter fun w => !bs.contains w.berth } }
  s.each (s.fe.cmds.filter fun c => c.started && !c.ended && c.op == 0x12 && bs.contains (c.word 16 % 4096)) fun s c =>
    s.endCmd c.id 0x5B 0 0

/-- The launches of the context end with the exception code that tore it down, or CONTEXT_LOST (R367). -/
def State.tearLaunches (s : State) (ctx code source : Nat) : State :=
  let l := s.fe.launches.filter fun x => x.ctx == ctx
  let s := { s with fe := { s.fe with launches := s.fe.launches.filter fun x => x.ctx != ctx } }
  s.each l fun s x => (s.unbind x.id).endCmd x.cmd (if code = 0 then 0x5B else code) source 0

/-- Walks and pending accesses of the context end. -/
def State.tearAccesses (s : State) (ctx : Nat) : State :=
  let burn := (s.fab.reads.filter fun r => r.org.ctx == ctx && r.again).map fun r => r.chip * 65536 + r.tag
  { s with
    host := { s.host with walks := s.host.walks.filter fun w => w.ctx != ctx }
    fab := { s.fab with reads := s.fab.reads.filter fun r => r.org.ctx != ctx, burned := s.fab.burned ++ burn, done := s.fab.done.filter fun d =>
      !(s.fe.cmds.any fun c => c.id == d.cmd && s.qCtx c.queue == ctx) } }

/-- A teardown of a context starts, unless one is under way or the context is free: `code` and `source` are what its
launches complete with (0: no exception). -/
def State.tear (s : State) (ctx cause : Nat) (code source : Nat) : State :=
  if s.ctxState ctx = 0 ∨ s.ctxState ctx = 6 then s
  else
    let was := s.ctxState ctx
    let s := s.detached ctx
    let s := (s.setCtxState ctx 6).set (F.PT_CTX_STAT_CAUSE ctx) cause
    let s := s.each (s.coresOf ctx) fun s c => s.setCore c (s.core c).tear
    let s := s.each (s.fe.cmds.filter fun c => s.qCtx c.queue == ctx) fun s c => s.stopJob c
    let s := s.tearBerths ctx
    let s := (s.tearAccesses ctx).bumpCgen ctx
    let s := (s.breakCtx ctx).tearLaunches ctx code source
    s.setCtx ctx { Ctx.new with was := was, free := cause == 6 || cause == 8, code := code, source := source,
                                lift := (s.ctx ctx).lift, ran := (s.ctx ctx).ran, shorten := (s.ctx ctx).shorten }

/-! ### An exception after its drain, R178 -/

/-- SOURCE of an exception's event and of the launch's record: matrix codes are the engine's, Sluice codes Sluices'. -/
def excSource (code : Nat) : Nat := if 0x20 ≤ code ∧ code ≤ 0x29 then 2 else if 0x38 ≤ code ∧ code ≤ 0x3B then 3 else 1

/-- Steps 4 and 5: the fault record and the event, then the teardown, once for the context. -/
def State.takeExc (s : State) (core : Nat) : State :=
  let k := s.core core
  match k.exc, k.blk with
  | some x, some b =>
    let s := s.faultAs (excSource x.code) 3
      { code := x.code, level := x.level, write := x.write, fetch := x.fetch, agent := 0, unit := core, ctx := b.ctx,
        part := b.part, va := x.va, pa := x.pa }
      ([x.pc, x.group, laneMask x.lanes, x.word % 2 ^ 64, x.word / 2 ^ 64] ++ x.extra)
    let s := s.setCore core { s.core core with exc := none, stopped := true }
    let matrix := excSource x.code == 2
    s.tear b.ctx (if matrix then 2 else 1) x.code (if matrix then 2 else 1)
  | _, _ => s

/-- Every store that the core buffered has drained to its home: the fault is logged and the teardown starts, or, with
HOLD set on the debug target, the core halts (R544). -/
def execExceptionDrainComplete (core : Nat) (s : State) : Out :=
  .next <|
    let k := s.core core
    match k.exc, k.blk with
    | some x, some b =>
      let s := s.flushCore core
      if (s.core core).sb ≠ [] ∨ s.dbg.held = some core then s
      else if s.dbg.target = some b.ctx ∧ s.on F.TD_DBG_CTL_HOLD = true then
        { s with dbg := { s.dbg with held := some core } }.halt b.ctx 3 core x.group 0
      else s.takeExc core
    | _, _ => s

end Sys2Proof.Machine
end

