-- ==== Sys2Proof/Machine/Stream.lean ====
section
/-! DEFINITION. Sluices and Berth waits: the Sluice map, rates, the STREAM class, arrivals and credit returns, the stall
watchdog, and the SL_ registers (R204, R205, R208 to R234, R371). -/

namespace Sys2Proof.Machine

/-! ### Path classes and rates, R221 to R223 -/

/-- Bridge links in service, ascending (R222). -/
def State.bridgeLinks (s : State) : List Nat := (List.range 4).filter fun l => !s.isRetired 6 l

/-- The seam of a compute die is in service (R16). -/
def State.seamOk (s : State) (die : Nat) : Bool := !s.isRetired 7 die

/-- The path class of two logical cores: 0 within a cluster, 1 within a half, 2 across the seam, 3 across dies, 4 across
Quays. -/
def State.pathClass (s : State) (a b : Nat) : Nat :=
  if a / 8 = b / 8 then 0 else if a / 64 = b / 64 then 1
  else if a / 128 = b / 128 then (if s.seamOk (a / 128) then 2 else 3)
  else if a / 512 = b / 512 then 3 else 4

/-- The fixed latency L of a class in N-clocks. -/
def pathL (c : Nat) : Nat := [4, 10, 18, 44, 60].getD c 60

/-- The bridge link of a Sluice: j mod B, counted among the links in service; none without one. -/
def State.bridgeOf (s : State) (x : Sluice) : Option Nat :=
  match s.bridgeLinks with
  | [] => none
  | l => l[x.dst / 8 % l.length]?

def countBy (l : List Sluice) (f : Sluice → Bool) : Nat := (l.filter f).length

/-- The links that bound a Sluice's rate among all bound Sluices: each share (in 64ths of a byte per N-clock) with the
number of Sluices on the link. -/
def State.pathLinks (s : State) (all : List Sluice) (x : Sluice) : List (Nat × Nat) :=
  let part := fun (y : Sluice) => y.part == x.part && y.cls == x.cls
  let net := fun (y : Sluice) => y.cls == 1 || y.cls == 2
  let far := fun (y : Sluice) => y.cls == 3 || y.cls == 4
  let port := [(32 * 64, 1)]
  let near := port ++ [(128 * 64, countBy all fun y => net y && y.src / 8 == x.src / 8),
                       (128 * 64, countBy all fun y => net y && y.dst / 8 == x.dst / 8)]
  let dies := port ++ [(96 * 64, countBy all fun y => far y && y.src / 8 == x.src / 8),
                       (96 * 64, countBy all fun y => far y && y.dst / 8 == x.dst / 8)]
  if x.cls = 0 then port
  else if x.cls = 1 then near
  else if x.cls = 2 then
    near ++ [(448 * s.get (F.SL_SHARE_SEAM x.part), countBy all fun y => part y && y.src / 64 == x.src / 64)]
  else if x.cls = 3 then dies
  else
    dies ++ [(if s.bridgeOf x = none then 0 else 256 * s.get (F.SL_SHARE_BRIDGE x.part),
              countBy all fun y => part y && y.src / 512 == x.src / 512 && s.bridgeOf y == s.bridgeOf x)]

/-- A Sluice uses the link of a window: the unit as `windowUnit` gives it. -/
def State.usesUnit (s : State) (x : Sluice) (kind inst : Nat) : Bool :=
  if kind = 7 then x.cls == 2 && x.src / 128 == inst
  else if kind = 1 then
    (x.cls == 3 || x.cls == 4) && (s.clPhys (x.src / 8) == inst + 1 || s.clPhys (x.dst / 8) == inst + 1)
  else if kind = 6 then x.cls == 4 && s.bridgeOf x == some inst
  else false

/-- The serialisation time S of an m-unit message, or `none` when a share is 0. -/
def State.serialTime (s : State) (all : List Sluice) (x : Sluice) (m : Nat) : Option Nat :=
  (s.pathLinks all x).foldl (fun a l =>
    match a with
    | none => none
    | some t => if l.1 = 0 then none else some (max t ((32 * m * 64 * l.2 + l.1 - 1) / l.1))) (some 0)

/-- The guaranteed rate r in 2^−40 bytes per N-clock. -/
def State.rateOf (s : State) (all : List Sluice) (x : Sluice) : Nat :=
  (s.pathLinks all x).foldl (fun a l => min a (l.1 * 2 ^ 34 / max 1 l.2)) (32 * 2 ^ 40)

/-- The drain bound of a Sluice is at most 65,536 N-clocks (R212, R231). -/
def State.drainOk (s : State) (all : List Sluice) (x : Sluice) : Bool :=
  match s.serialTime all x x.maxlen with
  | some t => decide (pathL x.cls + t ≤ 65536)
  | none => false

/-! ### The Sluice map, R210 to R213 -/

/-- A map entry. -/
structure MapEnt where
  src : Nat
  dst : Nat
  sport : Nat
  dport : Nat
  maxlen : Nat
  fbase : Nat
  fsize : Nat
  resv : Bool
  deriving DecidableEq, Repr

def mapEnt (l : List Byte) : MapEnt :=
  let w := ofBytes l
  { src := bits w 31 0, dst := bits w 63 32, sport := bits w 65 64, dport := bits w 67 66, maxlen := bits w 95 80
    fbase := bits w 115 96, fsize := bits w 140 128
    resv := bits w 79 68 != 0 || bits w 127 116 != 0 || bits w 143 141 != 0 || bits w 255 144 != 0 }

/-- COUNT of a map's header. -/
def mapCount (l : List Byte) : Nat := bytesAt l 0 2
def mapSlot (l : List Byte) : Nat := bits (bytesAt l 2 2) 5 0
def mapStall (l : List Byte) : Nat := if bytesAt l 4 4 = 0 then 2 ^ 32 - 1 else bytesAt l 4 4
def mapEnts (l : List Byte) : List MapEnt :=
  (List.range (mapCount l)).map fun i => mapEnt ((l.drop (32 + 32 * i)).take 32)
def mapHeaderOk (l : List Byte) : Bool :=
  bits (bytesAt l 2 2) 15 6 == 0 && bytesAt l 8 24 == 0 && decide (1 ≤ mapCount l ∧ mapCount l ≤ 4096)

/-- A test on every pair of a list. -/
def pairwiseOk (f : MapEnt → MapEnt → Bool) : List MapEnt → Bool
  | [] => true
  | a :: l => l.all (f a) && pairwiseOk f l

/-- The Sluices that a map binds for a launch whose core block b runs on the b-th core of `cores`. -/
def State.mapSluices (s : State) (launch ctx part : Nat) (cores : List Nat) (l : List Byte) : List Sluice :=
  (mapEnts l).map fun e =>
    let a := cores.getD e.src 0
    let b := cores.getD e.dst 0
    { slot := mapSlot l, part := part, ctx := ctx, launch := launch, src := a, sport := e.sport, dst := b, dport := e.dport
      maxlen := e.maxlen, fbase := e.fbase, fsize := e.fsize, stall := mapStall l, cls := s.pathClass a b
      units := e.fsize, msgs := 32, wptr := 0, rptr := 0, fly := [], lens := [], back := [] }

/-- The checks of R212 on a map read whole; P is the scratchpad size of the launch. -/
def State.mapOk (s : State) (ctx part : Nat) (resident : Bool) (grid P : Nat) (cores : List Nat) (l : List Byte) : Bool :=
  let es := mapEnts l
  let new := s.mapSluices 0 ctx part cores l
  let all := s.sluices ++ new
  mapHeaderOk l && resident && !s.on (F.SL_PIPE_STAT_BOUND (mapSlot l)) &&
  es.all (fun e => !e.resv && decide (e.src < grid ∧ e.dst < grid ∧ 1 ≤ e.maxlen ∧ e.maxlen ≤ 2048 ∧ 8 ≤ e.fsize ∧
    e.fsize ≤ 4096 ∧ e.maxlen ≤ e.fsize ∧ e.fbase % 32 = 0 ∧ e.fbase + 32 * e.fsize ≤ P)) &&
  pairwiseOk (fun a b => !(a.src == b.src && a.sport == b.sport) && !(a.dst == b.dst && a.dport == b.dport) &&
    !(a.dst == b.dst && decide (a.fbase < b.fbase + 32 * b.fsize ∧ b.fbase < a.fbase + 32 * a.fsize))) es &&
  (all.filter fun x => x.part == part).all (s.drainOk all)

/-- The map's Sluices are bound and the slot's records start from zero (R213, R227). -/
def State.bindMap (s : State) (launch ctx part : Nat) (cores : List Nat) (l : List Byte) : State :=
  let n := mapSlot l
  let s := { s with sluices := s.sluices ++ s.mapSluices launch ctx part cores l }
  let s := s.setRaw (A.SL_PIPE_EXCESS n) 0
  s.setRaw (A.SL_PIPE_STAT n) (BitVec.ofNat 64 (1 + part * 256))

/-! ### Sends and receives, R204, R214 to R218, R229 -/

/-- The Sluice of an outbound (or inbound) port of a core of a launch. -/
def State.sluiceAt (s : State) (launch core port : Nat) (send : Bool) : Option Sluice :=
  s.sluices.find? fun x => x.launch == launch &&
    (if send then x.src == core && x.sport == port else x.dst == core && x.dport == port)

def sameSluice (x y : Sluice) : Bool := x.launch == y.launch && x.dst == y.dst && x.dport == y.dport
def State.setSluice (s : State) (x : Sluice) : State :=
  { s with sluices := updFirst (sameSluice x) (fun _ => x) s.sluices }

def Core.endStall (k : Core) (o : Op) : Core :=
  { k with stalls := k.stalls.filter fun x => !(x.group == o.group && x.pc == o.pc) }

/-- A STREAM instruction ends: the predicate of a non-blocking form says whether it moved something. -/
def State.streamDone (s : State) (o : Op) (k : Core) (ok : Bool) : State :=
  let k := k.endStall o
  s.done o (if wNB o.w then o.ex.foldl (fun k t => k.setPred t (wC o.w) ok) k else k)

/-- A STREAM instruction cannot proceed: a non-blocking form ends, a blocking one waits and its watchdog runs (R230). -/
def State.streamWait (s : State) (o : Op) (send : Bool) : State :=
  let k := s.core o.core
  if wNB o.w then s.streamDone o k false
  else
    s.setCore o.core { k.endStall o with stalls := (k.endStall o).stalls ++ [⟨o.group, o.pc, send, wPort o.w, o.w⟩] }

/-- A send of m units: its checks, its credits, its message. -/
def State.send (s : State) (o : Op) (x : Sluice) (m : Nat) (msg : List Byte) : State :=
  if x.units < m ∨ x.msgs = 0 then s.streamWait o true
  else
    (s.setSluice { x with units := x.units - m, msgs := x.msgs - 1, fly := x.fly ++ [msg] }).streamDone o (s.core o.core) true

/-- m units of a FIFO from its read pointer. DESIGN CHOICE: a byte that was written into the FIFO after the message came is
received as written, one of the values that R219 allows. -/
def Core.fifoGet (k : Core) (x : Sluice) (m : Nat) : List Byte :=
  (List.range (32 * m)).map fun i => tabGet 0 k.well (x.fbase + (32 * x.rptr + i) % (32 * x.fsize))

/-- The message at the head has been consumed: its credits start back. -/
def Sluice.consumed (x : Sluice) (m : Nat) : Sluice :=
  { x with rptr := (x.rptr + m) % x.fsize, lens := x.lens.tail, back := x.back ++ [m] }

/-- A receive of m units: the head of the FIFO must have arrived whole, unpoisoned and of that length. -/
def State.recv (s : State) (o : Op) (x : Sluice) (m : Nat) (use : List Byte → Core → Core) : State :=
  match x.lens with
  | [] => s.streamWait o false
  | (n, bad) :: _ =>
    if bad then s.raiseOp o 0x36 else if n ≠ m then s.raiseOp o 0x3A
    else
      let k := s.core o.core
      (s.setSluice (x.consumed m)).streamDone o (use (k.fifoGet x m) k) true

/-- SSEND: slot l holds lane l's registers, or zeros. -/
def State.ssend (o : Op) (s : State) : State :=
  let k := s.core o.core
  let n := 2 ^ wWidth o.w
  match s.sluiceAt o.blk.launch o.core (wPort o.w) true with
  | none => s.raiseOp o 0x38
  | some x =>
    let msg := (List.range 32).flatMap fun l =>
      toBytes (4 * n) (if o.ex.contains (o.group * 32 + l) then k.regs (o.group * 32 + l) (wA o.w) n else 0)
    if x.maxlen < 4 * n then s.raiseOp o 0x39 else s.send o x (4 * n) msg

def execSsend (at' : Issue) (w : BitVec 128) (s : State) : Out := .next <| s.instr 10 0x01 at' w State.ssend

/-- SRECV: each executing lane takes its slot. -/
def State.srecv (o : Op) (s : State) : State :=
  let n := 2 ^ wWidth o.w
  match s.sluiceAt o.blk.launch o.core (wPort o.w) false with
  | none => s.raiseOp o 0x38
  | some x =>
    s.recv o x (4 * n) fun l k =>
      o.ex.foldl (fun k t => k.setRegs t (wD o.w) (bytesAt l (t % 32 * (4 * n)) (4 * n)) n) k

def execSrecv (at' : Issue) (w : BitVec 128) (s : State) : Out := .next <| s.instr 10 0x02 at' w State.srecv

/-- The scratchpad offset of SSENDM and SRECVM, and LEN, bits 15:0 of register B (R204). -/
def streamOff (o : Op) (k : Core) : Nat := (k.ureg o.group (wA o.w)).toNat
def streamLen (o : Op) (k : Core) : Nat := (k.ureg o.group (wB o.w)).toNat % 2 ^ 16

/-- LEN 0, or any of the bits above it set: 0x3E (R204). -/
def streamBad (o : Op) (k : Core) : Bool := streamLen o k == 0 || decide (2 ^ 16 ≤ (k.ureg o.group (wB o.w)).toNat)

/-- The lowest exception code of a scratchpad form (R177, R204, R229). A receive compares its LEN with the message that stands at
the head of the FIFO when it takes it; one that raises 0x3E otherwise meets what that message gives first. -/
def streamFault (o : Op) (k : Core) (x : Option Sluice) (send : Bool) : Option Nat :=
  let len := streamLen o k
  let head := if send || !streamBad o k then none else x.bind fun x => x.lens.head?
  lowest' [
    (streamOff o k % 32 != 0, 0x31), (len != 0 && decide (k.P < streamOff o k + 32 * len), 0x32),
    (head.any fun h => h.2, 0x36), (x.isNone, 0x38),
    (send && (x.any fun x => decide (x.maxlen < len)), 0x39), (head.any fun h => h.1 != len, 0x3A), (streamBad o k, 0x3E)]
where
  /-- The first code whose condition holds. -/
  lowest' : List (Bool × Nat) → Option Nat
    | [] => none
    | (c, n) :: l => if c then some n else lowest' l

/-- SSENDM: a message from the scratchpad. -/
def State.ssendm (o : Op) (s : State) : State :=
  let k := s.core o.core
  let x := s.sluiceAt o.blk.launch o.core (wPort o.w) true
  match streamFault o k x true, x with
  | some c, _ => s.raiseOp o c { va := streamOff o k }
  | none, none => s
  | none, some x =>
    let a := streamOff o k
    let m := streamLen o k
    s.send o x m (k.wellGet a (32 * m))

def execSsendm (at' : Issue) (w : BitVec 128) (s : State) : Out := .next <| s.instr 10 0x03 at' w State.ssendm

/-- SRECVM: a message into the scratchpad. -/
def State.srecvm (o : Op) (s : State) : State :=
  let k := s.core o.core
  let x := s.sluiceAt o.blk.launch o.core (wPort o.w) false
  match streamFault o k x false, x with
  | some c, _ => s.raiseOp o c { va := streamOff o k, write := true }
  | none, none => s
  | none, some x => s.recv o x (streamLen o k) fun l k => k.wellPut (streamOff o k) l

def execSrecvm (at' : Issue) (w : BitVec 128) (s : State) : Out := .next <| s.instr 10 0x04 at' w State.srecvm

/-! ### Arrivals, credits and the watchdog, R214, R227, R230 -/

/-- A bound Sluice by its slot and inbound port. -/
def State.sluiceIn (s : State) (slot dst dport : Nat) : Option Sluice :=
  s.sluices.find? fun x => x.slot == slot && x.dst == dst && x.dport == dport

/-- The bytes of a message written into the ring of its FIFO. -/
def Core.fifoPut (k : Core) (x : Sluice) (i : Nat) : List Byte → Core
  | [] => k
  | b :: l => (k.wellPut (x.fbase + (32 * x.wptr + i) % (32 * x.fsize)) [b]).fifoPut x (i + 1) l

/-- The oldest message in flight stands whole in its FIFO; `bad` tells that a unit of it holds poison (R18). -/
def State.msgArrive (s : State) (x : Sluice) (bad : Bool) : State :=
  match x.fly with
  | [] => s
  | msg :: r =>
    let m := msg.length / 32
    let s := s.setCore x.dst ((s.core x.dst).fifoPut x 0 msg)
    s.setSluice { x with fly := r, wptr := (x.wptr + m) % x.fsize, lens := x.lens ++ [(m, bad)] }

/-- The destination of a Sluice runs its launch's core block, so that a message can stand in the FIFO. -/
def State.canLand (s : State) (x : Sluice) : Bool := (s.core x.dst).blk.any fun b => b.launch == x.launch

/-- A message arrives; `late` N-clocks beyond L + S outside service events are recorded (R227); `bad` names a wire of its
path, one of whose codewords could not be corrected (R18). -/
def execSluiceMessageArrival (slot dst dport late : Nat) (bad : Option Nat) (s : State) : Out :=
  .next <|
    match s.sluiceIn slot dst dport with
    | none => s
    | some x =>
      if x.fly = [] ∨ s.canLand x = false then s
      else
        let bad := bad.filter fun w => wireReal w && s.usesUnit x (windowUnit (wireWindow w)).1 (windowUnit (wireWindow w)).2
        let s := s.msgArrive x bad.isSome
        let s := match bad with | some w => s.badCodeword w | none => s
        let s := s.sample 1 slot late
        if late = 0 then s
        else
          let s := s.set (F.SL_PIPE_EXCESS_MAXEXC slot) (max (s.get (F.SL_PIPE_EXCESS_MAXEXC slot)) (min late (2 ^ 32 - 1)))
          s.count (F.SL_PIPE_EXCESS_LATE slot) 1

/-- The credits of the oldest consumed message reach the sender. -/
def State.credit (s : State) (x : Sluice) : State :=
  match x.back with
  | [] => s
  | m :: r => s.setSluice { x with back := r, units := x.units + m, msgs := x.msgs + 1 }

def execSluiceCreditReturn (slot dst dport : Nat) (s : State) : Out :=
  .next <|
    match s.sluiceIn slot dst dport with
    | none => s
    | some x => s.credit x

/-- A blocking send or receive has waited for the stall bound: `group`, the lowest-numbered group of the core that reaches it
in this A-clock, raises 0x3B. -/
def execSluiceStallTimeout (core group : Nat) (s : State) : Out :=
  .next <|
    let k := s.core core
    match k.stalls.find? fun x => x.group == group with
    | some x =>
      if k.canIssue then
        let lanes := k.fragment x.group x.pc
        (s.setCore core { k with stalls := k.stalls.filter (· != x) }).raise core x.group x.pc x.word lanes 0x3B
      else s
    | none => s

/-! ### BWAIT, R205, R371 -/

/-- The Berth is in use by the context. -/
def State.berthOf (s : State) (b ctx : Nat) : Bool :=
  decide (b < 4096) && s.on (F.FE_BERTH_OWN_EN b) && s.get (F.FE_BERTH_OWN_CTX b) == ctx
def State.berthDepth (s : State) (b : Nat) : Nat := 2 ^ s.get (F.FE_BERTH_CFG_DEPTH b)
/-- The address of the n-th item of a Berth's store. -/
def State.berthItem (s : State) (b n : Nat) : Nat := s.get (F.FE_BERTH_CFG_BASE b) * 4096 + 64 * (n % s.berthDepth b)

def State.setWaiters (s : State) (l : List BWaiter) : State := { s with fe := { s.fe with waiters := l } }

/-- The oldest item of a Berth is delivered to the group, with an acquire at device scope. -/
def State.berthTake (s : State) (o : Op) (b : Nat) : State :=
  let n := tabGet 0 s.fe.taken b
  let l := s.peek (s.berthItem b n) 64
  let s := s.set (F.FE_BERTH_OWN_COUNT b) (s.get (F.FE_BERTH_OWN_COUNT b) - 1)
  let s := { s with fe := { s.fe with taken := tabSet 0 s.fe.taken b ((n + 1) % s.berthDepth b) } }
  let s := s.setWaiters (s.fe.waiters.filter fun w => !(w.core == o.core && w.group == o.group && w.pc == o.pc))
  let k := (List.range 8).foldl (fun (k : Core) i => k.setUreg o.group (wD o.w + i) (bytesAt l (8 * i) 8)) (s.core o.core)
  (s.streamDone o k true).acquire o.core 2

/-- BWAIT: groups that wait on one Berth are served in the order in which their waits began. -/
def State.bwait (o : Op) (s : State) : State :=
  let k := s.core o.core
  let b := (k.ureg o.group (wA o.w)).toNat % 65536
  let mine := fun (w : BWaiter) => w.core == o.core && w.group == o.group && w.pc == o.pc
  let ahead := (s.fe.waiters.filter fun w => w.berth == b).takeWhile fun w => !mine w
  if s.berthOf b o.blk.ctx = false then s.raiseOp o 0x3D
  else if 0 < s.get (F.FE_BERTH_OWN_COUNT b) ∧ ahead = [] then s.berthTake o b
  else if wNB o.w then s.streamDone o k false
  else if s.fe.waiters.any mine then s
  else s.setWaiters (s.fe.waiters ++ [⟨b, o.core, o.group, o.pc⟩])

def execBwait (at' : Issue) (w : BitVec 128) (s : State) : Out := .next <| s.instr 10 0x05 at' w State.bwait

/-! ### Service events and lost links, R24, R234 -/

/-- A substitution in a window is a service event on its link. -/
def State.serviceEvent (s : State) (win : Nat) : State :=
  let u := windowUnit win
  s.svcPipes fun x => s.usesUnit x u.1 u.2

/-- A bridge link has left service: each across-Quays Sluice is reassigned and counted once in SVC, and DEGRADED is set
where its r falls below what it was (`old`). -/
def State.bridgeLost (s old : State) : State :=
  s.each (s.sluices.filter fun x => x.cls == 4) fun s x =>
    let s := s.count (F.SL_PIPE_STAT_SVC x.slot) 1
    if s.rateOf s.sluices x < old.rateOf old.sluices x then s.set (F.SL_PIPE_STAT_DEGRADED x.slot) 1 else s

/-- A seam has been disabled: its Sluices go on through the hybrid bonds as those across dies do, degraded; a Sluice whose r
falls with theirs is degraded too (R16, R227, R234). -/
def State.seamLost (s : State) (die : Nat) : State :=
  let hit := fun (x : Sluice) => x.cls == 2 && x.src / 128 == die
  let t : State := { s with sluices := s.sluices.map fun x => if hit x then { x with cls := 3 } else x }
  t.each (s.sluices.filter fun x => hit x || decide (t.rateOf t.sluices x < s.rateOf s.sluices x)) fun t x =>
    t.set (F.SL_PIPE_STAT_DEGRADED x.slot) 1

/-! ### The SL_ registers, R225, R227 -/

/-- A write of SL_PIPE_CLR. -/
def State.pipeClear (s : State) (slot v : Nat) : State :=
  if bit v 0 then (s.set (F.SL_PIPE_STAT_SVC slot) 0).setRaw (A.SL_PIPE_EXCESS slot) 0 else s

def execPipeRecordClear (slot : Nat) (v : BitVec 64) (s : State) : Out :=
  .next <| if slot < 64 ∧ s.barOk = true then s.pipeClear slot v.toNat else s

/-- A write of SL_SHARE: taken, or ignored with the reason in SL_ERR. -/
def State.slShareWrite (s : State) (p v : Nat) : State × Bool :=
  let seam := bits v 6 0
  let bridge := bits v 14 8
  let others := (List.range 16).filter (· ≠ p)
  let sum := fun (f : Nat → Fld) => (others.map fun q => s.get (f q)).foldl (· + ·) 0
  let tooBig := decide (64 < seam ∨ 64 < bridge ∨ 64 < seam + sum F.SL_SHARE_SEAM ∨ 64 < bridge + sum F.SL_SHARE_BRIDGE)
  let busy := (List.range 64).any fun n => s.on (F.SL_PIPE_STAT_BOUND n) && s.get (F.SL_PIPE_STAT_PART n) == p
  let s := if tooBig then s.set F.SL_ERR_SUM 1 else s
  let s := if busy then s.set F.SL_ERR_BUSY 1 else s
  if tooBig || busy then (s, false)
  else ((s.set (F.SL_SHARE_SEAM p) seam).set (F.SL_SHARE_BRIDGE p) bridge, true)

def execSlShareWrite (p : Nat) (v : BitVec 64) (s : State) : Out :=
  .next <| if p < 16 ∧ s.barOk = true then (s.slShareWrite p v.toNat).1 else s

end Sys2Proof.Machine
end

