-- ==== Sys2Proof/Machine/Agent.lean ====
section
/-! DEFINITION. Accesses by Pumps, Lighters and the front end through a context's page tables (R55 to R65, R235, R343), in
pieces that do not cross an aligned 128-byte line (R341). -/

namespace Sys2Proof.Machine

/-- What stops an access: code, level, virtual and physical address. -/
structure Stop where
  code : Nat
  level : Nat := 7
  write : Bool := false
  va : Nat := 0
  pa : Nat := 0
  deriving DecidableEq, Repr

/-- Where an access lands. -/
inductive Where where
  | fault (x : Stop)
  | mem (pa : Nat)
  | host (pa : Nat)
  | fabric (pa : Nat)
  /-- The image of PF0's BAR0, then that of its BAR2. -/
  | setup (pa : Nat)
  deriving DecidableEq, Repr

/-- A virtual address translated for one piece, with the host-window check. -/
def State.locate (s : State) (ctx part va : Nat) (write : Bool) : Where :=
  match s.walk ctx va (if write then .write else .read) with
  | .fault c l pa => .fault { code := c, level := l, write := write, va := va, pa := pa }
  | .miss => .fault { code := 0x01, write := write, va := va }
  | .ok _ pa =>
    match region pa with
    | .localMem => .mem pa
    | .hostWin =>
      match s.hwinCheck part write pa with
      | 0 => .host pa
      | c => .fault { code := c, write := write, va := va, pa := pa }
    | .fabric => .fabric pa
    | _ => .setup pa

/-- The pieces of k bytes from address a that do not cross an aligned 128-byte line: address and length. -/
def pieces (a k : Nat) : List (Nat × Nat) :=
  (List.range ((a % 128 + k + 127) / 128)).map fun i =>
    let lo := if i = 0 then a else a / 128 * 128 + 128 * i
    (lo, min (a + k) (a / 128 * 128 + 128 * (i + 1)) - lo)

/-- k free bytes: what a read returns where the environment holds the data and the spec gives no way to it. -/
def State.freeBytes (s : State) : Nat → State × List Byte
  | 0 => (s, [])
  | k + 1 =>
    let (v, s) := s.draw
    let z := s.freeBytes k
    (z.1, v.setWidth 8 :: z.2)

/-! ### Reads -/

/-- The outcome of a read by the front end, a Pump or a Lighter. -/
inductive FeR where
  | ok (l : List Byte)
  | fault (x : Stop)
  | poison
  deriving DecidableEq, Repr

/-- A piece read from local setup space: 4 or 8 naturally aligned bytes of BAR0 as PF0 reads them, zero in the image of
BAR2 (R38, R49); the data of a read that PF0's BAR0 refuses is free. -/
def State.setupRead (s : State) (pa k : Nat) : State × List Byte :=
  if region pa = .setup2 then (s, List.replicate k 0)
  else if (k = 4 ∨ k = 8) ∧ pa % k = 0 then
    let r := s.bar0Read 0 (pa - 0x020000000000) k
    (r.1, toBytes k r.2)
  else s.freeBytes k

/-- One piece read at its home by reader `who`, counted in class `cls` (R296), or in setup space; what the host and other
chips hold is free. -/
def State.getPiece (s : State) (who cls : Nat) (narrow : Bool) (ctx part va k : Nat) : State × FeR :=
  match s.locate ctx part va false with
  | .fault x => (s, .fault x)
  | .mem pa =>
    let (s, l, bad) := s.readAs who cls narrow pa k
    (s, if bad then .poison else .ok l)
  | .setup pa =>
    let (s, l) := s.setupRead pa k
    (s, .ok l)
  | _ =>
    let (s, l) := s.freeBytes k
    (s, .ok l)

/-- Pieces read in order; the first that fails decides. -/
def State.getPieces (s : State) (who cls : Nat) (narrow : Bool) (ctx part : Nat) : List (Nat × Nat) → State × FeR
  | [] => (s, .ok [])
  | (a, k) :: r =>
    match s.getPiece who cls narrow ctx part a k with
    | (s, .ok l) =>
      match s.getPieces who cls narrow ctx part r with
      | (s, .ok m) => (s, .ok (l ++ m))
      | z => z
    | z => z

/-- k bytes that a command names, read by the front end through the context's page tables. -/
def State.feRead (s : State) (id ctx part va k : Nat) : State × FeR := s.getPieces (cmdReader id) 0 false ctx part (pieces va k)

/-! ### Lighter commands: operands and boundaries, R340, R347 -/

def Cmd.len (c : Cmd) : Nat := if c.op = 0x05 then bits (c.word 32) 39 0 else c.word 32
def Cmd.tosp (c : Cmd) : Bool := (c.op == 0x05 || c.op == 0x06) && bit (c.word 40) 16
def Cmd.dst (c : Cmd) : Nat := if c.tosp then bits (c.word 24) 19 0 else c.word 24

/-- The boundary at or before a position, where the destination reaches an aligned 4 KiB. -/
def Cmd.chunk (c : Cmd) (pos : Nat) : Nat := pos - min pos ((c.dst + pos) % 4096)

/-- The next boundary. -/
def Cmd.boundary (c : Cmd) (pos : Nat) : Nat := min c.len (pos + (4096 - (c.dst + pos) % 4096))

/-- A COPY, FILL or FABRIC_PUT stands between two boundaries. -/
def Cmd.midChunk (c : Cmd) (pos : Nat) : Bool :=
  (c.op == 0x05 || c.op == 0x06 || c.op == 0x14) && c.chunk pos != pos && decide (pos < c.len)

/-! ### Writes -/

/-- The Quay of a Pump (agent 1) or Lighter (agent 2); the front end's requests leave by QB0's modules. -/
def agentQuay (agent unit : Nat) : Nat := if agent = 1 then unit / 96 else if agent = 2 then unit / 16 else 0

end Sys2Proof.Machine
end

