-- ==== Sys2Proof/Machine/MatrixDesc.lean ====
section
/-! DEFINITION. Operation records and descriptors of the matrix engine and the checks at issue (R110 to R123, R133,
R143). -/

namespace Sys2Proof.Machine

/-! ### The operation record, R110 -/

structure RecF where
  op : Nat
  clear : Bool
  sparse : Bool
  rm : Nat
  sat : Bool
  add : Bool
  a : Nat
  b : Nat
  c : Nat
  m : Nat
  d : Nat
  /-- A reserved bit is set. -/
  resv : Bool
  deriving DecidableEq, Repr

def recF (l : List Byte) : RecF :=
  let w := ofBytes l
  { op := bits w 7 0, clear := bit w 8, sparse := bit w 9, rm := bits w 11 10, sat := bit w 12, add := bit w 13
    a := bits w 30 16, b := bits w 46 32, c := bits w 62 48, m := bits w 78 64, d := bits w 94 80
    resv := bits w 15 14 != 0 || bit w 31 || bit w 47 || bit w 63 || bit w 79 || bit w 95 || bits w 255 96 != 0 }

/-- Fields of the record that its operation does not use are 0; `fp` is true of a READ of an FP32 tile, or of a tile
whose mode is not known. -/
def RecF.unusedOk (r : RecF) (fp : Bool) : Bool :=
  (r.op == 1 || (!r.clear && !r.sparse && r.b == 0)) &&
  ((r.op == 2 && fp) || (r.rm == 0 && !r.sat)) &&
  (r.op == 4 || !r.add) &&
  (r.op == 1 || r.op == 4 || r.a == 0) &&
  ((r.op == 1 && r.sparse) || r.m == 0) &&
  (r.op == 2 || r.op == 3 || r.d == 0)

/-! ### Descriptors, R112 to R121 -/

/-- A value tile, metadata or raw tile; fields that a kind does not have are 0. -/
structure TileF where
  kind : Nat
  type : Nat
  kdim : Bool
  scheme : Nat
  swz : Nat
  base : Nat
  rows : Nat
  cols : Nat
  stride : Nat
  sbase : Nat
  sstride : Nat
  cbase : Nat
  tscale : Nat
  /-- A reserved bit is set. -/
  resv : Bool
  deriving DecidableEq, Repr

def tileF (l : List Byte) : TileF :=
  let w := ofBytes l
  let k := bits w 3 0
  let w0 := bits w 63 0
  let w1 := bits w 127 64
  let w2 := bits w 191 128
  if k = 1 then
    { kind := k, type := bits w0 8 4, kdim := bit w0 9, scheme := bits w0 11 10, swz := bits w0 14 12, base := bits w0 35 16
      rows := bits w0 48 36, cols := bits w0 61 49, stride := bits w1 19 0, sbase := bits w1 39 20, sstride := bits w1 51 40
      cbase := bits w2 19 0, tscale := bits w2 63 32
      resv := bit w0 15 || bits w0 63 62 != 0 || bits w1 63 52 != 0 || bits w2 31 20 != 0 || bits w 255 192 != 0 }
  else
    { kind := k, type := 0, kdim := false, scheme := 0, swz := 0, base := bits w0 35 16, rows := bits w0 48 36
      cols := bits w0 61 49, stride := bits w1 19 0, sbase := if k = 4 then bits w1 39 20 else 0, sstride := 0, cbase := 0
      tscale := 0
      resv := bits w0 15 4 != 0 || bits w0 63 62 != 0 || (if k = 4 then bits w1 63 40 != 0 else bits w1 63 20 != 0) ||
        bits w 255 128 != 0 }

/-- An accumulator descriptor, R119. -/
structure AccF where
  kind : Nat
  mode : Nat
  abase : Nat
  m : Nat
  n : Nat
  slot : Nat
  eref : Int
  resv : Bool
  deriving DecidableEq, Repr

def accF (l : List Byte) : AccF :=
  let w := ofBytes l
  { kind := bits w 3 0, mode := bits w 5 4, abase := bits w 15 8, m := bits w 24 16, n := bits w 33 25, slot := bits w 40 36
    eref := toSigned 16 (bits w 63 48)
    resv := bits w 7 6 != 0 || bits w 35 34 != 0 || bits w 47 41 != 0 || bits w 255 64 != 0 }

/-- Bytes of an accumulator element. -/
def AccF.el (c : AccF) : Nat := if c.mode = 1 then 32 else 4

/-! ### Layout, R114 to R118, R120, R121 -/

/-- Span of a swizzle; 1 without one. -/
def TileF.span (t : TileF) : Nat := if 1 ≤ t.swz ∧ t.swz ≤ 3 then 64 * 2 ^ t.swz else 1

/-- Bytes of a stored row. -/
def TileF.rowBytes (t : TileF) : Nat :=
  if t.kind = 3 then (t.cols + 1) / 2
  else if t.kind = 4 then 32 * t.cols
  else
    let n := packedBytes t.type t.cols
    (n + t.span - 1) / t.span * t.span

/-- Where byte b of stored row r sits. -/
def TileF.at (t : TileF) (r b : Nat) : Nat :=
  if t.span = 1 then t.base + r * t.stride + b
  else
    let n := t.span / 16
    let j := b / 16 % n
    let q := b / 16 - j + (j ^^^ (r % n))
    t.base + r * t.stride + 16 * q + b % 16

/-- Block size of a scheme. -/
def blockLen (scheme : Nat) : Nat := if scheme = 1 then 32 else 16

/-! ### The checks of one descriptor -/

/-- The codes of the conditions that hold, of a list of conditions. -/
def codesOf (l : List (Bool × Nat)) : List Nat := (l.filter (·.1)).map (·.2)

/-- Scratchpad bytes of the tile end at or below P. -/
def TileF.fits (t : TileF) (P : Nat) : Bool := t.rows == 0 || decide (t.base + (t.rows - 1) * t.stride + t.rowBytes ≤ P)

/-- Fields of a value tile; `scales` says whether the role may have them. -/
def TileF.valueCodes (t : TileF) (P : Nat) (scales : Bool) : List Nat :=
  codesOf [
    (t.resv || decide (14 < t.type) || t.scheme == 3 || decide (3 < t.swz), 0x21),
    (!scales && t.scheme != 0, 0x21),
    (t.scheme == 0 && (t.sbase != 0 || t.sstride != 0), 0x21),
    (t.scheme != 2 && t.tscale != 0, 0x21),
    (!isCodebook t.type && t.cbase != 0, 0x21),
    (decide (elWidth t.type < 8) && t.kdim, 0x22),
    (decide (1 ≤ t.scheme ∧ t.scheme ≤ 2) && !isScaled t.type, 0x22),
    (t.rows == 0 || decide (4096 < t.rows) || t.cols == 0 || decide (4096 < t.cols), 0x23),
    (t.base % 16 != 0 || t.stride % 16 != 0 || t.sbase % 16 != 0 || t.sstride % 16 != 0, 0x24),
    (t.base % t.span != 0 || t.stride % t.span != 0, 0x24),
    ((t.type == 11 && t.cbase % 16 != 0) || (t.type == 12 && t.cbase % 64 != 0), 0x24),
    ((t.type == 11 && decide (P < t.cbase + 16)) || (t.type == 12 && decide (P < t.cbase + 64)), 0x25),
    (!t.fits P, 0x25)]

/-- The accumulator descriptor. -/
def AccF.codes (c : AccF) : List Nat :=
  codesOf [
    (c.kind != 2, 0x20),
    (c.resv || decide (1 < c.mode) || (c.mode == 0 && c.eref != 0), 0x21),
    (decide (c.m < 16 ∨ 256 < c.m) || c.m % 16 != 0 || decide (c.n < 16 ∨ 256 < c.n) || c.n % 16 != 0, 0x23),
    (decide (262144 < c.abase * 1024 + c.m * c.n * c.el), 0x25),
    (c.mode == 1 && decide (c.eref < -512 ∨ 511 < c.eref), 0x26)]

/-- The extents of a tile are what its role asks; a side that is not known asks nothing. -/
def extents (t : TileF) (r c : Option Nat) : Bool :=
  let (r, c) := if t.kdim then (c, r) else (r, c)
  (match r with | some x => t.rows == x | none => true) && (match c with | some x => t.cols == x | none => true)

/-- The scale array lies below P, when its extents are known. -/
def scalesFit (t : TileF) (P : Nat) (i k : Option Nat) : Bool :=
  match t.scheme, i, k with
  | 0, _, _ => true
  | 3, _, _ => true
  | sc, some i, some k => decide (t.sbase + (i - 1) * t.sstride + k / blockLen sc ≤ P)
  | _, _, _ => true

/-! ### The checks of an operation -/

/-- A descriptor of an operation: its bytes when it lies below P. -/
def descAt (k : Core) (d : Nat) : Option (List Byte) := if d * 32 + 32 ≤ k.P then some (k.wellGet (d * 32) 32) else none

/-- The reduction length as A gives it. -/
def kOf (t : TileF) : Nat := if t.kdim then t.rows else t.cols

/-- The conditions of an MMA. -/
def mmaCodes (P : Nat) (r : RecF) (a b : Option TileF) (c : Option AccF) (m : Option TileF) : List Nat :=
  let mm := c.map (·.m)
  let nn := c.map (·.n)
  let kk := a.map kOf
  let exact := c.any fun c => c.mode == 1
  let side := fun (t : TileF) (rows : Option Nat) (cols : Option Nat) =>
    (if t.kind != 1 then [0x20] else t.valueCodes P true) ++
    codesOf [(decide (t.type ≤ 14) && (!isMatrix t.type || (exact && !isScaled t.type)), 0x22), (!extents t rows cols, 0x23),
             (!scalesFit t P rows kk, 0x25)]
  (match a with
   | some t => side t mm none ++ codesOf [(kOf t % 32 != 0 || decide (kOf t < 32 ∨ 4096 < kOf t), 0x23)]
   | none => []) ++
  (match b with
   | some t => side t nn (kk.map fun k => if r.sparse then k / 2 else k) ++ codesOf [(r.sparse && t.kdim, 0x22)]
   | none => []) ++
  (match m with
   | some t =>
     if t.kind != 3 then [0x20]
     else codesOf [(t.resv, 0x21), (!extents t nn (kk.map (· / 4)), 0x23),
       (t.rows == 0 || t.cols == 0 || decide (4096 < t.rows ∨ 4096 < t.cols), 0x23),
       (t.base % 16 != 0 || t.stride % 16 != 0, 0x24), (!t.fits P, 0x25)]
   | none => [])

/-- The conditions of a raw tile. -/
def rawCodes (P : Nat) (t : TileF) (c : Option AccF) (out : Bool) : List Nat :=
  let meets := (List.range t.rows).any fun i =>
    decide (t.sbase < t.base + i * t.stride + t.rowBytes ∧ t.base + i * t.stride < t.sbase + 32)
  codesOf [(t.resv, 0x21), (!extents t (c.map (·.m)) (c.map (·.n)), 0x23),
    (t.rows == 0 || t.cols == 0 || decide (4096 < t.rows ∨ 4096 < t.cols), 0x23),
    (out && (decide (t.stride < t.rowBytes) || meets), 0x23),
    (t.base % 32 != 0 || t.stride % 32 != 0 || t.sbase % 32 != 0, 0x24),
    (!t.fits P || decide (P < t.sbase + 32), 0x25)]

/-- The conditions of an output value tile. -/
def outCodes (P : Nat) (t : TileF) (c : Option AccF) : List Nat :=
  t.valueCodes P false ++
  codesOf [
    (decide (t.type ≤ 14) && !(t.type == 0 || ((t.type == 2 || t.type == 3) && !(c.any fun c => c.mode == 1))), 0x22),
    (!extents t (c.map (·.m)) (c.map (·.n)), 0x23), (decide (t.stride < t.rowBytes), 0x23)]

/-- The conditions of a LOAD's source. -/
def sourceCodes (P : Nat) (t : TileF) (c : Option AccF) : List Nat :=
  if t.kind = 1 then
    t.valueCodes P false ++
    codesOf [((c.any fun c => c.mode == 1) || (decide (t.type ≤ 14) && t.type != 0), 0x22),
      (!extents t (c.map (·.m)) (c.map (·.n)), 0x23)]
  else if t.kind = 4 then rawCodes P t c false ++ codesOf [(c.any fun c => c.mode == 0, 0x22)]
  else [0x20]

/-- The descriptors that an operation names. -/
def RecF.named (r : RecF) : List Nat :=
  [r.c] ++ (if r.op = 1 then [r.a, r.b] ++ (if r.sparse then [r.m] else []) else if r.op = 4 then [r.a] else [r.d])

/-- Every condition of stages 2 and 3 that can be evaluated (R143). -/
def mtxCodes (k : Core) (r : RecF) : List Nat :=
  let P := k.P
  if r.op = 0 ∨ 4 < r.op then [0x21]
  else
    let c := (descAt k r.c).map accF
    let t := fun d => (descAt k d).map tileF
    let fp := match c with | some c => c.mode != 1 | none => true
    codesOf [(r.resv || !r.unusedOk fp, 0x21), (r.named.any fun d => decide (P < d * 32 + 32), 0x25)] ++
    (match c with | some c => c.codes | none => []) ++
    (if r.op = 1 then mmaCodes P r (t r.a) (t r.b) c (if r.sparse then t r.m else none)
     else if r.op = 2 then (match t r.d with | some d => if d.kind = 1 then outCodes P d c else [0x20] | none => [])
     else if r.op = 3 then
       (match t r.d with
        | some d => (if d.kind = 4 then rawCodes P d c true else [0x20])
        | none => []) ++ codesOf [(c.any fun c => c.mode == 0, 0x22)]
     else (match t r.a with | some d => sourceCodes P d c | none => []))

/-- The lowest code of a list, if any. -/
def lowest : List Nat → Option Nat
  | [] => none
  | c :: r => match lowest r with | none => some c | some d => some (min c d)

/-- The issue-time checks at a record offset: the code that stops the issue (R143). -/
def issueCode (k : Core) (off : Nat) : Option Nat :=
  if off % 32 ≠ 0 then some 0x24 else if k.P < off + 32 then some 0x25
  else lowest (mtxCodes k (recF (k.wellGet off 32)))

end Sys2Proof.Machine
end

