-- ==== Sys2Proof/Machine/Sched.lean ====
section
/-! DEFINITION. The scheduler of a partition's contexts, the context switch and the save area (R394 to R402). -/

namespace Sys2Proof.Machine

def State.qState (s : State) (q : Nat) : Nat := s.get (F.FE_Q_STAT_STATE q)

/-- The queues of a context that are not OFF. -/
def State.ctxQueues (s : State) (c : Nat) : List Nat :=
  (s.regsAt (A.FE_Q_STAT 0) 0x80 4096).filter fun q => s.qState q != 0 && s.qCtx q == c

/-! ### Who may run, R396, R397 -/

/-- Live contexts, and those of a partition, ascending. -/
def State.liveCtxs (s : State) : List Nat := (s.regsAt (A.PT_CTX_STAT 0) 0x40 1024).filter fun c => s.ctxState c != 0
def State.partCtxs (s : State) (p : Nat) : List Nat := s.liveCtxs.filter fun c => s.ctxPart c == p

/-- A context is runnable: a command of one of its queues is under way (a queue that is being reset runs none), a queue
holds unfetched entries, or a Berth that a saved group waits on holds an item. -/
def State.isRunnable (s : State) (c : Nat) : Bool :=
  (s.fe.cmds.any fun d => !d.ended && s.qState d.queue != 3 && s.qCtx d.queue == c) ||
  ((s.ctxQueues c).any fun q => (s.qState q == 1 || s.qState q == 2) && s.get (F.FE_Q_PTR_HEAD q) != s.get (F.FE_Q_PTR_TAIL q)) ||
  ((s.ctx c).berths.any fun b => s.on (F.FE_BERTH_OWN_EN b) && s.get (F.FE_BERTH_OWN_COUNT b) != 0)

/-- The common multiple of all shares: vt is a whole number in this unit. -/
def shareUnit : Nat := (List.range 255).foldl (fun a i => Nat.lcm a (i + 1)) 1

/-- charge of R397. -/
def State.charge (s : State) (c : Nat) : Nat :=
  s.get (F.PT_CHG_CORE_COUNT c) + s.get (F.PT_CHG_SWITCH_COUNT c) + s.get (F.PT_CHG_OVERRUN_COUNT c)

/-- vt of R396. -/
def State.vt (s : State) (c : Nat) : Nat :=
  s.charge c * (shareUnit / max 1 (s.get (F.PT_CTX_CTL_SHARE c))) + (s.ctx c).lift

/-- A freeze holds the partition's contexts (R410). -/
def State.frozenPart (s : State) (p : Nat) : Bool := s.fe.frozen.any fun v => s.get (F.PT_FN_PART v) == p

/-- A candidate: not runnable, vt, number, in the order in which they sort. -/
abbrev Cand := Bool × Nat × Nat

def Cand.before (a b : Cand) : Bool :=
  if a.1 = b.1 then (if a.2.1 = b.2.1 then decide (a.2.2 < b.2.2) else decide (a.2.1 < b.2.1)) else !a.1

def candIns : List Cand → Cand → List Cand
  | [], a => [a]
  | b :: l, a => if a.before b then a :: b :: l else b :: candIns l a

/-- Every cluster of the mask is in service, and none is being replaced past its spare's self-test (R517, R518). -/
def State.maskThere (s : State) (c : Nat) : Bool :=
  (maskClusters (s.ctxMask c)).all fun l => s.clThere l && !(s.sp.repl.any fun r => r.kind == 5 && r.unit == l && decide (2 ≤ r.stage))

/-- A freeze holds the command: its context does not run on until a non-preemptible command has completed (R400, R410). -/
def State.heldByFreeze (s : State) (c : Cmd) : Bool := s.frozenPart (s.qPart c.queue) && s.ctxState (s.qCtx c.queue) != 2

/-- The candidates of a decision, sorted. -/
def State.cands (s : State) (p : Nat) : List Cand :=
  (((s.partCtxs p).filter fun c =>
    (s.isRunnable c || s.ctxState c == 2) && s.ctxState c != 5 && s.ctxState c != 6 && s.maskThere c).map
    fun c => (!s.isRunnable c, s.vt c, c)).foldl candIns []

/-- With SLICE = 0 a running context keeps its clusters while it is runnable (R396). -/
def State.stays (s : State) (c : Nat) : Bool :=
  s.get (F.PT_PART_CTL_SLICE (s.ctxPart c)) == 0 && s.ctxState c == 2 && s.isRunnable c

/-- The candidates in the order of a decision: those that keep their clusters come first. -/
def State.ranked (s : State) (p : Nat) : List Cand :=
  ((s.cands p).filter fun x => s.stays x.2.2) ++ (s.cands p).filter fun x => !s.stays x.2.2

/-- The contexts that a decision grants: each takes its mask unless an earlier one holds a part of it. -/
def State.grants (s : State) (p : Nat) : List Nat :=
  if s.frozenPart p then []
  else
    ((s.ranked p).foldl (fun (a : List Nat × Nat) x =>
      if s.ctxMask x.2.2 &&& a.2 = 0 then (a.1 ++ [x.2.2], a.2 ||| s.ctxMask x.2.2) else a) ([], 0)).1

/-! ### Switching, R398, R400, R401 -/

/-- A core is taking an exception. -/
def State.excIn (s : State) (c : Nat) : Bool := (s.coresOf c).any fun k => (s.core k).exc.isSome

/-- A non-preemptible command of the context has started and not completed. -/
def State.npRunning (s : State) (c : Nat) : Bool :=
  s.fe.cmds.any fun d => d.started && bit (bytesAt d.entry 1 1) 4 && s.qCtx d.queue == c

/-- Step 2 on one core: issue stops, waits that have not started are abandoned, and releases and fences that have not
completed have had no effect (R263). -/
def Core.leave (k : Core) : Core := { k with stopped := true, stalls := [], rels := [] }

/-- Steps 1 and 2: the cores stop, the context's reservations break (R252), outstanding remote reads are recorded, CGEN moves
on. -/
def State.switchOut (s : State) (c : Nat) : State :=
  let cs := s.coresOf c
  let s := s.each cs fun s k => s.setCore k (s.core k).leave
  let x := s.ctx c
  let rs := s.fab.reads.filter fun r => r.org.ctx == c
  let bs := (s.fe.waiters.filter fun w => cs.contains w.core).map (·.berth)
  let burn := (rs.filter (·.again)).map fun r => r.chip * 65536 + r.tag
  let s := { s with
    host := { s.host with walks := s.host.walks.filter fun w => w.ctx != c }
    fab := { s.fab with reads := s.fab.reads.filter fun r => r.org.ctx != c, burned := s.fab.burned ++ burn }
    fe := { s.fe with waiters := s.fe.waiters.filter fun w => !cs.contains w.core } }
  (s.breakCtx c).setCtx c { x with reads := rs, berths := bs, asked := false, drained := false } |>.bumpCgen c |>.setCtxState c 3

/-- A pre-emption request: void while an exception is taken, deferred by non-preemptible commands. -/
def State.preempt (s : State) (c : Nat) (freeze : Bool) : State :=
  if s.ctxState c ≠ 2 ∨ s.excIn c = true then s
  else
    let s := s.setCtx c { s.ctx c with asked := true, freeze := freeze || (s.ctx c).freeze }
    if s.npRunning c then s else s.switchOut c

/-- A deferred request takes effect once the last non-preemptible command has completed. -/
def State.npDone (s : State) (c : Nat) : State :=
  if s.ctxState c = 2 ∧ (s.ctx c).asked = true ∧ s.npRunning c = false ∧ s.excIn c = false then s.switchOut c else s

/-- Clusters that other contexts of the partition hold. -/
def State.heldMask (s : State) (p c : Nat) : Nat :=
  ((s.partCtxs p).filter fun d => d != c && [2, 3, 4, 6].contains (s.ctxState d)).foldl (fun m d => m ||| s.ctxMask d) 0

/-- A granted context whose clusters are free comes in: it restores, or runs at once when nothing is saved. -/
def State.switchIn (s : State) (p c : Nat) : State :=
  let x := s.ctx c
  if x.granted ∧ s.ctxState c = 1 ∧ s.ctxMask c &&& s.heldMask p c = 0 then
    (s.setCtx c { x with granted := false, ran := true }).setCtxState c (if x.has then 4 else 2)
  else s

def State.switchIns (s : State) (p : Nat) : State := s.each (s.partCtxs p) fun s c => s.switchIn p c

/-- A decision of the scheduler carried out. -/
def State.schedule (s : State) (p : Nat) : State :=
  let g := s.grants p
  let s := s.each (s.partCtxs p) fun s c =>
    if s.ctxState c = 1 ∨ s.ctxState c = 3 then s.setCtx c { s.ctx c with granted := g.contains c } else s
  let s := s.each ((s.partCtxs p).filter fun c => s.ctxState c == 2 && !g.contains c) fun s c => s.preempt c false
  s.switchIns p

/-- Clusters that a newly runnable context finds taken: those of RUNNING contexts that are runnable. -/
def State.keptMask (s : State) (p c : Nat) : Nat :=
  ((s.partCtxs p).filter fun d => d != c && s.ctxState d == 2 && s.isRunnable d).foldl (fun m d => m ||| s.ctxMask d) 0

/-- The least vt of the RUNNING contexts. -/
def State.leastVt (s : State) (p : Nat) : Option Nat :=
  (((s.partCtxs p).filter fun c => s.ctxState c == 2).map s.vt).foldl
    (fun a v => match a with | none => some v | some x => some (min x v)) none

/-- What a change has made of one context: its vt is raised when it becomes runnable, and the answer says whether the
scheduler decides. -/
def State.notice' (s : State) (p c : Nat) : State × Bool :=
  let x := s.ctx c
  let r := s.isRunnable c
  if r = x.runnable then (s, false)
  else if r then
    let up := match s.leastVt p with | some v => v - s.vt c | none => 0
    (s.setCtx c { x with runnable := true, lift := x.lift + up }, s.ctxMask c &&& s.keptMask p c == 0)
  else (s.setCtx c { x with runnable := false }, s.ctxState c == 2)

/-- Queues, commands or Berths of a partition have changed: the scheduler decides where R396 says so. -/
def State.resched (s : State) (p : Nat) : State :=
  let r := (s.partCtxs p).foldl (fun (a : State × Bool) c =>
    let b := a.1.notice' p c
    (b.1, a.2 || b.2)) (s, false)
  if r.2 then r.1.schedule p else r.1

/-! ### Time slices, R396, R397 -/

/-- Core C-clocks in units of 64: C-clocks times the cores of the mask. -/
def State.coreClocks (s : State) (c clocks : Nat) : Nat := clocks * (s.maskCores c).length / 64

/-- The C-clocks that a context has held its cores for are charged. -/
def State.chargeCore (s : State) (c clocks : Nat) : State := s.countWrap (F.PT_CHG_CORE_COUNT c) (s.coreClocks c clocks)

/-- A slice ends after `clocks` C-clocks. -/
def execTimeSliceEnd (ctx clocks : Nat) (s : State) : Out :=
  .next <|
    let p := s.ctxPart ctx
    if ctx < 1024 ∧ s.ctxState ctx = 2 ∧ s.get (F.PT_PART_CTL_SLICE p) ≠ 0 then
      let s := s.chargeCore ctx clocks
      let x := s.ctx ctx
      (s.setCtx ctx { x with shorten := x.shorten - s.get (F.PT_PART_CTL_SLICE p) * 65536 }).schedule p
    else s

/-! ### The drain before a save, R398 step 3 -/

/-- Every message and credit in flight of a context's Sluices stands at its end (R231); a message to a core block that is not
dispatched yet stays on its way. -/
def State.drainSluices (s : State) (c : Nat) : State :=
  s.each (s.sluices.filter fun x => x.ctx == c) fun s x =>
    let s := (List.range x.fly.length).foldl (fun s _ =>
      match s.sluices.find? (sameSluice x) with | some y => if s.canLand y then s.msgArrive y false else s | none => s) s
    (List.range x.back.length).foldl (fun s _ =>
      match s.sluices.find? (sameSluice x) with | some y => s.credit y | none => s) s

/-- A core holds nothing that is still on its way but remote reads, and no READ, READRAW or LOAD of its engine is in
progress (R146). -/
def Core.quiet (k : Core) : Bool :=
  k.sb == [] && k.rq == [] && (k.flights.all fun f => f.wait == []) && (k.sent.all fun x => bit x.addr 56) &&
  k.queue.all fun x => !x.started || (recF x.recd).op == 1 || x.steps != 0

/-- The context's Pumps and Lighters have not reached their stop points (R347): a read of a command is out, a command stands
within a piece, or a Pump command that is over has RESULT and signals to write. -/
def State.engBusy (s : State) (ctx : Nat) : Bool :=
  (s.host.reads.any fun r => r.agent == 2 && r.ctx == ctx) ||
  s.fe.cmds.any fun c => s.qCtx c.queue == ctx && c.job.any fun j =>
    (!j.ended && c.midChunk j.pos) || (j.ended && c.engSource == 3)

/-- Cores of the mask that hold anything, by logical number. -/
def State.maskState (s : State) (c : Nat) : List (Nat × Core) :=
  let m := s.maskCores c
  s.cores.filter fun e => m.contains e.1

/-- Streams, store buffers, engines, Pumps and Lighters have reached their stop points: `run` C-clocks of RUNNING are
charged, and `extra` of overrun (R400); a reservation that a request on its way has made breaks too (R252). -/
def execPreemptionDrainComplete (ctx run extra : Nat) (s : State) : Out :=
  .next <|
    if ctx < 1024 ∧ s.ctxState ctx = 3 ∧ (s.ctx ctx).drained = false ∧ s.engBusy ctx = false ∧ s.excIn ctx = false then
      let s := s.each (s.coresOf ctx) fun s c => (s.flushCore c).handRq c fun _ => true
      let s := s.drainSluices ctx
      if (s.coresOf ctx).all fun c => (s.core c).quiet && !(s.coh.pend.any fun q => q.cluster == c / 8) then
        let s := (s.chargeCore ctx run).countWrap (F.PT_CHG_OVERRUN_COUNT ctx) (s.coreClocks ctx extra)
        let x := s.ctx ctx
        (s.breakCtx ctx).setCtx ctx { x with drained := true, saved := s.maskState ctx, shorten := x.shorten + extra }
      else s
    else s

/-! ### The save area, R395 -/

/-- Lines from byte address a, k bytes long, whose newest value need not be zero. -/
def State.liveLines (s : State) (a k : Nat) : List Nat :=
  let inside := fun (l : Nat) => decide (a ≤ l * 128 ∧ l * 128 < a + k)
  let c := s.coh
  let all := s.mem.map (fun e => lineOf e.1) ++ c.cis.map (·.1) ++ c.cc.map (·.1 / 128) ++ c.wb.map (·.line) ++
    c.reds.map (·.line) ++ s.poison.map (· / 4)
  (all.filter inside).foldl setIns []

/-- A region of local memory written whole, line by line at the homes: `d` holds the bytes that are not zero, by offset. -/
def State.writeRegion (s : State) (a k : Nat) (d : Data) : State :=
  s.each (spanLines a k) fun s l => s.pokeAs 3 saveUnit (l * 128) ((List.range 128).map fun i => tabGet 0 d (l * 128 + i - a))

/-- A region of local memory read back: the bytes that are not zero, by offset, and whether any is poisoned. -/
def State.readRegion (s : State) (a k : Nat) : Data × Bool :=
  let ls := s.liveLines a k
  ((ls.flatMap fun l => ((s.newest l).1.filter fun e => e.2 != 0).map fun e => (l * 128 + e.1 - a, e.2)),
   ls.any fun l => (s.newest l).2 != 0)

/-- A region whose layout the migration format fixes: its bytes are free. -/
def State.openRegion (s : State) (a k : Nat) : State :=
  { s.writeRegion a k (Config.layoutBytes s.free) with free := s.free + 1 }

/-- Thread registers as bytes by offset, and back. -/
def regBytes (t : Tab Lane) : Data :=
  t.flatMap fun e => ((toBytes 4 e.2.toNat).mapIdx fun i b => (4 * e.1 + i, b)).filter fun x => x.2 != 0
def regLanes (d : Data) : Tab Lane :=
  d.foldl (fun t e => tabSet 0 t (e.1 / 4) (tabGet 0 t (e.1 / 4) ||| BitVec.ofNat 32 (e.2.toNat * 2 ^ (8 * (e.1 % 4))))) []

/-- The save area and the n-th core record. -/
def State.saveBase (s : State) (c : Nat) : Nat := s.get (F.PT_CTX_SAVE_BASE c) * 65536
def coreRecord (base n : Nat) : Nat := base + 0x10000 + 0x180000 * n

/-- The record of one core. -/
def State.saveCore (s : State) (a : Nat) (k : Core) : State :=
  let s := s.writeRegion a 0x80000 (regBytes k.t)
  let s := s.writeRegion (a + 0x80000) k.P k.well
  let s := s.writeRegion (a + 0x130000) 0x40000 k.acc
  s.openRegion (a + 0x170000) 0x10000

/-- The granted contexts that wait for the clusters of a context. -/
def State.incoming (s : State) (p c : Nat) : List Nat :=
  (s.partCtxs p).filter fun d => d != c && (s.ctx d).granted && s.ctxMask d &&& s.ctxMask c != 0

/-- Every record of a context's save area written. -/
def State.saveArea (s : State) (ctx : Nat) : State :=
  let base := s.saveBase ctx
  ((s.maskCores ctx).mapIdx fun n c => (n, c)).foldl
    (fun s e => s.saveCore (coreRecord base e.1) (tabGet Core.idle (s.ctx ctx).saved e.2)) (s.openRegion base 0x10000)

/-- The records are written, and these writes performed: the context is IDLE, or FROZEN, and its clusters are free. The time
of the save is charged to the contexts that come in, in equal parts. -/
def execSaveComplete (ctx clocks : Nat) (s : State) : Out :=
  .next <|
    let x := s.ctx ctx
    let p := s.ctxPart ctx
    let t := s.saveArea ctx
    if ctx < 1024 ∧ s.ctxState ctx = 3 ∧ x.drained = true ∧ t.written 3 saveUnit = true then
      let m := s.maskCores ctx
      let s := t.each m fun s c => s.setCore c Core.idle
      let inc := s.incoming p ctx
      let s := s.each inc fun s d => s.countWrap (F.PT_CHG_SWITCH_COUNT d) (s.coreClocks ctx clocks / max 1 inc.length)
      let s := s.setCtx ctx { x with has := true, drained := false, freeze := false }
      (s.setCtxState ctx (if x.freeze then 5 else 1)).switchIns p
    else s

/-! ### The restore, R398 steps 5 and 6, R401, R402 -/

/-- A core read back: registers, scratchpad and accumulator store from the record, the control state as it was kept; and
whether a read of the record gave poison. -/
def State.loadCore (s : State) (a : Nat) (k : Core) : Core × Bool :=
  let t := s.readRegion a 0x80000
  let w := s.readRegion (a + 0x80000) k.P
  let c := s.readRegion (a + 0x130000) 0x40000
  ({ k with t := regLanes t.1, well := w.1, acc := c.1, lines := [] }, t.2 || w.2 || c.2 || (s.readRegion (a + 0x170000) 0x10000).2)

/-- The restore's reads of a region are charged to the partition that homes each line (R395, R319). -/
def State.chargeRegion (s : State) (a k : Nat) : State :=
  s.each (spanLines a k) fun s l => s.fetched l (s.onlyMem l 15) false

/-- The reads of a whole save area. -/
def State.chargeArea (s : State) (ctx : Nat) : State :=
  let base := s.saveBase ctx
  (s.chargeRegion base 0x10000).each (List.range (s.maskCores ctx).length) fun s n =>
    let a := coreRecord base n
    (s.chargeRegion a (0x80000 + (tabGet Core.idle (s.ctx ctx).saved ((s.maskCores ctx).getD n 0)).P)).chargeRegion (a + 0x130000) 0x50000

/-- A recorded remote read is sent again, with the context's generation of now. -/
def State.reissue (s : State) (r : RdOut) : State :=
  s.fabRead { r.org with cgen := s.cgenOf r.org.ctx } r.group r.pc (2 ^ 56 + r.chip * 2 ^ 40 + r.off) r.sz

/-- A context whose clusters are not all there any more is not resumed: what it saved is kept (R232). -/
def State.restoreOff (s : State) (ctx : Nat) : State :=
  let x := s.ctx ctx
  ((s.setCtx ctx { x with granted := false, freeze := false }).setCtxState ctx (if x.freeze then 5 else 1)).schedule (s.ctxPart ctx)

/-- The save area can be read as a whole. -/
def State.areaReady (s : State) (ctx : Nat) : Bool :=
  s.spanReady (s.saveBase ctx) (0x10000 + 0x180000 * (s.maskCores ctx).length)

/-- The records are read back: the context is RUNNING, or torn down for poison; its cores are ungated (R180). -/
def execRestoreComplete (ctx clocks : Nat) (s : State) : Out :=
  .next <|
    let x := s.ctx ctx
    if ctx < 1024 ∧ s.ctxState ctx = 4 ∧ s.maskThere ctx = false then
      (s.countWrap (F.PT_CHG_SWITCH_COUNT ctx) (s.coreClocks ctx clocks)).restoreOff ctx
    else if ctx < 1024 ∧ s.ctxState ctx = 4 ∧ s.areaReady ctx = true then
      let base := s.saveBase ctx
      let halted := s.dbg.target = some ctx ∧ s.on F.TD_DBG_STAT_HALTED = true
      let l := (s.maskCores ctx).mapIdx fun n c => (c, s.loadCore (coreRecord base n) (tabGet Core.idle x.saved c))
      let bad := l.any (fun e => e.2.2) || (s.readRegion base 0x10000).2
      let s := (s.chargeArea ctx).countWrap (F.PT_CHG_SWITCH_COUNT ctx) (s.coreClocks ctx clocks)
      if bad then s.tear ctx 9 0 0
      else
        let s := s.each l fun s e => s.setCore e.1 (if e.2.1.blk.isSome then { e.2.1 with stopped := decide halted } else e.2.1)
        let s : State := { s with pow := { s.pow with gated := s.pow.gated.filter fun c => !(s.maskCores ctx).contains c } }
        let s := s.setCtx ctx { x with saved := [], has := false, reads := [], berths := [] }
        let s := s.each x.reads State.reissue |>.setCtxState ctx 2
        if x.freeze then s.preempt ctx true else s
    else s

/-! ### The end of a teardown, R403, R404 step 7 -/

/-- Contexts that a freeze of VF v holds return to IDLE, under the scheduler; those on their way to it no longer go there. -/
def State.thawCtxs (s : State) (v : Nat) : State :=
  s.each (s.liveCtxs.filter fun c => s.get (F.PT_CTX_CTL_FUNC c) == v) fun s c =>
    let s := s.setCtx c { s.ctx c with freeze := false }
    if s.ctxState c = 5 then s.setCtxState c 1 else s

/-- A freeze of VF v ends before its time: it had none, or its contexts return; BUSY clears where it stood. -/
def State.freezeEnd (s : State) (v : Nat) : State :=
  if s.fe.frozen.contains v then
    let s := if s.fe.stopped.contains v then s else s.set F.PT_MIG_CTL_BUSY 0
    let s : State := { s with fe := { s.fe with frozen := setDel s.fe.frozen v, stopped := setDel s.fe.stopped v } }
    s.thawCtxs v
  else s

/-- The core is the context's own: it runs a block of it, or no other context holds its cluster. -/
def State.ownCore (s : State) (c k : Nat) : Bool :=
  (s.core k).blk.any (·.ctx == c) ||
  !(s.liveCtxs.any fun d => d != c && s.inMask d (k / 8) && [2, 3, 4, 6].contains (s.ctxState d))

/-- The context enters its state after the teardown: its own cores are idle and change context at their next launch. -/
def State.tornDown (s : State) (c : Nat) : State :=
  let p := s.ctxPart c
  let x := s.ctx c
  let cause := s.get (F.PT_CTX_STAT_CAUSE c)
  let s := ((s.event 3 9 (0x100 + cause) (some p) c c [c, cause, s.cgenOf c]).breakCtx c).detached c
  let s := s.each ((s.maskCores c).filter (s.ownCore c)) fun s k => s.setCore k Core.idle
  let s := if x.free then (s.setCtxState c 0).set (F.PT_CTX_CTL_LIVE c) 0 else s.setCtxState c 1
  let f := s.get (F.PT_CTX_CTL_FUNC c)
  let s : State := if x.free then ({ s with fe := { s.fe with ctxs := tabDel s.fe.ctxs c } } : State).freezeEnd f else s
  (s.resched p).schedule p

/-- A Pump or Lighter command that ended with its own fault still has its complements and its record to write (R330). -/
def State.engLate (s : State) (ctx : Nat) : Bool := s.fe.cmds.any fun c => c.ended && c.job.isSome && s.qCtx c.queue == ctx

/-- The clocks of a switch that the teardown cut short: a restore's are the context's, a save's those of the contexts that come
in (R398). -/
def State.chargeCut (s : State) (ctx sw : Nat) : State :=
  let l := if (s.ctx ctx).was = 4 then [ctx] else if (s.ctx ctx).was = 3 then s.incoming (s.ctxPart ctx) ctx else []
  s.each l fun s d => s.countWrap (F.PT_CHG_SWITCH_COUNT d) (s.coreClocks ctx sw / max 1 l.length)

/-- What the context still owes is charged, and the teardown ends: `run` C-clocks of RUNNING, those of its Pumps and Lighters,
`sw` of a switch and `np` of an overrun that it ended (R397, R400). -/
def execTeardownComplete (ctx run pump lighter sw np : Nat) (s : State) : Out :=
  .next <| if ctx < 1024 ∧ s.ctxState ctx = 6 ∧ s.excIn ctx = false ∧ s.engLate ctx = false then
      let s := (((s.chargeCore ctx run).countWrap (F.PT_CHG_PUMP_COUNT ctx) (pump / 64)).countWrap (F.PT_CHG_LIGHTER_COUNT ctx)
        (lighter / 64)).chargeCut ctx sw
      let s := s.countWrap (F.PT_CHG_OVERRUN_COUNT ctx) (s.coreClocks ctx np)
      (s.setCtx ctx { s.ctx ctx with shorten := (s.ctx ctx).shorten + np }).tornDown ctx
    else s

end Sys2Proof.Machine
end

