-- ==== Sys2Proof/Machine/Power.lean ====
section
/-! DEFINITION. Clocks, power and heat: the control loop, performance-state steps, droop, temperature points, rails and
the limits (R455 to R476). Power is kept in milliwatts. -/

namespace Sys2Proof.Machine

/-! ### Limits and floors -/

/-- THROT: 85 to 104 °C, otherwise 100 (R476). -/
def State.throt (s : State) : Nat :=
  let t := s.get F.PW_CTL_THROT
  if 85 ≤ t ∧ t ≤ 104 then t else 100

/-- ILIM of a compute rail in A: 100 to 280 (R476). -/
def State.ilim (s : State) (n : Nat) : Nat := min 280 (max 100 (s.get (F.PW_RAIL_CFG_ILIM n)))

/-- FLOOR of a partition: 1 to 64 (R476). -/
def State.floor (s : State) (p : Nat) : Nat := min 64 (max 1 (s.get (F.PW_PART_FLOOR_FLOOR p)))

/-- FALLSTEP: at most 4,608 (R476). -/
def State.fallStep (s : State) : Nat := min 4608 (s.get F.PW_CTL_FALLSTEP)

/-- DROOP: 10 to 80 mV, otherwise 30 (R476). -/
def State.droopMv (s : State) : Nat :=
  let d := s.get F.PW_CTL_DROOP
  if 10 ≤ d ∧ d ≤ 80 then d else 30

/-- The enabled partition that owns a logical cluster, R389. -/
def State.clPart (s : State) (l : Nat) : Option Nat :=
  (List.range 16).find? fun p => s.on (F.PT_PART_CTL_EN p) && bit (s.get (F.PT_PART_CL_CLUSTERS p (l / 64))) (l % 64)

/-- The voltage of a performance state, in millivolts, never above 0.90 V (R468). -/
def State.vtab (s : State) (ps : Nat) : Nat :=
  min 900 <| if ps = 0 then s.get F.PW_VTAB_V4 else if ps = 1 then s.get F.PW_VTAB_V5 else if ps = 2 then s.get F.PW_VTAB_V6
  else s.get F.PW_VTAB_V8

/-- A rail's budget in milliwatts (R463). -/
def railBudget (r : Nat) : Nat :=
  if r < 8 then 168750 else if r < 10 then 160000 else if r < 12 then 210000 else if r < 14 then 170000 else 250000

/-- The points of a die (R459): compute dies 0–7, Quays 8–9, stacks 10–21, I/O dies 22–23. -/
def diePoints (d : Nat) : List Nat :=
  if d < 8 then (List.range 36).map (36 * d + ·) else if d < 10 then (List.range 32).map (288 + 32 * (d - 8) + ·)
  else if d < 22 then (List.range 4).map (352 + 4 * (d - 10) + ·) else (List.range 8).map (400 + 8 * (d - 22) + ·)

/-- The hottest valid reading of a die, if any point is valid: the die's T (R461). -/
def State.hottest (s : State) (d : Nat) : Option Int :=
  ((diePoints d).filter fun i => s.on (F.PW_TEMP_VALID i)).foldl (fun m i =>
    let t := tabGet 0 s.pow.temps i
    match m with | none => some t | some x => some (max x t)) none

/-! ### Forced states, R474 -/

/-- The regulator alert or the coolant fault forces the die (ranks 2 and 3). -/
def State.alertForced (s : State) : Bool := s.on F.PW_STAT_VRALERT || s.on F.PW_STAT_COOLANT || s.on F.PW_STAT_VRSTUCK

/-- A forced state of R474 acts on die n. -/
def State.dieForced (s : State) (n : Nat) : Bool := s.alertForced || s.on (F.PW_DIE_STAT_HOT n) || s.boot.stopped

/-- The level that logical cluster l takes at a frame boundary: its die's, at least its partition's floor outside forced
states and DEGRADED (R466). -/
def State.levelOf (s : State) (l : Nat) : Nat :=
  let n := l / 16
  let lvl := s.get (F.PW_DIE_STAT_LEVEL n)
  if s.dieForced n || s.on (F.PW_DIE_STAT_DEGRADED n) then lvl else max lvl (((s.clPart l).map s.floor).getD 1)

/-- The clusters of a half (2 × die + half) take their levels (R138); the spare cluster of the half, which belongs to no
partition, takes the die's, at index 128 + half. -/
def State.takeLevels (s : State) (half : Nat) : State :=
  { s with pow := { s.pow with
      clLevel := tabSet 64 ((List.range 8).foldl (fun t i => tabSet 64 t (8 * half + i) (s.levelOf (8 * half + i))) s.pow.clLevel)
        (128 + half) (s.get (F.PW_DIE_STAT_LEVEL (half / 2))) } }

/-- The limiter level applied to a core in its half's present frame. -/
def State.coreLevel (s : State) (core : Nat) : Nat := tabGet 64 s.pow.clLevel (core / 8)

/-- The lower-numbered half in service of a die: its frame boundaries move the die level (R466). -/
def State.leadHalf (s : State) (n : Nat) : Nat := if s.isRetired 12 (2 * n) then 2 * n + 1 else 2 * n

/-- The die level moves towards its target, by at most 8 outside the forced states (R466, R471). -/
def State.levelMove (s : State) (n : Nat) : State :=
  let lvl := s.get (F.PW_DIE_STAT_LEVEL n)
  let t := tabGet 64 s.pow.tgt n
  s.set (F.PW_DIE_STAT_LEVEL n) (if s.dieForced n then t else if lvl < t then min t (lvl + 8) else max t (lvl - 8))

/-- Dies of the Quay whose control complex follows (R466). -/
def State.followerDies (s : State) : List Nat := if s.lead = 0 then [4, 5, 6, 7] else [0, 1, 2, 3]

/-- Every core of a die runs at its partition's floor: the die level is at or below the floor of each cluster's
partition. -/
def State.atFloors (s : State) (n : Nat) : Bool :=
  (List.range 16).all fun i =>
    let l := 16 * n + i
    !s.clThere l || decide (s.get (F.PW_DIE_STAT_LEVEL n) ≤ ((s.clPart l).map s.floor).getD 1)

/-! ### Performance-state steps, R455 -/

/-- Every in-service core of the die is gated while PF0 is in D3hot: its A-clock is stopped (R475). -/
def State.clockStopped (s : State) (n : Nat) : Bool :=
  s.pow.d3 && (List.range 128).all fun i => !s.clThere (16 * n + i / 8) || s.pow.gated.contains (128 * n + i)

/-- A voltage is written to a die's rail over AVSBus and waits for its acknowledgement (R455). -/
def State.avsWrite (s : State) (n mv : Nat) : State :=
  { s with pow := { s.pow with newMv := tabSet 0 s.pow.newMv n mv } }.emit (.avs n mv)

/-- A written voltage is acknowledged: it is the rail's set voltage; or it is not, and the set voltage stands. -/
def State.avsDone (s : State) (n : Nat) (ok : Bool) : State :=
  let mv := tabGet 0 s.pow.newMv n
  { s with pow := { s.pow with setMv := if ok ∧ mv ≠ 0 then tabSet 750 s.pow.setMv n mv else s.pow.setMv
                               newMv := tabSet 0 s.pow.newMv n 0 } }

/-- The leader orders a step of one state: down (slower) or up. -/
def State.orderDown (s : State) (n : Nat) : State :=
  if s.get (F.PW_DIE_STAT_PSTATE n) < 3 ∧ tabGet 0 s.pow.step n = 0 then s.stepTo n 3 else s

def State.orderUp (s : State) (n : Nat) : State :=
  if s.get (F.PW_DIE_STAT_PSTATE n) > 0 ∧ tabGet 0 s.pow.step n = 0 then
    (s.stepTo n 1).avsWrite n (s.vtab (s.get (F.PW_DIE_STAT_PSTATE n) - 1))
  else s

/-- The divider may move the die down now: a step ordered, or, in a forced state, the next of its steps while the last one's
voltage write still waits (R455, R473). -/
def State.downNow (s : State) (n : Nat) : Bool :=
  let st := tabGet 0 s.pow.step n
  st == 3 || (st == 4 && s.dieForced n && decide (s.get (F.PW_DIE_STAT_PSTATE n) < 3))

/-- DIVIDER_SWITCH, R455, R458: at a frame boundary outside any droop window, of a die whose A-clock runs. -/
def execDividerSwitch (die : Nat) (s : State) : Out :=
  .next <| if s.pow.droop.contains (2 * die) || s.pow.droop.contains (2 * die + 1) || s.clockStopped die then s
  else
    let ps := s.get (F.PW_DIE_STAT_PSTATE die)
    if tabGet 0 s.pow.step die = 2 then (s.stepTo die 0).set (F.PW_DIE_STAT_PSTATE die) (ps - 1)
    else if s.downNow die then
      let s := (s.stepTo die 4).set (F.PW_DIE_STAT_PSTATE die) (ps + 1)
      (s.count (F.PW_PSDOWN_COUNT die) 1).avsWrite die (s.vtab (ps + 1))
    else s

/-- DROOP_DETECTED, R457: a detector samples a supply of `mv` millivolts, more than DROOP below the voltage of the die's
performance state, and the half's droop window opens. -/
def execDroopDetected (die half mv : Nat) (s : State) : Out :=
  .next <| if die < 8 ∧ half < 2 ∧ s.running ∧ mv + s.droopMv < s.vtab (s.get (F.PW_DIE_STAT_PSTATE die)) then
    { s with pow := { s.pow with droop := setIns s.pow.droop (2 * die + half) } } else s

/-- DROOP_WINDOW_CLEAR, R457: 256 slots after the last firing; PW_SKIP counts the slots skipped. -/
def execDroopWindowClear (die half skipped : Nat) (s : State) : Out :=
  .next <| if s.pow.droop.contains (2 * die + half) then
    { s with pow := { s.pow with droop := setDel s.pow.droop (2 * die + half) } }.count (F.PW_SKIP_COUNT die) skipped
  else s

/-! ### The control loop, R466 to R468 -/

/-- Package power in milliwatts: rails 8 to 14 at their last valid power, or at budget while INVALID, and the die
estimates. -/
def State.pkgPower (s : State) : Nat :=
  ((List.range 7).map fun i =>
    let r := 8 + i
    if s.on (F.PW_RAIL_STAT_INVALID r) then railBudget r else tabGet 0 s.pow.railMw r).sum +
  ((List.range 8).map fun n => tabGet 0 s.pow.est n).sum

/-- Die current in milliamperes: estimate over rail voltage (R468). -/
def State.dieCurrent (s : State) (n : Nat) : Nat := tabGet 0 s.pow.est n * 1000 / s.railMv n

/-- The target level of one die, as the program of R466 forms it. -/
def State.targetLevel (s : State) (p limit n : Nat) : Nat :=
  let lvl : Int := s.get (F.PW_DIE_STAT_LEVEL n)
  let th : Int := s.throt
  let cap : Int := match s.hottest n with
    | some t => if t ≥ th then max 16 (64 - 8 * (t - th)) else 64
    | none => 64
  let cap := if s.on (F.PW_DIE_STAT_DEGRADED n) then min cap 32 else cap
  let cap := if s.on (F.PW_DIE_STAT_HOT n) then min cap 16 else cap
  let cap := if s.alertForced then min cap 1 else cap
  let tgt : Int := if p > limit then lvl - ((64 * (p - limit) + p - 1) / p : Nat)
    else if p * 32 < limit * 31 then lvl + 1 else lvl
  let tgt := if s.dieCurrent n > s.ilim n * 1000 then min tgt (lvl - 4) else tgt
  let tgt := if s.pow.overIlim.contains n then 1 else tgt
  (max 1 (min tgt cap)).toNat

/-- The conditions that qualify a die for a step down (R467). -/
def State.wantsDown (s : State) (p limit n : Nat) : Bool :=
  (decide (p > limit) && s.atFloors n) || decide (s.dieCurrent n > s.ilim n * 1000)

/-- The slowest state that a cap of R461, R464, R473 or R476 puts on a die: it is stepped down towards it. -/
def State.psCap (s : State) (n : Nat) : Nat :=
  let c := s.get F.PW_CTL_MAXPS
  let c := if s.on (F.PW_DIE_STAT_DEGRADED n) || s.on (F.PW_RAIL_STAT_INVALID n) then max c 2 else c
  if s.dieForced n || (s.pow.missed && s.followerDies.contains n) then 3 else c

/-- A die is held to its cap: no raise passes it, and a faster die is stepped down one more state. -/
def State.towardsCap (s : State) (n : Nat) : State := s.stepFor n (s.psCap n)

/-- VOLTAGE_ACK, R455: a raise goes on to its divider switch; a lowering write is done. -/
def execVoltageAck (die : Nat) (s : State) : Out :=
  .next <|
    let st := tabGet 0 s.pow.step die
    let s := s.avsDone die true
    if st = 1 then s.stepTo die 2 else if st = 4 then (s.stepTo die 0).towardsCap die else s

/-- VOLTAGE_ACK_TIMEOUT, R455: the raise is abandoned, or the lower frequency kept at the higher voltage. -/
def execVoltageAckTimeout (die : Nat) (s : State) : Out :=
  .next <|
    let st := tabGet 0 s.pow.step die
    if st = 1 then ((s.avsDone die false).stepTo die 0).event 7 11 5 none die 0x3FF [die, 1]
    else if st = 4 then (((s.avsDone die false).stepTo die 0).event 7 11 5 none die 0x3FF [die, 2]).towardsCap die
    else s.avsDone die false

/-- Runs of qualifying intervals advanced. -/
def bump (t : Tab Nat) (n : Nat) (c : Bool) : Tab Nat := tabSet 0 t n (if c then tabGet 0 t n + 1 else 0)

/-- The die with the highest estimate of a list, the first of equals. -/
def State.hottestEst (s : State) : List Nat → Option Nat
  | [] => none
  | n :: ns => match s.hottestEst ns with
    | none => some n
    | some m => if tabGet 0 s.pow.est m > tabGet 0 s.pow.est n then some m else some n

/-- Energy estimate of a core for one interval, in milliwatts: its counts of compute beats and filler beats of each element
code, vector lane operations and Well array accesses, weighted, and the leakage of its cluster's two points (R465). -/
def State.coreEst (s : State) (core : Nat) (counts : List Nat) : Nat :=
  let u := s.clPhys (core / 8) - 1
  let pt := 36 * (u / 18) + 2 * (u % 18)
  (counts.zipIdx.map fun e => e.1 * Config.energyWeight e.2).sum / 2 ^ 16 +
    Config.leakage (tabGet 0 s.pow.temps pt) (tabGet 0 s.pow.temps (pt + 1))

/-- Unscaled estimate of a die: the sum of its in-service cores' and the uncore term. -/
def State.dieEst (s : State) (acts : List (Nat × List Nat)) (n : Nat) : Nat :=
  (((List.range 128).map (128 * n + ·)).filter fun c => s.clThere (c / 8)).foldl
    (fun a c => a + s.coreEst c ((tabFind acts c).getD [])) Config.uncoreMw

/-- One die's estimate formed from its unscaled estimate and GAIN (R465). -/
def State.estimate (s : State) (n u : Nat) : State :=
  { s with pow := { s.pow with
      est := tabSet 0 s.pow.est n (u * s.get (F.PW_RAIL_STAT_GAIN n) / 256)
      estSum := tabSet 0 s.pow.estSum n (tabGet 0 s.pow.estSum n + u)
      estCnt := tabSet 0 s.pow.estCnt n (tabGet 0 s.pow.estCnt n + 1) } }

/-- A step up is possible for a die in this interval (R467). -/
def State.wantsUp (s : State) (p limit n : Nat) : Bool :=
  decide (p * 8 < limit * 7) && !s.dieForced n && !s.on (F.PW_DIE_STAT_DEGRADED n)

/-- One die's target level and its runs of qualifying intervals. -/
def State.dieDecide (s : State) (p limit n : Nat) : State :=
  { s with pow := { s.pow with
      tgt := tabSet 64 s.pow.tgt n (s.targetLevel p limit n)
      downRun := bump s.pow.downRun n (s.wantsDown p limit n)
      upRun := bump s.pow.upRun n (s.wantsUp p limit n) } }

/-- The leader's one step down for power or current: the qualifying die with the highest estimate (R467). -/
def State.leaderDown (s : State) (dies : List Nat) : State :=
  match s.hottestEst (dies.filter fun n => tabGet 0 s.pow.downRun n ≥ 4) with
  | some n => { s with pow := { s.pow with downRun := tabSet 0 s.pow.downRun n 0 } }.orderDown n
  | none => s

/-- A die's step up after 64 quiet intervals (R467). -/
def State.leaderUp (s : State) (n : Nat) : State :=
  if tabGet 0 s.pow.upRun n ≥ 64 ∧ s.get (F.PW_DIE_STAT_PSTATE n) > s.psCap n then
    { s with pow := { s.pow with upRun := tabSet 0 s.pow.upRun n 0 } }.orderUp n
  else s

/-- The package limit lowered a level or a state of this interval. -/
def State.limited (s : State) (p limit : Nat) : Bool :=
  decide (p > limit) && (List.range 8).any fun n =>
    decide (tabGet 64 s.pow.tgt n < s.get (F.PW_DIE_STAT_LEVEL n)) || tabGet 0 s.pow.step n == 3

/-- The dies that the leader decides for: all eight, or its own while its decisions do not reach the follower. -/
def State.decided (s : State) (got : Bool) : List Nat :=
  (List.range 8).filter fun n => got || !s.followerDies.contains n

/-- CONTROL_INTERVAL, R465 to R468: `acts` are the activity counts of the cores in the interval, as `State.coreEst` takes
them; `got` tells whether the follower has the decisions, which end a fall-back of R466. -/
def execControlInterval (acts : List (Nat × List Nat)) (got : Bool) (s : State) : Out :=
  .next <| if !s.running then s else
    let s := { s with pow := { s.pow with missed := s.pow.missed && !got } }
    let s := s.each (List.range 8) fun s n => s.estimate n (s.dieEst acts n)
    let p := s.pkgPower
    let limit := s.get F.PW_PKG_LIMIT_LIMIT * 1000
    let s := s.each (s.decided got) fun s n => s.dieDecide p limit n
    let s := ({ s with pow := { s.pow with overIlim := s.pow.overIlim.filter fun n => !(s.decided got).contains n } }.each
      (s.decided got) State.towardsCap).leaderDown (s.decided got)
    let s := s.each (s.decided got) State.leaderUp
    let s := (s.set F.PW_STAT_LIMITED (b2n (s.limited p limit))).set F.PW_STAT_PKGW (p / 1000)
    (s.sample 7 0 (p / 1000 : Nat)).each (List.range 8) fun s n => s.sample 8 n (s.get (F.PW_DIE_STAT_LEVEL n))

/-- FOLLOWER_DECISION_MISSED, R466: the follower's fourth missed decision. -/
def execFollowerDecisionMissed (s : State) : Out :=
  .next <| if s.running then
    let s := s.each s.followerDies fun s n =>
      ({ s with pow := { s.pow with tgt := if s.alertForced then s.pow.tgt else tabSet 64 s.pow.tgt n 16 } } : State).stepFor n 3
    { s with pow := { s.pow with missed := true } }.event 7 11 6 none 0 0x3FF [1 - s.lead]
  else s

/-! ### Rails, R464, R465 -/

/-- The millisecond of a rail's reading is over: the next mean starts (R465). -/
def State.meanDone (s : State) (r : Nat) : State :=
  { s with pow := { s.pow with estSum := tabSet 0 s.pow.estSum r 0, estCnt := tabSet 0 s.pow.estCnt r 0 } }

/-- An invalid reading: discarded and counted; the third in a row sets INVALID, which caps a compute die (R464). -/
def State.railInvalid (s : State) (r : Nat) : State :=
  let k := tabGet 0 s.pow.railBad r + 1
  let s := ((s.count (F.PW_RAIL_STAT_BAD r) 1).set F.PW_ERR_AVS 1).meanDone r
  let s := { s with pow := { s.pow with railBad := tabSet 0 s.pow.railBad r k, railGood := tabSet 0 s.pow.railGood r 0 } }
  if k = 3 then
    let s := (s.set (F.PW_RAIL_STAT_INVALID r) 1).event 7 11 3 none r 0x3FF [r]
    if r < 8 then s.towardsCap r else s
  else s

/-- GAIN moves a quarter of the way towards measured power over unscaled estimate, clamped to 128–512. -/
def State.gainUpdate (s : State) (r mw : Nat) : State :=
  let cnt := tabGet 0 s.pow.estCnt r
  let mean := tabGet 0 s.pow.estSum r / cnt
  if cnt = 0 ∨ mean = 0 then s
  else
    let target : Int := mw * 256 / mean
    let g : Int := s.get (F.PW_RAIL_STAT_GAIN r)
    let g' := max 128 (min 512 (g + (target - g) / 4))
    let out := decide (target < 128 ∨ target > 512)
    let k := if out then tabGet 0 s.pow.gainOut r + 1 else 0
    let s := s.set (F.PW_RAIL_STAT_GAIN r) g'.toNat
    let s := { s with pow := { s.pow with gainOut := tabSet 0 s.pow.gainOut r k } }
    if k = 16 then s.event 7 11 4 none r 0x3FF [r] else s

/-- RAIL_READING, R464, R465, R468: millivolts and amperes read over AVSBus, or an error status. -/
def execRailReading (rail mv : Nat) (amps : Int) (err : Bool) (s : State) : Out :=
  .next <| if rail ≥ 15 ∨ !s.running then s else
    let set := s.railMv rail
    let mw := amps * mv
    if err || decide (((mv : Int) - set).natAbs * 5 > set) || decide (mw < 0) || decide (mw > 2 * (railBudget rail : Int))
    then s.railInvalid rail
    else
      let k := tabGet 0 s.pow.railGood rail + 1
      let s := (s.set (F.PW_RAIL_STAT_IMEAS rail) amps.toNat).set (F.PW_RAIL_STAT_VMEAS rail) mv
      let s := { s with pow := { s.pow with railMw := tabSet 0 s.pow.railMw rail mw.toNat,
                                            railBad := tabSet 0 s.pow.railBad rail 0,
                                            railGood := tabSet 0 s.pow.railGood rail k } }
      let s := if s.on (F.PW_RAIL_STAT_INVALID rail) && decide (k ≥ 3) then s.set (F.PW_RAIL_STAT_INVALID rail) 0 else s
      if rail < 8 then
        let s := (if s.on (F.PW_RAIL_STAT_INVALID rail) then s else s.gainUpdate rail mw.toNat).meanDone rail
        if amps > s.ilim rail then { s with pow := { s.pow with overIlim := setIns s.pow.overIlim rail } } else s
      else s

/-- RAIL_READING_TIMEOUT, R464. -/
def execRailReadingTimeout (rail : Nat) (s : State) : Out :=
  .next <| if rail < 15 ∧ s.running then s.railInvalid rail else s

/-! ### Temperature points, R459 to R462, R307 to R309 -/

/-- The die of a point: compute dies 0–7, Quays 8–9, stacks 10–21, I/O dies 22–23 (R459, R542's numbering). -/
def pointDie (i : Nat) : Nat :=
  if i < 288 then i / 36 else if i < 352 then 8 + (i - 288) / 32 else if i < 400 then 10 + (i - 352) / 4
  else 22 + (i - 400) / 8

/-- A die has an invalid point. -/
def State.dieBad (s : State) (d : Nat) : Bool := (diePoints d).any fun i => s.pow.badPts.contains i

/-- Refresh band of a reading (R307). -/
def bandOf (t : Int) : Nat := if t < 85 then 0 else if t < 95 then 1 else 2

/-- A stack's refresh band in force, on the stack and its channels (R308, R321). -/
def State.setBand (s : State) (m b : Nat) : State :=
  (s.set (F.MC_STACK_BAND m) b).each (List.range 128) fun s k => s.set (F.MC_CH_STAT_BAND (128 * m + k)) b

/-- The Quay a die sits on. -/
def dieQuay (d : Nat) : Nat :=
  if d < 8 then d / 4 else if d < 10 then d - 8 else if d < 22 then (d - 10) / 6 else d - 22

/-- HOT of one compute die: ÷8 and level at most 16, with an event record when it sets (R461). -/
def State.setHot (s : State) (n point : Nat) (t : Int) : State :=
  if s.on (F.PW_DIE_STAT_HOT n) then s
  else
    let s := s.set (F.PW_DIE_STAT_HOT n) 1
    let s := s.set (F.PW_DIE_STAT_LEVEL n) (min 16 (s.get (F.PW_DIE_STAT_LEVEL n)))
    let s : State := { s with pow := { s.pow with tgt := tabSet 64 s.pow.tgt n (min 16 (tabGet 64 s.pow.tgt n)) } }
    (s.stepFor n 3).event 7 11 1 none n 0x3FF [n, point, wrap 64 t]

/-- THERMTRIP_N asserted, the cause latched, the package stopped (R462). -/
def State.thermalTrip (s : State) (point : Nat) : State :=
  if s.pow.trip then s
  else
    let s := (s.set F.PW_TRIP_CAUSE (if point < 288 then 1 else 2)).set F.PW_TRIP_POINT point
    { s.stopPackage with pow := { s.pow with trip := true } }.emit (.thermtrip true)

/-- A die's TEMP, HOT, DEGRADED or band brought up to date after one of its points changed. -/
def State.dieReact (s : State) (d point : Nat) (t : Int) (valid : Bool) : State :=
  let hot := s.hottest d
  let show' := fun (s : State) (f : Fld) => match hot with | some x => s.set f (wrap 8 x) | none => s
  if d < 8 then
    let s := ((show' s (F.PW_DIE_STAT_TEMP d)).set (F.PW_DIE_STAT_DEGRADED d) (b2n (s.dieBad d))).towardsCap d
    if valid ∧ t ≥ 105 then
      { s with pow := { s.pow with ownHot := setIns s.pow.ownHot d } }.setHot d point t else s
  else if 10 ≤ d ∧ d < 22 then
    let m := d - 10
    let s := (show' s (F.MC_STACK_TEMP m)).set (F.MC_STACK_SENSOR_FAULT m) (b2n (s.dieBad d))
    let b : Nat := if s.dieBad d then 2 else (hot.map bandOf).getD 0
    if b > s.get (F.MC_STACK_BAND m) then s.setBand m b else s
  else if valid ∧ t ≥ 105 then
    let s := { s with pow := { s.pow with quayHot := setIns s.pow.quayHot d } }
    s.each ((List.range 4).map (4 * dieQuay d + ·)) fun s n => s.setHot n point t
  else s

/-- A point counts as invalid: DEGRADED or band 2, PW_ERR.SENSOR, an event record (R309, R460). -/
def State.pointInvalid (s : State) (i : Nat) (t : Int) : State :=
  let d := pointDie i
  let s := { s with pow := { s.pow with badPts := setIns s.pow.badPts i, tripRun := tabSet 0 s.pow.tripRun i 0 } }
  let s := (s.set (F.PW_TEMP_VALID i) 0).set F.PW_ERR_SENSOR 1
  let s := if 10 ≤ d ∧ d < 22 then s.event 7 5 5 none (d - 10) 0x3FF [d - 10, (i - 352) % 4]
    else s.event 7 11 2 none i 0x3FF [i, wrap 64 t]
  s.dieReact d i t false

/-- TEMPERATURE_CONVERSION, R460 to R462. The comparators act even while the device is held or unready (R481). -/
def execTemperatureConversion (point : Nat) (t : Int) (s : State) : Out :=
  .next <| if point ≥ 416 ∨ s.boot.phase = .held then s else
    let s := (s.sample 6 point t).set (F.PW_TEMP_TEMP point) (wrap 8 t)
    let s := { s with pow := { s.pow with temps := tabSet 0 s.pow.temps point t } }
    if t < -40 ∨ t > 150 then s.pointInvalid point t
    else
      let k := if t ≥ 110 then tabGet 0 s.pow.tripRun point + 1 else 0
      let s := s.set (F.PW_TEMP_VALID point) 1
      let s := { s with pow := { s.pow with badPts := setDel s.pow.badPts point,
                                            tripRun := tabSet 0 s.pow.tripRun point k } }
      let s := s.dieReact (pointDie point) point t true
      if k ≥ 2 then s.thermalTrip point else s

/-- SENSOR_UPDATE_TIMEOUT, R460. -/
def execSensorUpdateTimeout (point : Nat) (s : State) : Out :=
  .next <| if point < 416 ∧ s.running then s.pointInvalid point (tabGet 0 s.pow.temps point) else s

/-- A compute die's HOT follows its own condition and its Quay's (R461). -/
def State.hotRefresh (s : State) (n : Nat) : State :=
  if s.pow.ownHot.contains n || s.pow.quayHot.any (fun d => dieQuay d == n / 4) then s else s.set (F.PW_DIE_STAT_HOT n) 0

/-- HOT_CLEAR, R461: the die (compute, Quay or I/O) has stayed below 102 °C for 100,000 reference periods. -/
def execHotClear (die : Nat) (s : State) : Out :=
  .next <| if (s.hottest die).any (· ≥ 102) then s
  else if die < 8 then { s with pow := { s.pow with ownHot := setDel s.pow.ownHot die } }.hotRefresh die
  else
    { s with pow := { s.pow with quayHot := setDel s.pow.quayHot die } }.each
      ((List.range 4).map (4 * dieQuay die + ·)) State.hotRefresh

/-! ### Limit registers -/

/-- A write of PW_PKG_LIMIT, by any path (R469). Answers whether it took effect. -/
def State.pkgLimitWrite (s : State) (v : Nat) : State × Bool :=
  let l := v % 4096
  if 1200 ≤ l ∧ l ≤ 2700 then (s.set F.PW_PKG_LIMIT_LIMIT l, true) else (s.set F.PW_ERR_RANGE 1, false)

/-- A write of PW_VTAB (R476). -/
def State.vtabWrite (s : State) (v : Nat) : State × Bool :=
  let a := bits v 9 0
  let b := bits v 19 10
  let c := bits v 29 20
  let d := bits v 39 30
  if a ≤ 900 ∧ b ≤ a ∧ c ≤ b ∧ d ≤ c ∧ 600 ≤ d then (s.setRaw A.PW_VTAB (BitVec.ofNat 64 (v % 2 ^ 40)), true)
  else (s.set F.PW_ERR_RANGE 1, false)

/-- PKG_LIMIT_WRITE, R469. -/
def execPkgLimitWrite (v : BitVec 64) (s : State) : Out :=
  .next <| if s.barOk then (s.pkgLimitWrite v.toNat).1 else s

/-- VTAB_WRITE, R476. -/
def execVtabWrite (v : BitVec 64) (s : State) : Out :=
  .next <| if s.barOk then (s.vtabWrite v.toNat).1 else s

end Sys2Proof.Machine
end

