-- ==== Sys2Proof/Machine/Recorder.lean ====
section
/-! DEFINITION. The event recorder's logs and the counter snapshot (R526 to R536, R563). -/

namespace Sys2Proof.Machine

/-! ### Logs, R529 to R531 -/

/-- A record's 128 bytes in a log, with its position there (R527). -/
def EvRec.bytes (r : EvRec) (idx : Nat) : List Byte :=
  let head := toBytes 4 r.seq ++ toBytes 4 idx ++ toBytes 4 r.snap ++ toBytes 1 (r.kind + 16 * r.cls) ++
    toBytes 1 r.src ++ toBytes 2 r.code ++ toBytes 1 (match r.part with | some p => p % 16 + 16 | none => 0) ++ [0] ++
    toBytes 2 r.unit ++ toBytes 4 (r.ctx % 1024) ++ List.replicate 8 0
  let detail := r.detail.flatMap (toBytes 8)
  head ++ (detail ++ List.replicate 96 0).take 96

def State.logSize (s : State) (l : Nat) : Nat := 2 ^ s.get (F.EV_LOG_CFG_SIZE l)

/-- Records in a log that the reader has not consumed. -/
def State.logUsed (s : State) (l : Nat) : Nat :=
  (s.get (F.EV_LOG_WR_WR l) + 2 ^ 32 - s.get (F.EV_LOG_RD_RD l)) % 2 ^ 32

/-- The function on which a log signals. -/
def State.logFn (s : State) (l : Nat) : Nat := if l = 16 then 0 else s.signalFn l

/-- FULL shown. -/
def State.logFull (s : State) (l : Nat) : State :=
  s.set (F.EV_LOG_STAT_FULL l) (b2n (decide (s.logUsed l = s.logSize l)))

/-- The recorder's own writes at the homes, apart from the front end's by queue. -/
def recUnit : Nat := 4096

/-- One record sent to an enabled log, or counted LOST when the log is full; WR waits for its bytes (R530, R531). -/
def State.logPut (s : State) (l : Nat) (r : EvRec) : State :=
  if s.logUsed l ≥ s.logSize l then s.count (F.EV_LOG_STAT_LOST l) 1
  else
    let n := s.get (F.EV_LOG_WR_WR l)
    let s := s.pokeAs 3 recUnit (s.get (F.EV_LOG_BASE_BASE l) * 4096 + 128 * (n % s.logSize l)) (r.bytes n)
    { s with evr := { s.evr with adv := s.evr.adv ++ [l] } }

/-- WR of a log passes its last record; VEC is signalled for a log that was empty or that is full now. -/
def State.logAdvance (s : State) (l : Nat) : State :=
  let wasEmpty := s.logUsed l == 0
  let s := (s.set (F.EV_LOG_WR_WR l) (s.get (F.EV_LOG_WR_WR l) + 1)).logFull l
  if wasEmpty || s.on (F.EV_LOG_STAT_FULL l) then s.interrupt (s.logFn l) (s.get (F.EV_LOG_CFG_VEC l)) else s

/-- The advance is a release for the record's bytes: it comes once every one of them is written (R245, R530). -/
def State.logRelease (s : State) : State :=
  if s.written 3 recUnit then { s with evr := { s.evr with adv := [] } }.each s.evr.adv State.logAdvance else s

/-- One record written into an enabled log. -/
def State.logWrite (s : State) (l : Nat) (r : EvRec) : State := (s.logPut l r).logRelease

/-- One record for the device log: held on the device, up to 256, while log 16 is not enabled. -/
def State.deviceLog (s : State) (r : EvRec) : State :=
  if s.on (F.EV_LOG_CFG_EN 16) then s.logPut 16 r
  else if s.evr.held.length < 256 then { s with evr := { s.evr with held := s.evr.held ++ [r] } }
  else { s with evr := { s.evr with heldLost := satAdd 32 s.evr.heldLost 1 } }

/-- A record for the log of its partition, when it was made while that log was enabled (R529, R563). -/
def State.partLog (s : State) (r : EvRec) : State :=
  match r.part with
  | some p => if r.toPart && s.on (F.EV_LOG_CFG_EN p) then s.logPut p r else s
  | none => s

/-- EVENT_RECORD_WRITE, R530: the oldest held or queued record goes to the device log and to its partition's log, once the
one before it stands in memory. -/
def execEventRecordWrite (s : State) : Out :=
  .next <|
    let s := s.logRelease
    if s.evr.adv ≠ [] then s
    else
      match s.evr.held with
      | r :: h =>
        if s.on (F.EV_LOG_CFG_EN 16) then ({ s with evr := { s.evr with held := h } }.logPut 16 r).logRelease
        else match s.evr.queue with
          | [] => s
          | r :: q => (({ s with evr := { s.evr with queue := q } }.deviceLog r).partLog r).logRelease
      | [] => match s.evr.queue with
        | [] => s
        | r :: q => (({ s with evr := { s.evr with queue := q } }.deviceLog r).partLog r).logRelease

/-- A function may reach a log's registers: PF0 every log, a VF the log of the partition it is bound to (R529). -/
def State.logAccess (s : State) (func l : Nat) : Bool :=
  s.barOk && (func == 0 || (decide (l < 16) && s.boundTo func l))

/-- The chunk of 1 GiB at index c belongs to partition p (R268). -/
def State.chunkOf (s : State) (c p : Nat) : Bool := s.get (F.CS_HOMEMAP_PART c) == p

/-- The conditions under which EN may be set. -/
def State.logPlaceOk (s : State) (l size : Nat) : Bool :=
  let base := s.get (F.EV_LOG_BASE_BASE l) * 4096
  let len := 128 * 2 ^ size
  decide (6 ≤ size ∧ size ≤ 20) && decide (base % len = 0) && decide (base + len ≤ localTop) &&
  (l == 16 || (s.chunkOf (base / 2 ^ 30) l && s.chunkOf ((base + len - 1) / 2 ^ 30) l))

/-- A write of EV_LOG_CFG, by any path (R529). Answers whether all of it took effect. -/
def State.logCfgWrite (s : State) (l v : Nat) : State × Bool :=
  let size := bits v 4 0
  let en := bit v 8
  let vec := bits v 26 16
  if s.on (F.EV_LOG_CFG_EN l) then
    let ok := size == s.get (F.EV_LOG_CFG_SIZE l)
    let s := (s.set (F.EV_LOG_CFG_VEC l) vec).set (F.EV_LOG_CFG_EN l) (b2n en)
    (if ok then s else s.set (F.EV_LOG_STAT_ERR l) 1, ok)
  else if !en then ((s.set (F.EV_LOG_CFG_SIZE l) size).set (F.EV_LOG_CFG_VEC l) vec, true)
  else if s.logPlaceOk l size then
    let s := ((s.set (F.EV_LOG_CFG_SIZE l) size).set (F.EV_LOG_CFG_VEC l) vec).set (F.EV_LOG_CFG_EN l) 1
    let pre := if l = 16 then s.evr.heldLost else 0
    let s := (((s.set (F.EV_LOG_WR_WR l) 0).set (F.EV_LOG_RD_RD l) 0).set (F.EV_LOG_STAT_LOST l) pre).logFull l
    if l = 16 then
      let held := s.evr.held
      ({ s with evr := { s.evr with held := [], heldLost := 0 } }.each held fun s r =>
        if s.evr.adv = [] then s.logWrite 16 r else { s with evr := { s.evr with held := s.evr.held ++ [r] } }, true)
    else (s, true)
  else (s.set (F.EV_LOG_STAT_ERR l) 1, false)

/-- A write of EV_LOG_BASE (R529). -/
def State.logBaseWrite (s : State) (l v : Nat) : State × Bool :=
  if s.on (F.EV_LOG_CFG_EN l) then (s.set (F.EV_LOG_STAT_ERR l) 1, false)
  else (s.set (F.EV_LOG_BASE_BASE l) (bits v 56 12), true)

/-- A write of EV_LOG_RD: ignored when (WR − RD) mod 2^32 would exceed the log (R529, R531). -/
def State.logRdWrite (s : State) (l v : Nat) : State × Bool :=
  let rd := v % 2 ^ 32
  if (s.get (F.EV_LOG_WR_WR l) + 2 ^ 32 - rd) % 2 ^ 32 > s.logSize l then (s.set (F.EV_LOG_STAT_ERR l) 1, false)
  else ((s.set (F.EV_LOG_RD_RD l) rd).logFull l, true)

/-- LOG_ENABLE_WRITE, R529. -/
def execLogEnableWrite (func l : Nat) (v : BitVec 64) (s : State) : Out :=
  .next <| if l ≤ 16 ∧ s.logAccess func l then (s.logCfgWrite l v.toNat).1 else s

/-- LOG_READ_POINTER_WRITE, R531. -/
def execLogReadPointerWrite (func l : Nat) (v : BitVec 64) (s : State) : Out :=
  .next <| if l ≤ 16 ∧ s.logAccess func l then (s.logRdWrite l v.toNat).1 else s

/-! ### The counter snapshot, R534, R535 -/

/-- The block of a snapshot unit: 0 CS, 1 MC, 2 PU, 3 GF, 4 PT, 5 PW. Units: slices 0–255, memory controllers
256–267, Pumps 268–459, Lighters 460–491, I/O dies 492–493, service ports 494–509, front end 510. -/
def snapBlock (u : Nat) : Nat :=
  if u < 256 then 0 else if u < 268 then 1 else if u < 492 then 2 else if u < 494 then 3 else if u < 510 then 5 else 4

/-- A snapshot unit is in service. -/
def State.snapThere (s : State) (u : Nat) : Bool :=
  if u < 256 then s.slThere u else if u < 268 then true else if u < 460 then !s.isRetired 10 (u - 268)
  else if u < 492 then !s.isRetired 11 (u - 460) else if u < 494 then true
  else if u < 510 then !s.isRetired 12 (u - 494) else u == 510

/-- The Quay of a snapshot unit. -/
def snapQuay (u : Nat) : Nat :=
  if u < 256 then u / 128 else if u < 268 then (u - 256) / 6 else if u < 460 then (u - 268) / 96 else if u < 492 then (u - 460) / 16
  else if u < 494 then u - 492 else if u < 510 then (u - 494) / 8 else 0

/-- A window is on the link that the control class takes to a snapshot unit: the service port of its half, the bundle to its
I/O die, or, on the other Quay than the lead's, the Quay bridge. -/
def State.tokenLink (s : State) (u win : Nat) : Bool :=
  let w := windowUnit win
  (w.1 == 12 && u == 494 + w.2) || (win / 2 ^ 19 == 4 && u == 492 + win / 64 % 2 ^ 13) || (w.1 == 6 && snapQuay u != s.lead)

/-- A substitution is in progress on the link to a snapshot unit: control-class messages wait (R26). -/
def State.tokenWaits (s : State) (u : Nat) : Bool :=
  s.sp.repl.any fun r => r.kind == 0 && s.tokenLink u (wireWindow r.unit)

/-- The SNAPNUM register of a block. -/
def snapNumFld (b : Nat) : Fld :=
  if b = 0 then F.CS_SNAPNUM_NUM else if b = 1 then F.MC_SNAPNUM_NUM else if b = 2 then F.PU_SNAPNUM_NUM
  else if b = 3 then F.GF_SNAPNUM_NUM else if b = 4 then F.PT_SNAPNUM_NUM else F.PW_SNAPNUM_NUM

/-- The live and shadow offsets of a block's counters: base, size in bytes, shadow base (R535). -/
def snapRange (b : Nat) : Nat × Nat × Nat :=
  if b = 0 then (0x330000, 0x1000, 0x340000) else if b = 1 then (0x430000, 0x400, 0x440000)
  else if b = 2 then (0x510000, 0x400, 0x520000) else if b = 3 then (0x720000, 0x400, 0x728000)
  else if b = 4 then (0x2A0000, 0x10000, 0x2B0000) else (0x802000, 0x200, 0x803000)

/-- A block's live counters copied into its shadows: what differs from the reset value is copied, the rest reads 0. -/
def State.shadowCopy (s : State) (b : Nat) : State :=
  let (lo, n, sh) := snapRange b
  let live := s.regs.filter fun e => decide (lo ≤ e.1 ∧ e.1 < lo + n)
  let kept := s.regs.filter fun e => !decide (sh ≤ e.1 ∧ e.1 < sh + n)
  { s with regs := live.foldl (fun t e => tabSet (regReset (e.1 - lo + sh)) t (e.1 - lo + sh) e.2) kept }

/-- A snapshot starts with a new number; every SNAPNUM reads 0 from here (R534). -/
def State.snapStart (s : State) (cmd : Option Nat) : State :=
  let n := if s.evr.snapNum + 1 ≥ 2 ^ 32 then 1 else s.evr.snapNum + 1
  let s := { s with evr := { s.evr with snapNum := n, snapAcks := some [], snapCmd := cmd } }
  (s.each (List.range 6) fun s b => s.set (snapNumFld b) 0).set F.EV_SNAP_BUSY 1

/-- A request of a command: it waits while another snapshot runs. -/
def State.snapRequest (s : State) (cmd : Nat) : State :=
  if s.evr.snapAcks.isSome then { s with evr := { s.evr with snapWait := s.evr.snapWait ++ [cmd] } }
  else s.snapStart (some cmd)

/-- SNAPSHOT_REQUEST, R534: PF0 writes EV_SNAP.GO; ignored while BUSY. -/
def execSnapshotRequest (s : State) : Out :=
  .next <| if s.barOk && !s.on F.EV_SNAP_BUSY then s.snapStart none else s

/-- SNAPSHOT_FREEZE_TOKEN, R534: the unit copies its counters and acknowledges, once the token has passed the substitutions
of its link (R26). -/
def execSnapshotFreezeToken (unit : Nat) (s : State) : Out :=
  .next <| match s.evr.snapAcks with
  | none => s
  | some l => if s.snapThere unit && !l.contains unit && !s.tokenWaits unit then
      { s.shadowCopy (snapBlock unit) with evr := { s.evr with snapAcks := some (setIns l unit) } } else s

/-- The partition of a channel's selector, when it names a queue or a pipeline slot (R533). -/
def State.selPart (s : State) (m sel : Nat) : Option Nat :=
  if m = 1 ∧ sel < 64 then some (s.get (F.SL_PIPE_STAT_PART sel))
  else if m = 2 ∧ sel < 4096 then some (s.get (F.FE_Q_OWN_PART sel)) else none

/-- A channel is enabled: its MEASURE is 1 to 8 (R532). -/
def measureOn (m : Nat) : Bool := decide (1 ≤ m ∧ m ≤ 8)

/-- Two 32-bit bins in each 64-bit word. -/
def packBins (l : List Nat) : List Nat := (List.range 8).map fun i => l.getD (2 * i) 0 + l.getD (2 * i + 1) 0 * 2 ^ 32

/-- The records of R533, and every channel starts again from zero. -/
def State.histRecords (s : State) : State :=
  let s := s.each (List.range 16) fun s h =>
    let m := s.get (F.EV_HIST_MEASURE h)
    let sel := s.get (F.EV_HIST_SEL h)
    let c := (tabFind s.evr.hist h).getD ⟨0, List.replicate 16 0⟩
    if measureOn m then
      s.record 2 8 16 0xFF (s.selPart m sel) h 0x3FF ([h + m * 2 ^ 8 + sel * 2 ^ 16, c.samples] ++ packBins c.bins)
    else s
  let s := s.each (List.range 16) fun s x =>
    let m := s.get (F.EV_EXT_MEASURE x)
    let sel := s.get (F.EV_EXT_SEL x)
    let c := (tabFind s.evr.ext x).getD ⟨0, 0, 0, 0, 0, 0⟩
    if measureOn m then
      s.record 3 8 16 0xFF (s.selPart m sel) x 0x3FF
        [x + m * 2 ^ 8 + sel * 2 ^ 16, c.samples, wrap 64 c.minV, c.minU, wrap 64 c.maxV, c.maxU, c.sum]
    else s
  { s with evr := { s.evr with hist := [], ext := [] } }

/-- Every unit of a block in service is among those that have acknowledged. -/
def State.blockAcked (s : State) (l : List Nat) (b : Nat) : Bool :=
  (List.range 511).all fun u => snapBlock u != b || !s.snapThere u || l.contains u

/-- A snapshot ends with these acknowledgements: SNAPNUM of every block that has them all, the records, NUM, the command,
the next request. -/
def State.snapEnd (s : State) (l : List Nat) (missed : Bool) : State :=
  let n := s.evr.snapNum
  let s := s.each ((List.range 6).filter (s.blockAcked l)) fun s b => s.set (snapNumFld b) n
  let s := s.histRecords
  let s := ((s.set F.EV_SNAP_NUM n).set F.EV_SNAP_BUSY 0).set F.EV_SNAP_INCOMPLETE (b2n missed)
  let done := match s.evr.snapCmd with | some c => tabIns s.evr.snapDone c n | none => s.evr.snapDone
  let s := { s with evr := { s.evr with snapAcks := none, snapCmd := none, snapDone := done } }
  match s.evr.snapWait with
  | [] => s
  | c :: cs => { s with evr := { s.evr with snapWait := cs } }.snapStart (some c)

/-- Every snapshot unit in service has acknowledged. -/
def State.snapAll (s : State) (l : List Nat) : Bool := (List.range 511).all fun u => !s.snapThere u || l.contains u

/-- SNAPSHOT_COMPLETE, R534. -/
def execSnapshotComplete (s : State) : Out :=
  .next <| match s.evr.snapAcks with
  | some l => if s.snapAll l && !l.any s.tokenWaits then s.snapEnd l false else s
  | none => s

/-- SNAPSHOT_ACK_TIMEOUT, R534: the snapshot completes INCOMPLETE with an event record. -/
def execSnapshotAckTimeout (unit : Nat) (s : State) : Out :=
  .next <| match s.evr.snapAcks with
  | some l => if s.snapThere unit && !l.contains unit then
      (s.event 7 16 1 none 0 0x3FF [s.evr.snapNum, unit]).snapEnd l true else s
  | none => s

/-- WEAR_WINDOW_END, R514: every wear count returns to zero. -/
def execWearWindowEnd (s : State) : Out := .next { s with sp := { s.sp with wear := [], acted := [] } }

/-! ### The repair record update, R523, R524 -/

/-- Step 2 of an update: the lead signs the repair state as it stands; a later change is carried by the next update. -/
def State.recSign (s : State) : State :=
  if s.sp.recBusy && s.sp.recCap.isNone && !s.on F.BT_UPD_CTL_BUSY then
    { s with sp := { s.sp with recCap := some s.sp.rep } }.set F.SP_REC_CTL_STATUS 0
  else s

/-- An update is asked for: by PF0 (SP_REC_CTL.GO) or by a change; it waits while BT_UPD_CTL is busy. -/
def State.recStart (s : State) : State :=
  if s.sp.recBusy then s.recSign
  else (({ s with sp := { s.sp with recBusy := true } }.set F.SP_REC_CTL_BUSY 1).set F.SP_REC_CTL_STATUS 3).recSign

/-- REPAIR_RECORD_UPDATE, R523: `host` tells a write of GO from the update after a change. -/
def execRepairRecordUpdate (host : Bool) (s : State) : Out :=
  .next <| if host then (if s.barOk then s.recStart else s)
    else if s.running && s.on F.SP_REC_STAT_DIRTY then s.recStart else s

/-- The bytes of a repair record copy. -/
def State.recordBytes (s : State) (seq : Nat) (ents : Tab RepEnt) (follower : Bool) : List Byte :=
  let body := ents.flatMap repairBytesOf
  let head := toBytes 4 0x50524B43 ++ toBytes 2 1 ++ [0, 0] ++ toBytes 4 seq ++ toBytes 4 ents.length ++
    toBytes 4 (satAdd 32 s.sp.updates 1) ++ List.replicate 44 0
  let dig := Config.sha384 (head ++ body)
  let label : List Byte := [0x52, 0x45, 0x50, 0x41, 0x49, 0x52]
  let mine := match s.boot.seed with
    | some x => Config.ecdsaSign (Config.deriveKey x label []) s.boot.sigCount dig
    | none => List.replicate 96 0
  let other := if follower then Config.ecdsaSign Config.followerKey s.boot.sigCount dig else List.replicate 96 0
  head ++ (if s.lead = 0 then mine ++ other else other ++ mine) ++ body

/-- DETAIL of a sparing record about the record as a whole: the first entry that the update adds or changes, if any, and
the first that it leaves out (R528). -/
def firstChange (ents old : Tab RepEnt) : List Nat :=
  match ents.find? fun e => tabFind old e.1 != some e.2 with
  | some e => entryWords (e.1 / 2 ^ 32) (e.1 % 2 ^ 32) e.2
  | none => []
def firstLeft (t ents : Tab RepEnt) : List Nat :=
  match t.find? fun e => (tabFind ents e.1).isNone with
  | some e => entryWords (e.1 / 2 ^ 32) (e.1 % 2 ^ 32) e.2
  | none => []

/-- A copy of the record is written; where the flash fails its region stays empty (R486). -/
def State.recCopy (s : State) (dev : Nat) (img : List Byte) (ok : Bool) : State :=
  if ok then s.flashWrite dev offRepair 0x100000 img else s.flashErase dev offRepair 0x100000

/-- REPAIR_RECORD_UPDATE_COMPLETE, R523, R524: both copies are signed and written, copy 0 first, and the second only after
the first is good; `follower` tells whether the follower answered, `ok0` and `ok1` whether each flash device took and
read back its copy. A device that is absent has no copy. -/
def execRepairRecordUpdateComplete (follower ok0 ok1 : Bool) (s : State) : Out :=
  .next <|
    let s := s.recSign
    match s.sp.recCap with
    | none => s
    | some t =>
      let seq := s.get F.SP_REC_STAT_SEQ + 1
      let ents := repairFit t
      let full := decide (ents.length < t.length)
      let det := firstChange ents s.sp.inForce
      let fin := fun (s : State) (st : Nat) =>
        ({ s with sp := { s.sp with recBusy := false, recCap := none } }.set F.SP_REC_CTL_BUSY 0).set F.SP_REC_CTL_STATUS st
      let there := s.boot.dev0 || s.boot.dev1
      if !there || decide (seq > 0xFFFFFFFE) then (fin s 2).event 5 13 6 none 0 0x3FF det
      else
        let img := s.recordBytes seq ents follower
        let a := ok0 || !s.boot.dev0
        let s := { s with boot := { s.boot with sigCount := s.boot.sigCount + 1 } }
        let s := if s.boot.dev0 then s.recCopy 0 img ok0 else s
        let s := if a && s.boot.dev1 then s.recCopy 1 img ok1 else s
        let good := a && (ok1 || !s.boot.dev1)
        if !(ok0 && s.boot.dev0) && !(a && ok1 && s.boot.dev1) then (fin s 2).event 5 13 6 none 0 0x3FF det
        else
          let s := { s with sp := { s.sp with inForce := ents, updates := satAdd 32 s.sp.updates 1 }
                            boot := { s.boot with repairUse := img } }
          let s := (((s.set F.SP_REC_STAT_SEQ seq).set F.SP_REC_STAT_NENT ents.length).set F.SP_REC_STAT_DIRTY
            (b2n (decide (s.sp.rep ≠ ents)))).set F.SP_REC_STAT_FULL (b2n full)
          let s := (fin s (if !good then 2 else if follower then 0 else 1)).event 5 13 (if good then 5 else 6) none 0 0x3FF det
          if full then s.event 5 13 7 none 0 0x3FF (firstLeft t ents) else s

end Sys2Proof.Machine
end

