-- ==== Sys2Proof/Machine/CheckValue.lean ====
section
/-! DEFINITION. The check-value unit (R509 to R512). -/

namespace Sys2Proof.Machine

/-- Bytes fed into a channel's running register and counted. -/
def State.cvFeed (s : State) (k : Nat) (l : List Byte) : State :=
  let st := crcFeed (s.get (F.CV_STATE_STATE k)) l
  let s := s.countWrap (F.CV_COUNT_COUNT k) l.length
  (s.set (F.CV_STATE_STATE k) st).set (F.CV_RESULT_RESULT k) (st ^^^ 0xFFFFFFFF)

/-- A write to a channel that is feeding a region is ignored and sets STATUS 3 (R511). -/
def State.cvGuard (s : State) (k : Nat) (f : State → State) : State :=
  if s.on (F.CV_CTL_BUSY k) then s.set (F.CV_CTL_STATUS k) 3 else f s

/-- INIT: STATE to all ones, COUNT to 0 (R510). -/
def State.cvInit (s : State) (k : Nat) : State :=
  ((s.set (F.CV_STATE_STATE k) 0xFFFFFFFF).set (F.CV_RESULT_RESULT k) 0).set (F.CV_COUNT_COUNT k) 0

def State.cvData (s : State) (k : Nat) (wide : Bool) (v : Nat) : State :=
  s.cvGuard k fun s => s.cvFeed k (toBytes (if wide then 8 else 4) v)

def State.cvTail (s : State) (k v : Nat) : State := s.cvGuard k fun s => s.cvFeed k (toBytes (bits v 25 24) v)

def State.cvState (s : State) (k v : Nat) : State :=
  s.cvGuard k fun s => (s.set (F.CV_STATE_STATE k) v).set (F.CV_RESULT_RESULT k) (v % 2 ^ 32 ^^^ 0xFFFFFFFF)

/-- GO: a region that passes local memory feeds nothing and ends with status 1 (R511). -/
def State.cvGo (s : State) (k : Nat) : State :=
  s.cvGuard k fun s =>
    if s.get (F.CV_ADDR_ADDR k) + s.get (F.CV_LEN_LEN k) > localTop then s.set (F.CV_CTL_STATUS k) 1
    else (s.set (F.CV_CTL_STATUS k) 0).set (F.CV_CTL_BUSY k) 1

/-- The bytes of a region before its first poisoned sector, and whether one was met. -/
def State.beforePoison (s : State) (a : Nat) : Nat → List Byte × Bool
  | 0 => ([], false)
  | n + 1 => if s.poisonAt a then ([], true) else
    let r := s.beforePoison (a + 1) n
    (s.peekByte a :: r.1, r.2)

/-- CV_INIT, R510. -/
def execCvInit (k : Nat) (s : State) : Out := .next <| if s.barOk ∧ k < 4 then s.cvInit k else s

/-- CV_REGION_FEED, R511. -/
def execCvRegionFeed (k : Nat) (s : State) : Out := .next <| if s.barOk ∧ k < 4 then s.cvGo k else s

/-- The region read through the Cistern: its lines up to the poisoned sector are charged to their partitions. -/
def State.cvRead (s : State) (a : Nat) (r : List Byte × Bool) : State :=
  let n := r.1.length + b2n r.2
  if n = 0 then s
  else s.each (spanLines a n) fun s l => s.fetched l (s.onlyMem l 15) false

/-- CV_FEED_COMPLETE, R511: a poisoned sector stops the feed with status 2; a line that its home holds is waited for. -/
def execCvFeedComplete (k : Nat) (s : State) : Out :=
  .next <| if k < 4 ∧ s.on (F.CV_CTL_BUSY k) ∧ s.spanReady (s.get (F.CV_ADDR_ADDR k)) (s.get (F.CV_LEN_LEN k)) = true then
    let r := s.beforePoison (s.get (F.CV_ADDR_ADDR k)) (s.get (F.CV_LEN_LEN k))
    let s := ((s.cvRead (s.get (F.CV_ADDR_ADDR k)) r).cvFeed k r.1).set (F.CV_CTL_BUSY k) 0
    if r.2 then s.set (F.CV_CTL_STATUS k) 2 else s
  else s

/-- CV_DATA, R510: a 4- or an 8-byte write. -/
def execCvData (k : Nat) (wide : Bool) (v : BitVec 64) (s : State) : Out :=
  .next <| if s.barOk ∧ k < 4 then s.cvData k wide v.toNat else s

/-- CV_TAIL, R510. -/
def execCvTail (k : Nat) (v : BitVec 64) (s : State) : Out :=
  .next <| if s.barOk ∧ k < 4 then s.cvTail k v.toNat else s

/-- CV_STATE_WRITE, R510. -/
def execCvStateWrite (k : Nat) (v : BitVec 32) (s : State) : Out :=
  .next <| if s.barOk ∧ k < 4 then s.cvState k v.toNat else s

end Sys2Proof.Machine
end

