-- ==== Sys2Proof/Machine/Update.lean ====
section
/-! DEFINITION. Flash updates, the boot lock, ROM recovery, SPDM and the test access port (R486 to R499, R504, R505,
R538, R539, R560). -/

namespace Sys2Proof.Machine

/-! ### Flash updates, R489 to R492 -/

/-- SEQ of a firmware slot; an empty slot has none. -/
def State.fwSeq (s : State) (dev : Nat) : Nat := if s.flashMagic dev offFw = fwMagic then s.flashSeq dev offFw else 0
def State.cfgSeq (s : State) (dev : Nat) : Nat := if s.cfgThere dev offCfg then s.flashSeq dev offCfg else 0
def State.cfgVersion (s : State) (dev : Nat) : Nat :=
  if s.cfgThere dev offCfg then ofBytes (s.flash dev (offCfg + 12) 4) else 0

/-- The status of a rejected firmware image, from the reason of R488 (R507). -/
def fwStatus (r : Nat) : Nat := if r = 0 then 0 else if r = 1 ∨ r = 15 then 1 else if r = 7 then 3 else if r = 8 then 5 else 2

/-- A configuration image with a new SEQ and its CHECK computed again. -/
def cfgWithSeq (l : List Byte) (seq : Nat) : List Byte :=
  let l := patch32 (l.take (cfgLen l)) 8 seq
  patch32 l 16 (crc32c (patch32 l 16 0))

/-- The slot that R503 did not choose, as its device. -/
def State.cfgOther (s : State) : Nat :=
  let src := s.get F.BT_STAT_CFGSRC
  if src = 0 then 1 else if src = 1 then 0 else match s.cfgCurrent with | some d => 1 - d | none => 0

/-- The refusal of a staged owner record: 0 when it is accepted (R492). -/
def State.ownerStatus (s : State) (img : List Byte) : Nat :=
  let o := slice img 0 256
  let cur := s.boot.owner
  if img.length < 352 ∨ !ownerFields o then 1
  else if !ownerSigned o then 2
  else if ownerSeq o ≠ ownerSeq cur + 1 ∨ ownerSeq o > 0xFFFFFFFE ∨ ownerFloor o < ownerFloor cur then 1
  else if ownerOwned cur ∧ !Config.ecdsaVerify (ownerKey cur) (slice img 256 96) (Config.sha384 o) then 2
  else 0

/-- The bytes staged at BT_UPD_ADDR. -/
def State.staged (s : State) : List Byte := s.peek (s.get F.BT_UPD_ADDR_ADDR * 4096) (s.get F.BT_UPD_LEN_LEN)

/-- LEN and the buffer are in range. -/
def State.stagedOk (s : State) : Bool :=
  let n := s.get F.BT_UPD_LEN_LEN
  decide (1 ≤ n ∧ n ≤ 31457280) && decide (s.get F.BT_UPD_ADDR_ADDR * 4096 + n ≤ localTop)

/-- The operation that a GO starts: its target, the checked image and its status. -/
def State.updPlan (s : State) (op : Nat) : FlashOp :=
  let st := s.staged
  let inForce := s.get F.BT_STAT_FWSLOT
  if op = 1 then
    let r := if s.stagedOk then fwStatus (fwCheck st s.boot.owner true) else 1
    let seq := max (s.fwSeq 0) (s.fwSeq 1) + 1
    ⟨1, 1 - inForce, offFw, patch32 (st.take (1024 + bytesAt st 20 4)) 8 seq,
      if r = 0 ∧ seq > 0xFFFFFFFE then 4 else r, st, 0⟩
  else if op = 2 then
    let seq := max (s.cfgSeq 0) (s.cfgSeq 1) + 1
    let r := if !s.stagedOk || !cfgCheck st then 1
      else if bytesAt st 12 4 ≤ max (s.cfgVersion 0) (s.cfgVersion 1) ∨ seq > 0xFFFFFFFE then 4 else 0
    ⟨2, s.cfgOther, offCfg, cfgWithSeq st seq, r, st, 0⟩
  else if op = 3 then ⟨3, 0, offOwner, slice st 0 256, if s.stagedOk then s.ownerStatus st else 1, st, 0⟩
  else
    let d := 1 - inForce
    let r := fwStatus (s.fwReason d (s.flashThere d))
    let seq := max (s.fwSeq 0) (s.fwSeq 1) + 1
    ⟨4, d, offFw, patch32 (s.fwImage d) 8 seq, if r = 0 ∧ seq > 0xFFFFFFFE then 4 else r, [], 0⟩

/-- The bytes of a region's header, written last (R486). -/
def hdrLen (op : Nat) : Nat := if op = 1 ∨ op = 4 then 1024 else if op = 3 then 16 else 64
def regionLen (op : Nat) : Nat := if op = 1 ∨ op = 4 then fwSlotSize else 0x10000

/-- The first stages of a region write: the region erased and everything but the header programmed. -/
def State.flashBegin (s : State) (o : FlashOp) : State :=
  (s.flashErase o.dev o.off (regionLen o.op)).flashProg o.dev (o.off + hdrLen o.op) (o.image.drop (hdrLen o.op))

/-- A GO of BT_UPD_CTL with an operation (R489); a flash write of CONFIG_SELECT holds it off as another operation does. -/
def State.updGo (s : State) (op : Nat) : State :=
  let s := s.set F.BT_UPD_CTL_OP op
  if s.on F.BT_UPD_CTL_BUSY || s.boot.upd.isSome then s.set F.BT_UPD_CTL_STATUS 7
  else if s.on F.BT_STAT_LOCK && !s.on F.BT_POLICY_UPDEN then s.set F.BT_UPD_CTL_STATUS 6
  else if op = 0 ∨ 4 < op then s.set F.BT_UPD_CTL_STATUS 1
  else
    let o := s.updPlan op
    let there := s.flashThere o.dev || (op = 3 && s.flashThere 1)
    let o := if o.status = 0 ∧ !there then { o with status := 5 } else o
    let s := { s with boot := { s.boot with upd := some o } }.set F.BT_UPD_CTL_BUSY 1
    if o.status = 0 then s.flashBegin o else s

/-- FIRMWARE_UPDATE, R489 OP 1. -/
def execFirmwareUpdate (s : State) : Out := .next <| if s.barOk then s.updGo 1 else s
/-- CONFIGURATION_UPDATE, R489 OP 2. -/
def execConfigurationUpdate (s : State) : Out := .next <| if s.barOk then s.updGo 2 else s
/-- OWNER_RECORD_UPDATE, R492. -/
def execOwnerRecordUpdate (s : State) : Out := .next <| if s.barOk then s.updGo 3 else s
/-- OTHER_FIRMWARE_SLOT, R489 OP 4. -/
def execOtherFirmwareSlot (s : State) : Out := .next <| if s.barOk then s.updGo 4 else s

/-- A flash operation that passed its checks ends: the header is written last, or the region stays empty (R486). -/
def State.flashEnd (s : State) (o : FlashOp) (ok : Bool) : State :=
  if !ok then s.flashErase o.dev o.off (regionLen o.op)
  else
    let s := s.flashProg o.dev o.off (o.image.take (hdrLen o.op))
    if o.op = 3 then s.flashWrite 1 offOwner 0x10000 o.image else s

/-- FLASH_UPDATE_COMPLETE, R489, R504: `flashOk` tells whether the flash took and read back the writes. A changed
staging buffer ends in status 5 with the region empty. -/
def execFlashUpdateComplete (flashOk : Bool) (s : State) : Out :=
  .next <| match s.boot.upd with
  | none => s
  | some o =>
    let same := o.staged.isEmpty || s.staged == o.staged
    let ok := flashOk && same
    let s := { s with boot := { s.boot with upd := none } }
    if o.op = 8 then
      let s := s.flashEnd o flashOk
      { s with boot := { s.boot with selDone := tabIns s.boot.selDone o.cmd (if flashOk then 1 else 2) } }
    else
      let fin := fun (s : State) (st : Nat) => (s.set F.BT_UPD_CTL_BUSY 0).set F.BT_UPD_CTL_STATUS st
      if o.status ≠ 0 then fin s o.status else fin (s.flashEnd o ok) (if ok then 0 else 5)

/-! ### The boot lock, R505 -/

def State.lockBoot (s : State) : State := (s.set F.BT_STAT_LOCK 1).set F.BT_LOCK_SET 1

/-- BOOT_LOCK_SET, R505. -/
def execBootLockSet (s : State) : Out := .next <| if s.barOk then s.lockBoot else s

/-! ### ROM recovery over I3C, R494 -/

/-- Mask ROM serves recovery. -/
def State.inRecovery (s : State) : Bool := match s.boot.phase with | .recovery _ => !s.boot.stopped | _ => false

/-- RECOVERY_WRITE, R494. -/
def execRecoveryWrite (off : Nat) (data : List Byte) (wellFormed flashOk : Bool) (s : State) : Out :=
  .next <| if !s.inRecovery then s
  else if !wellFormed || data.isEmpty || decide (data.length > 48) then s.emit (.i3c [1])
  else if off + data.length > fwSlotSize then s.emit (.i3c [2])
  else if !flashOk || !s.boot.dev0 then s.emit (.i3c [3])
  else
    let s := if s.boot.recErased then s else
      { s.flashErase 0 offFw fwSlotSize with boot := { (s.flashErase 0 offFw fwSlotSize).boot with recErased := true } }
    let hdr := (List.range data.length).foldl (fun t i =>
      if off + i < 1024 then tabIns t (off + i) (data.getD i 0) else t) s.boot.recHdr
    let s := { s with boot := { s.boot with recHdr := hdr } }
    let skip := 1024 - off
    (s.flashProg 0 (offFw + off + skip) (data.drop skip)).emit (.i3c [0])

/-- RECOVERY_FINISH, R494: the held header bytes are written last. -/
def execRecoveryFinish (wellFormed flashOk : Bool) (s : State) : Out :=
  .next <| if !s.inRecovery then s
  else if !wellFormed then s.emit (.i3c [1])
  else if !flashOk || !s.boot.dev0 then s.emit (.i3c [3])
  else
    let s := s.each s.boot.recHdr fun s e => s.flashProg 0 (offFw + e.1) [e.2]
    { s with boot := { s.boot with recHdr := [] } }.emit (.i3c [0])

/-- RECOVERY_STATUS, R494, R481: STEP and REASON, also from a device that stays unready. -/
def execRecoveryStatus (wellFormed : Bool) (s : State) : Out :=
  .next <| match s.boot.phase with
  | .recovery r => if wellFormed then s.emit (.i3c [0, 4, BitVec.ofNat 8 r]) else s.emit (.i3c [1])
  | .unready n r => if wellFormed then s.emit (.i3c [0, BitVec.ofNat 8 n, BitVec.ofNat 8 r]) else s.emit (.i3c [1])
  | _ => s

/-- MCTP_REASSEMBLY_TIMEOUT, R560: the partial message is discarded. -/
def execMctpReassemblyTimeout (s : State) : Out :=
  .next { s with mgmt := { s.mgmt with mctp := [] } }

/-- DYNAMIC_ADDRESS_ASSIGNMENT, R560: ENTDAA or SETDASA gives a 7-bit address. -/
def execDynamicAddressAssignment (addr : Nat) (s : State) : Out :=
  .next <| if addr < 128 ∧ s.running then { s with mgmt := { s.mgmt with i3cAddr := some addr } } else s

/-! ### SPDM, R497 to R499 -/

/-- The binding answers: I3C when BT_POLICY.SPDMI3C is set, from step 4; DOE on PF0 from READY and on each VF while VF
Enable is set. -/
def State.spdmOn (s : State) : SpdmBind → Bool
  | .i3c => s.on F.BT_POLICY_SPDMI3C && s.running && s.boot.phase != .running 1 && s.boot.phase != .running 2 &&
      s.boot.phase != .running 3
  | .doe f => s.barOk && (f == 0 || (s.host.vfEn && decide (f < 64)))

/-- A response on its binding: SPDM version 1.3, response code, two parameters, contents. -/
def State.spdm (s : State) (b : SpdmBind) (code p1 p2 : Nat) (l : List Byte) : State :=
  let m := [(0x13 : Byte), BitVec.ofNat 8 code, BitVec.ofNat 8 p1, BitVec.ofNat 8 p2] ++ l
  match b with
  | .i3c => s.emit (.i3c m)
  | .doe f => s.emit (.doe f m)

/-- An answer, or the ERROR of Unspecified when no identity exists (R497). -/
def State.spdmAnswer (s : State) (b : SpdmBind) (ident : Bool) (f : State → State) : State :=
  if !s.spdmOn b then s else if ident && s.on F.BT_STAT_IDFAIL then s.spdm b 0x7F 5 0 [] else f s

/-- The private keys of R496. -/
def State.deviceKey (s : State) : List Byte :=
  Config.deriveKey (s.boot.seed.getD []) [0x44, 0x45, 0x56, 0x49, 0x44] []
def State.aliasKey (s : State) : List Byte :=
  Config.deriveKey (s.boot.seed.getD []) [0x41, 0x4C, 0x49, 0x41, 0x53]
    (s.boot.bodyHash ++ toBytes 2 (s.get F.BT_FW_SVN))

/-- The certificates of slot 0: the vendor root, the DeviceID certificate of the lead from the identity record in use, and
the Alias certificate signed by the DeviceID key (R495 to R497). -/
def State.certChain (s : State) : List Byte :=
  Config.rootCertificate ++
    (match s.identDev with
     | some d => s.flash d (offIdent + 0x4000 + 0x2000 * s.lead) 0x2000
     | none => []) ++
    Config.certificate (Config.publicKey s.aliasKey) s.deviceKey

/-- A signature by the Alias key: one more nonce is drawn. -/
def State.aliasSign (s : State) (msg : List Byte) : List Byte × State :=
  (Config.ecdsaSign s.aliasKey s.boot.sigCount (Config.sha384 msg),
    { s with boot := { s.boot with sigCount := s.boot.sigCount + 1 } })

/-- GET_VERSION, R497: answered even without an identity. -/
def execGetVersion (b : SpdmBind) (req : List Byte) (s : State) : Out :=
  .next (s.spdmAnswer b false fun s => s.spdm b 0x04 0 0 ([0, 1, 0, 0x13]))

/-- GET_CAPABILITIES, R497: CTExponent 20; certificates, challenge and signed measurements supported. -/
def execGetCapabilities (b : SpdmBind) (req : List Byte) (s : State) : Out :=
  .next (s.spdmAnswer b false fun s => s.spdm b 0x61 0 0 ([0, 20, 0, 0, 0x16, 0, 0, 0]))

/-- NEGOTIATE_ALGORITHMS, R497: ECDSA P-384, SHA-384, DMTF measurements. -/
def execNegotiateAlgorithms (b : SpdmBind) (req : List Byte) (s : State) : Out :=
  .next (s.spdmAnswer b true fun s =>
    s.spdm b 0x63 0 0 ([1, 0] ++ toBytes 4 4 ++ toBytes 4 0x80 ++ toBytes 4 2))

/-- GET_DIGESTS, R497: slot 0 alone holds a chain. -/
def execGetDigests (b : SpdmBind) (req : List Byte) (s : State) : Out :=
  .next (s.spdmAnswer b true fun s => s.spdm b 0x01 0 1 (Config.sha384 s.certChain))

/-- GET_CERTIFICATE, R497: a portion of the slot 0 chain. -/
def execGetCertificate (b : SpdmBind) (off len : Nat) (req : List Byte) (s : State) : Out :=
  .next (s.spdmAnswer b true fun s =>
    let part := slice s.certChain off len
    s.spdm b 0x02 0 0 (toBytes 2 part.length ++ toBytes 2 (s.certChain.length - off - part.length) ++ part))

/-- CHALLENGE, R497: the chain's digest, the nonce and the request signed with the Alias key; other slots hold none. -/
def execChallenge (b : SpdmBind) (slot : Nat) (nonce req : List Byte) (s : State) : Out :=
  .next (s.spdmAnswer b true fun s =>
    if slot ≠ 0 then s.spdm b 0x7F 1 0 []
    else
      let msg := Config.sha384 s.certChain ++ nonce
      let r := s.aliasSign (req ++ msg)
      r.2.spdm b 0x03 0 1 (msg ++ r.1))

/-- The configuration bytes that measurement 4 covers, CHECK taken as 0 (R499). -/
def State.cfgMeasured (s : State) : List Byte := patch32 s.boot.cfgBytes 16 0

/-- One measurement's contents (R498). -/
def State.measurement (s : State) (i : Nat) : List Byte :=
  if i = 1 then Config.romDigest
  else if i = 2 then s.boot.bodyHash ++ toBytes 4 (s.get F.BT_FW_VERSION) ++ toBytes 2 (s.get F.BT_FW_SVN) ++
    toBytes 1 (s.get F.BT_STAT_FWSLOT)
  else if i = 3 then Config.sha384 (slice s.boot.owner 0 112) ++ toBytes 1 (bytesAt s.boot.owner 6 2) ++
    toBytes 2 (ownerFloor s.boot.owner)
  else if i = 4 then Config.sha384 s.cfgMeasured ++ toBytes 4 (s.get F.BT_CFG_VERSION) ++
    toBytes 1 (s.get F.BT_STAT_CFGSRC) ++ toBytes 1 (s.get F.BT_STAT_CFGFALL)
  else if i = 5 then
    (if s.boot.repairUse.isEmpty then List.replicate 48 0 else Config.sha384 s.boot.repairUse) ++
    toBytes 1 (s.get F.BT_STAT_RECFAIL)
  else toBytes 1 s.lead ++ toBytes 1 (s.get F.BT_STAT_LOCK) ++ toBytes 8 (s.raw A.BT_POLICY).toNat ++
    toBytes 1 (s.get F.BT_STAT_IDFAIL)

/-- The indices that a request's operation names: 0 the count, 255 all (R498). -/
def measureList (op : Nat) : List Nat := if op = 255 then [1, 2, 3, 4, 5, 6] else if 1 ≤ op ∧ op ≤ 6 then [op] else []

/-- GET_MEASUREMENTS, R498. -/
def execGetMeasurements (b : SpdmBind) (op : Nat) (signed : Bool) (nonce req : List Byte) (s : State) : Out :=
  .next (s.spdmAnswer b true fun s =>
    if op ≠ 0 ∧ (measureList op).isEmpty then s.spdm b 0x7F 1 0 []
    else
      let blocks := (measureList op).flatMap fun i => toBytes 1 i ++ toBytes 2 (s.measurement i).length ++ s.measurement i
      if signed then
        let r := s.aliasSign (req ++ blocks ++ nonce)
        r.2.spdm b 0x60 (if op = 0 then 6 else 0) 0 (blocks ++ nonce ++ r.1)
      else s.spdm b 0x60 (if op = 0 then 6 else 0) 0 (blocks ++ nonce))

/-- SPDM_UNSUPPORTED_REQUEST, R497: UnsupportedRequest, or InvalidRequest for a malformed request. -/
def execSpdmUnsupportedRequest (b : SpdmBind) (malformed : Bool) (req : List Byte) (s : State) : Out :=
  .next (s.spdmAnswer b true fun s => s.spdm b 0x7F (if malformed then 1 else 7) 0 [])

/-! ### The test access port, R538, R539 -/

/-- The port works from PWR_GOOD onward, and not while TRST_N resets it (R538, R556). -/
def State.tapOk (s : State) : Bool := s.powerOk && !s.pinFilt .trst

/-- An instruction of the test hold is in order. -/
def State.tapHold (s : State) : Bool := s.testHold && !s.pinFilt .trst

/-- The bypass register: one bit, captured as 0. -/
def State.tapBypass (s : State) (tdi : List Bool) : State :=
  { s with tap := { s.tap with ir := 0xFF, drive := false } }.emit (.tdo ((false :: tdi).take tdi.length))

/-- BYPASS, R538. -/
def execBypass (tdi : List Bool) (s : State) : Out := .next <| if s.tapOk then s.tapBypass tdi else s

/-- The IDCODE register, bit 0 first. -/
def idcode : Nat := Config.siliconVersion.toNat * 2 ^ 28 + 0x482556B
def idcodeBits : List Bool := (List.range 32).map fun i => bit idcode i

/-- IDCODE, R538. -/
def execIdcode (tdi : List Bool) (s : State) : Out :=
  .next <| if s.tapOk then
    { s with tap := { s.tap with ir := 0x01, drive := false } }.emit (.tdo ((idcodeBits ++ tdi).take tdi.length)) else s

/-- SAMPLE_PRELOAD, R538: the lands are captured and shifted out, the boundary register is loaded. -/
def execSamplePreload (pins load : List Bool) (s : State) : Out :=
  .next <| if s.tapOk then
    { s with tap := { s.tap with ir := 0x02, boundary := load, drive := false } }.emit (.tdo pins) else s

/-- EXTEST, R538: the boundary register drives the lands, during the test hold only; elsewhere it acts as BYPASS. -/
def execExtest (pins load : List Bool) (s : State) : Out :=
  .next <| if s.tapHold then
    ({ s with tap := { s.tap with ir := 0x03, boundary := load, drive := true } }.emit (.tdo pins)).emit
      (.boundary 0x03 load)
  else if s.tapOk then s.tapBypass load else s

/-- CLAMP, R538: the boundary register keeps driving the lands, the bypass register is in the path. -/
def execClamp (tdi : List Bool) (s : State) : Out :=
  .next <| if s.tapHold then
    ({ s with tap := { s.tap with ir := 0x04, drive := true } }.emit (.boundary 0x04 s.tap.boundary)).emit
      (.tdo ((false :: tdi).take tdi.length))
  else if s.tapOk then s.tapBypass tdi else s

/-- HIGHZ, R538: no land is driven. -/
def execHighz (tdi : List Bool) (s : State) : Out :=
  .next <| if s.tapHold then
    ({ s with tap := { s.tap with ir := 0x05, drive := false } }.emit (.boundary 0x05 [])).emit
      (.tdo ((false :: tdi).take tdi.length))
  else if s.tapOk then s.tapBypass tdi else s

/-- Die i of the chain order of R539 is a compute die: its number. -/
def chainCompute (i : Nat) : Option Nat :=
  if 1 ≤ i ∧ i ≤ 4 then some (i - 1) else if 13 ≤ i ∧ i ≤ 16 then some (i - 9) else none

/-- A die can be selected: its service path works, and of a compute die one half is in service (R539). -/
def State.selectable (s : State) (i : Nat) : Bool :=
  !s.boot.noPath.contains i &&
  match chainCompute i with
  | some n => !(s.isRetired 12 (2 * n) && s.isRetired 12 (2 * n + 1))
  | none => true

/-- The dies selected that can be. -/
def State.selected (s : State) : BitVec 24 :=
  s.tap.sel &&& BitVec.ofNat 24 (((List.range 24).map fun i => b2n (s.selectable i) * 2 ^ i).sum)

/-- DIESEL, R539: the bits of dies that cannot be selected read 0 and ignore writes. -/
def execDiesel (sel : BitVec 24) (s : State) : Out :=
  .next <| if s.tapOk then
    let t : State := { s with tap := { s.tap with ir := 0x10, sel := sel, drive := false } }
    { t with tap := { t.tap with sel := t.selected } }.emit (.tdo ((List.range 24).map fun i => s.selected.getLsbD i))
  else s

end Sys2Proof.Machine
end

