-- ==== Sys2Proof/Machine/Queue.lean ====
section
/-! DEFINITION. Queues: their states, doorbells, completion records, the head shadow, guilty resets, and the completion of
commands (R353 to R360, R367, R377 to R385). -/

namespace Sys2Proof.Machine

/-! ### Queue state -/

def State.qFunc (s : State) (q : Nat) : Nat := s.get (F.FE_Q_OWN_FUNC q)
def State.genOf (s : State) (v : Nat) : Nat := s.get (F.PT_FN_GEN v)

/-- The queue's fault vector is signalled. -/
def State.fvec (s : State) (q : Nat) : State := s.interrupt (s.qFunc q) (s.get (F.FE_Q_VEC_FVEC q))

/-- The event record of a queue that stops or is reset (R566). -/
def State.qEvent (s : State) (q cls : Nat) : State :=
  s.event cls 8 (0x100 + s.get (F.FE_Q_STAT_CAUSE q)) (some (s.qPart q)) q (s.qCtx q)
    [q, s.get (F.FE_Q_STAT_CAUSE q), s.get (F.FE_Q_STAT_FCODE q), s.get (F.FE_Q_STAT_HELD q)]

/-- A front-end fault of a queue is recorded with AGENT 3 and CTX 0x3FF (R63). -/
def State.qFault (s : State) (q : Nat) (x : Stop) : State :=
  s.fault 9 { code := x.code, level := x.level, write := x.write, agent := 3, unit := q, ctx := 0x3FF, part := s.qPart q
              va := x.va, pa := x.pa }

/-- The queue goes to STOPPED (R381). -/
def State.qStop (s : State) (q cause code : Nat) : State :=
  let s := (s.set (F.FE_Q_STAT_STATE q) 2).set (F.FE_Q_STAT_CAUSE q) cause
  ((s.set (F.FE_Q_STAT_FCODE q) code).qEvent q 9).fvec q

/-! ### The completion ring, R377 to R379, R382 -/

def State.cqSize (s : State) (q : Nat) : Nat := 2 ^ s.get (F.FE_Q_CFG_CQSIZE q)
/-- Records written and not known to be consumed. -/
def State.cqUsed (s : State) (q : Nat) : Nat :=
  (s.get (F.FE_Q_CQPTR_WRITTEN q) + 2 ^ 32 - s.get (F.FE_Q_CQPTR_HOSTHEAD q)) % 2 ^ 32
/-- Known free entries of the completion ring. -/
def State.cqSpace (s : State) (q : Nat) : Nat := s.cqSize q - s.cqUsed q

def State.heldOf (s : State) (q : Nat) : List Rec := tabGet [] s.fe.held q
/-- The records held by a queue, and HELD with them. -/
def State.setHeld (s : State) (q : Nat) (l : List Rec) : State :=
  let s : State := { s with fe := { s.fe with held := tabSet [] s.fe.held q l } }
  s.set (F.FE_Q_STAT_HELD q) l.length

/-- The 32 bytes of a record. -/
def Rec.bytes (r : Rec) (q phase : Nat) : List Byte :=
  toBytes 6 r.seq ++ toBytes 2 (q + phase * 2 ^ 15) ++ toBytes 2 r.gen ++ toBytes 1 r.epoch ++ toBytes 1 r.status ++
  toBytes 2 r.place ++ toBytes 2 r.source ++ toBytes 8 r.result ++ toBytes 8 r.user

/-- The phase of the next record: 1 on the first pass, then alternating. -/
def State.phase (s : State) (q : Nat) : Nat := 1 - s.get (F.FE_Q_CQPTR_WRITTEN q) / s.cqSize q % 2

/-- A record written to the ring, and CVEC after it; or what stopped the write. With every module of the link retired no
record can be written (R34); the code, one of a posted write's, is free. -/
def State.writeRec (s : State) (q : Nat) (r : Rec) : State × Option Stop :=
  let w := s.get (F.FE_Q_CQPTR_WRITTEN q)
  let pa := s.get (F.FE_Q_CQ_BASE q) * 4096 + 32 * (w % s.cqSize q)
  if (s.exitQuay 0).isNone then ((s.draw).2, some { code := 0x10 + (s.draw).1.toNat % 4, write := true, pa := pa })
  else match s.hwinCheck (s.qPart q) true pa with
  | 0 =>
    let s := s.hostPost 0 pa (r.bytes q (s.phase q))
    let s := s.set (F.FE_Q_CQPTR_WRITTEN q) (w + 1)
    let s : State := { s with fe := { s.fe with last := tabIns s.fe.last q r } }
    (if r.irq then s.interrupt (s.qFunc q) (s.get (F.FE_Q_VEC_CVEC q)) else s, none)
  | c => (s, some { code := c, write := true, pa := pa })

/-- A record could not be written: the fault is recorded; an ACTIVE or STOPPED queue is STOPPED with CAUSE 2. DESIGN CHOICE: a
DRAINING one stays so and keeps its CAUSE, R381 having that move from ACTIVE alone (R382). -/
def State.recFault (s : State) (q : Nat) (x : Stop) : State :=
  let s := s.qFault q x
  if s.qState q = 1 ∨ s.qState q = 2 then s.qStop q 2 x.code
  else s.set (F.FE_Q_STAT_FCODE q) x.code

/-- Held records written oldest first within the known space, at most n, those of an earlier GEN discarded (R406); true when
no write faulted. -/
def State.flushHeld (s : State) (q : Nat) : Nat → State × Bool
  | 0 => (s, true)
  | n + 1 =>
    match s.heldOf q with
    | [] => (s, true)
    | r :: l =>
      if r.gen ≠ s.genOf (s.qFunc q) then (s.setHeld q l).flushHeld q n
      else if s.cqSpace q = 0 then (s, true)
      else
        match s.writeRec q r with
        | (s, none) => (s.setHeld q l).flushHeld q n
        | (s, some x) => (s.recFault q x, false)

/-- Records may be written in this state: not while STOPPED because a record could not be. -/
def State.canWrite (s : State) (q : Nat) : Bool :=
  s.qState q == 1 || s.qState q == 4 || (s.qState q == 2 && s.get (F.FE_Q_STAT_CAUSE q) != 2)

/-! ### Guilty resets, R381, R385 -/

/-- A queue enters RESETTING: unstarted commands go. -/
def State.toReset (s : State) (q cause : Nat) : State :=
  let s := (s.set (F.FE_Q_STAT_STATE q) 3).set (F.FE_Q_STAT_CAUSE q) cause
  s.setCmds (s.fe.cmds.filter fun c => !(c.queue == q && !c.started))

/-- A queue becomes guilty: its context is torn down, and the other queues of the context follow with CAUSE 7. -/
def State.guilty (s : State) (q cause : Nat) : State :=
  if s.qState q = 0 ∨ s.qState q = 3 then s
  else
    let s := s.toReset q cause
    let c := s.qCtx q
    let s := s.each ((s.ctxQueues c).filter fun o => o != q && (s.qState o == 1 || s.qState o == 2)) fun s o => s.toReset o 7
    s.tear c 4 0 0

/-- A record joins the store of held records; without room the queue is guilty (R382, R383). -/
def State.hold (s : State) (q : Nat) (r : Rec) : State :=
  if 64 ≤ (s.heldOf q).length then s.guilty q 5 else s.setHeld q (s.heldOf q ++ [r])

/-- A record is due: written when the ring has room and nothing is held before it, or held. -/
def State.recDeliver (s : State) (q : Nat) (r : Rec) : State :=
  if s.canWrite q && s.heldOf q == [] && decide (0 < s.cqSpace q) then
    match s.writeRec q r with
    | (s, none) => s
    | (s, some x) => (s.recFault q x).hold q r
  else s.hold q r

/-! ### Completion of commands, R364, R367, R368, R380 -/

/-- The commands of the same level of ring, buffer or graph. -/
def State.level (s : State) (c : Cmd) : List Cmd :=
  s.fe.cmds.filter fun d => d.queue == c.queue && d.parent == c.parent

/-- The commands before this one in its level that have not completed. -/
def State.earlier (s : State) (c : Cmd) : List Cmd := (s.level c).takeWhile fun d => d.id != c.id

/-- The ring command that contains a command, and the entry at the first level below the ring; n bounds the depth. -/
def State.ringOf (s : State) (c : Cmd) : Nat → Cmd × Nat
  | 0 => (c, 0)
  | n + 1 =>
    match c.parent with
    | none => (c, 0)
    | some p =>
      match s.cmd p with
      | none => (c, 0)
      | some d => if d.parent = none then (d, c.index) else s.ringOf d n

/-- DONE of a queue: the lowest sequence number of a ring command that has not completed, or NEXT (R354). -/
def State.setDone (s : State) (q : Nat) : State :=
  let d := s.get (F.FE_Q_DONE_DONE q)
  let dist := fun x => (x + 2 ^ 48 - d) % 2 ^ 48
  let l := (s.fe.cmds.filter fun c => c.queue == q && c.parent == none).map fun c => dist c.seq
  s.set (F.FE_Q_DONE_DONE q) (d + l.foldl min (dist (s.get (F.FE_Q_SEQ_NEXT q))))

/-- Codes that stop the queue (R380). -/
def stopsQueue (code source : Nat) : Bool :=
  (decide (0x50 ≤ code ∧ code ≤ 0x59)) || code == 0x5E || (decide (1 ≤ code ∧ code ≤ 0x15) && source == 0)

def Cmd.nocr (c : Cmd) : Bool := bit (bytesAt c.entry 1 1) 2
def Cmd.irq (c : Cmd) : Bool := bit (bytesAt c.entry 1 1) 3
def Cmd.np (c : Cmd) : Bool := bit (bytesAt c.entry 1 1) 4
def Cmd.user (c : Cmd) : Nat := bytesAt c.entry 8 8
/-- COND_ELSE, COND_END and LOOP_END. -/
def Cmd.marker (c : Cmd) : Bool := [0x0D, 0x0E, 0x10].contains c.op
/-- The command has a record due (R361). -/
def Cmd.due (c : Cmd) : Bool := c.status != 0 || (!c.marker && !c.nocr)
def Cmd.record (c : Cmd) : Rec := ⟨c.seq, c.gen, c.epoch, c.status, c.place, c.source, c.result, c.user, c.irq⟩

/-- A DRAINING queue with no started command goes OFF: held records are written or discarded, FVEC follows. -/
def State.drainEnd (s : State) (q : Nat) : State :=
  if s.qState q = 4 ∧ !(s.fe.cmds.any fun c => c.queue == q && c.started) = true then
    let s := (s.flushHeld q 64).1
    let s := (s.setHeld q []).set (F.FE_Q_STAT_STATE q) 0
    let s : State := { s with fe := { s.fe with nests := tabDel s.fe.nests q } }
    s.fvec q
  else s

/-- A ring command is over: its record, then the stop that its status asks for. -/
def State.ringEnd (s : State) (c : Cmd) : State :=
  let q := c.queue
  let s := (s.setCmds (s.fe.cmds.filter fun d => d.id != c.id)).setDone q
  let s := if c.started then s.sampleTime 2 q else s
  let live := c.epoch == s.get (F.FE_Q_STAT_EPOCH q) && c.gen == s.genOf (s.qFunc q) && s.qState q != 0 && s.qState q != 3
  let s := if c.due && live then s.recDeliver q c.record else s
  let s := if s.qState q = 1 ∧ stopsQueue c.status c.source = true then s.qStop q 1 c.status else s
  s.drainEnd q

/-- A status arises inside a CALL or LAUNCH_GRAPH: it starts nothing more, and its unstarted commands go (R368). -/
def State.innerStop (s : State) (p status source index : Nat) : State :=
  let s := s.updCmd p fun d =>
    { d with stopping := true, status := if d.status = 0 then status else d.status
             source := if d.status = 0 then source else d.source, place := if d.status = 0 then index else d.place }
  s.setCmds (s.fe.cmds.filter fun d => !(d.parent == some p && !d.started && !d.ended))

/-! ### Stored graphs: pins, versions and patches, R373 to R376, R567 -/

/-- The key of a graph of a partition. -/
def graphKey (p g : Nat) : Nat := p * 1024 + g % 1024

/-- The address of a unit of a partition's graph store. -/
def State.graphUnit (s : State) (p u : Nat) : Nat := s.get (F.FE_GSTORE_BASE p) * 65536 + 4096 * u

/-- The address of a buffer of a graph. -/
def State.graphBuf (s : State) (key : Nat) (g : Graph) (b : Nat) : Nat :=
  s.graphUnit (key / 1024) (if b = 0 then g.run0 else g.run1)

/-- A launch pins the version in a buffer of a graph. -/
def State.pinned (s : State) (key b : Nat) : Bool := s.fe.cmds.any fun c => c.graph == some (key, b)
def State.pins (s : State) (key : Nat) : Nat := (s.fe.cmds.filter fun c => c.graph.any fun g => g.1 == key).length

def State.graphDefined (s : State) (key : Nat) : Bool := s.on (F.FE_GRAPH_DEFINED (key / 1024) (key % 1024))
def State.graphEntries (s : State) (key : Nat) : Nat := s.get (F.FE_GRAPH_ENTRIES (key / 1024) (key % 1024))

/-- The offsets of a patch's pairs in its entries: NPAIR of them. -/
def patchPairs (n : Nat) : List Nat := ([24, 40] ++ (List.range 12).map fun i => 64 + 16 * i).take n

/-- A PATCH_GRAPH command of ACTION 1 that has started and waits. -/
def Cmd.patching (c : Cmd) : Bool := c.op == 0x04 && bits (c.word 16) 17 16 == 1 && c.started && !c.ended

/-- The words of a patch written into a buffer at address a. -/
def State.patchWords (s : State) (c : Cmd) (a : Nat) : State :=
  s.each (patchPairs (bits (c.word 16) 51 48)) fun s o => s.pokeAs 3 c.queue (a + bits (c.word o) 31 0) (toBytes 8 (c.word (o + 8)))

/-- A patch goes ahead unless both versions are pinned (R376), and ends once what it writes is performed (R259). -/
def State.patchTry (s : State) (c : Cmd) (key : Nat) (g : Graph) : State :=
  let cur := s.pinned key g.cur
  if cur && s.pinned key (1 - g.cur) then s
  else
    let b := if cur then 1 - g.cur else g.cur
    let t := if cur then s.pokeAs 3 c.queue (s.graphBuf key g b) (s.peek (s.graphBuf key g g.cur) (64 * s.graphEntries key)) else s
    let t := t.patchWords c (s.graphBuf key g b)
    if t.written 3 c.queue = false then s
    else
      let t : State := { t with fe := { t.fe with graphs := tabIns t.fe.graphs key { g with cur := b } } }
      let f := F.FE_GRAPH_CURVER (key / 1024) (key % 1024)
      let t := t.set f (t.get f + 1)
      t.endCmd c.id 0 0 (t.get f)

/-- LIVE of a graph: the buffers that hold its current version or a pinned one. -/
def State.graphLive (s : State) (key : Nat) (g : Graph) : Nat :=
  ([0, 1].filter fun b => (s.graphDefined key && b == g.cur) || s.pinned key b).length

/-- A deleted graph without pins gives its storage back; otherwise PINS and LIVE follow the pins. -/
def State.graphCount (s : State) (key : Nat) : State :=
  let p := key / 1024
  let n := key % 1024
  match tabFind s.fe.graphs key with
  | none => s
  | some g =>
    let k := s.pins key
    let s := s.set (F.FE_GRAPH_PINS p n) k
    if s.on (F.FE_GRAPH_DELETING p n) ∧ k = 0 then
      let s := (s.set (F.FE_GRAPH_DELETING p n) 0).set (F.FE_GRAPH_LIVE p n) 0
      let s := s.set (F.FE_GSIZE_FREE p) (s.get (F.FE_GSIZE_FREE p) + 2 * g.units)
      { s with fe := { s.fe with graphs := tabDel s.fe.graphs key } }
    else s.set (F.FE_GRAPH_LIVE p n) (s.graphLive key g)

/-- The patches that wait on a graph try again, in the order in which they came; PATCHWAIT tells whether one still waits. -/
def State.graphPatches (s : State) (key : Nat) : State :=
  let mine := fun (s : State) => s.fe.cmds.filter fun c => c.patching && graphKey (s.qPart c.queue) (c.word 16) == key
  let s := s.each (mine s) fun s c =>
    match tabFind s.fe.graphs key with
    | some g => if ((mine s).head?.any fun d => d.id == c.id) then (s.patchTry c key g).graphCount key else s
    | none => s
  s.set (F.FE_GRAPH_PATCHWAIT (key / 1024) (key % 1024)) (b2n (mine s != []))

/-- The pins of every graph have changed, or may have. -/
def State.graphsFix (s : State) : State := s.each (s.fe.graphs.map (·.1)) fun s k => (s.graphCount k).graphPatches k

/-- A CALL or LAUNCH_GRAPH whose entries are through, or that stops: nothing that it started is left. -/
def State.levelOver (s : State) (c : Cmd) : Bool :=
  c.started && !c.ended && (c.op == 0x11 || c.op == 0x03) && (c.stopping || decide (c.ents ≤ c.pos)) &&
  !(s.fe.cmds.any fun d => d.parent == some c.id)

/-- A level that ends with a block open ends with 0x56 at its last entry (R369). -/
def Cmd.levelEnd (c : Cmd) : Cmd :=
  if c.status = 0 ∧ c.nest ≠ [] then { c with ended := true, status := 0x56, place := c.ents - 1 } else { c with ended := true }

/-- What a command is over with, when it is: an ended command, a level, a snapshot that every unit has latched, a
configuration slot that has been written. -/
def State.overAs (s : State) (c : Cmd) : Option Cmd :=
  if c.ended then (if c.job.isSome then none else some c)
  else if s.levelOver c then some c.levelEnd
  else if c.started && c.op == 0x13 then
    (tabFind s.evr.snapDone c.id).map fun n => { c with ended := true, result := n }
  else if c.started && c.op == 0x17 then
    (tabFind s.boot.selDone c.id).map fun n =>
      if n = 1 then { c with ended := true, result := bits (c.word 24) 31 0 } else { c with ended := true, status := 0x5C }
  else none

/-- A command is over at whatever level: a deferred pre-emption may take effect, and the scheduler looks again. -/
def State.finish (s : State) (c : Cmd) : State :=
  let t := match c.parent with
    | none => s.ringEnd c
    | some p =>
      let s := s.setCmds (s.fe.cmds.filter fun d => d.id != c.id)
      if c.status = 0 then s else s.innerStop p c.status c.source c.index
  let t := if c.graph.isSome || c.op == 0x04 then t.graphsFix else t
  (t.npDone (s.qCtx c.queue)).resched (s.qPart c.queue)

/-- A command is refused: it does not start, and it is over at once with its code (R380). -/
def State.refuse (s : State) (id code source : Nat) : State :=
  match s.cmd id with
  | some c => s.finish { c with ended := true, status := code, source := source }
  | none => s

/-! ### Enable, disable, reset, R355, R381 -/

/-- A region of the host window. -/
def inHostWin (a k : Nat) : Bool := decide (0x010000000000 ≤ a ∧ a + k ≤ 0x020000000000)

/-- The reason to refuse an enable, or 0. -/
def State.enableErr (s : State) (q : Nat) : Nat :=
  let size := s.get (F.FE_Q_CFG_SIZE q)
  let cq := s.get (F.FE_Q_CFG_CQSIZE q)
  let c := s.qCtx q
  let f := s.qFunc q
  if !inHostWin (s.get (F.FE_Q_RING_BASE q) * 4096) (64 * 2 ^ size) then 1
  else if !inHostWin (s.get (F.FE_Q_CQ_BASE q) * 4096) (32 * 2 ^ cq) || !inHostWin (s.get (F.FE_Q_CQHEAD_ADDR q) * 4) 4 then 2
  else if size < 6 ∨ 16 < size ∨ cq < 6 ∨ 16 < cq then 3
  else if s.ctxState c = 0 ∨ s.ctxPart c ≠ s.qPart q ∨ (f ≠ 0 ∧ !s.boundTo f (s.qPart q)) then 4
  else 0

/-- ENABLE = 1 written. -/
def State.qEnable (s : State) (q : Nat) : State :=
  let s := s.set (F.FE_Q_CTL_ENABLE q) 1
  if s.qState q ≠ 0 then s
  else
    match s.enableErr q with
    | 0 =>
      let s := (s.setRaw (A.FE_Q_PTR q) 0).setRaw (A.FE_Q_CQPTR q) 0
      let s := s.set (F.FE_Q_STAT_EPOCH q) (s.get (F.FE_Q_STAT_EPOCH q) + 1)
      let s := (s.set (F.FE_Q_STAT_DBERR q) 0).set (F.FE_Q_STAT_DBDROP q) 0
      let s : State := { s with fe := { s.fe with shadowBad := setDel s.fe.shadowBad q, nests := tabDel s.fe.nests q
                                                  last := tabDel s.fe.last q } }
      (s.set (F.FE_Q_STAT_STATE q) 1).lockBoot
    | e => s.set (F.FE_Q_STAT_ENERR q) e

/-- ENABLE = 0 written: an ACTIVE or STOPPED queue drains; a ring command that has been fetched and has not started goes. -/
def State.qDisable (s : State) (q : Nat) : State :=
  let s := s.set (F.FE_Q_CTL_ENABLE q) 0
  if s.qState q = 1 ∨ s.qState q = 2 then
    let s := s.set (F.FE_Q_STAT_STATE q) 4
    let s := s.setCmds (s.fe.cmds.filter fun c => !(c.queue == q && c.parent == none && !c.started))
    ((s.setDone q).drainEnd q).resched (s.qPart q)
  else s

/-- RESET written. -/
def State.qReset (s : State) (q : Nat) : State := if s.qState q = 1 ∨ s.qState q = 2 then s.guilty q 4 else s

/-- FE_Q_CTL written whole. -/
def State.qCtlWrite (s : State) (q v : Nat) : State :=
  let s := if bit v 0 then s.qEnable q else s.qDisable q
  if bit v 1 then s.qReset q else s

def execQueueEnable (q : Nat) (s : State) : Out := .next <| if q < 4096 ∧ s.barOk = true then s.qEnable q else s
def execQueueDisable (q : Nat) (s : State) : Out := .next <| if q < 4096 ∧ s.barOk = true then s.qDisable q else s
def execQueueReset (q : Nat) (s : State) : Out := .next <| if q < 4096 ∧ s.barOk = true then s.qReset q else s

/-- FE_Q_OWN written: ignored while the queue is not OFF, and where a VF would own more than 64 queues (R356). -/
def State.qOwnWrite (s : State) (q v : Nat) : State × Bool :=
  let f := bits v 13 8
  if s.qState q ≠ 0 then (s.set F.FE_ERR_QBUSY 1, false)
  else if f ≠ 0 ∧ f ≠ s.qFunc q ∧ 64 ≤ (s.vfQueues f).length then (s.set F.FE_ERR_VFQ 1, false)
  else
    let s := (s.set (F.FE_Q_OWN_PART q) (bits v 3 0)).set (F.FE_Q_OWN_FUNC q) f
    ((s.set (F.FE_Q_OWN_CTX q) (bits v 25 16)).set (F.FE_Q_OWN_PRIV q) (bits v 32 32), true)

def execQueueOwnerWrite (q : Nat) (v : BitVec 64) (s : State) : Out :=
  .next <| if q < 4096 ∧ s.barOk = true then (s.qOwnWrite q v.toNat).1 else s

/-! ### Doorbells, R38, R358 to R360, R383 -/

/-- A discarded write to BAR2; q is the queue that the write names. -/
def State.dbDrop (s : State) (q : Option Nat) (why : Nat) : State :=
  let s := (s.count F.FE_DB_DROP_COUNT 1).set F.FE_DB_DROP_LASTWHY why
  match q with
  | some q => (s.set F.FE_DB_DROP_LASTQ q).count (F.FE_Q_STAT_DBDROP q) 1
  | none => s

/-- A resume doorbell to a STOPPED queue: held records first; unless a write faults again the queue is ACTIVE. -/
def State.resume (s : State) (q : Nat) : State :=
  match s.flushHeld q 64 with
  | (s, true) => s.set (F.FE_Q_STAT_STATE q) 1
  | (s, false) => s

/-- A doorbell value that names a queue. -/
def State.ring (s : State) (q v : Nat) : State :=
  let tail := bits v 31 0
  let cur := s.get (F.FE_Q_PTR_TAIL q)
  let head := s.get (F.FE_Q_PTR_HEAD q)
  let size := 2 ^ s.get (F.FE_Q_CFG_SIZE q)
  if 1 < bits v 59 56 ∨ bits v 63 60 ≠ 0 then s.dbDrop (some q) 2
  else if s.qState q ≠ 1 ∧ s.qState q ≠ 2 then s.dbDrop (some q) 3
  else if bits v 47 32 ≠ s.genOf (s.qFunc q) then s.dbDrop (some q) 4
  else if bits v 55 48 ≠ s.get (F.FE_Q_STAT_EPOCH q) then s.dbDrop (some q) 5
  else if size < (tail + 2 ^ 32 - cur) % 2 ^ 32 ∨ size < (tail + 2 ^ 32 - head) % 2 ^ 32 then
    let s := s.event 7 8 0x206 (some (s.qPart q)) q (s.qCtx q) [q, v, cur, head]
    (s.set (F.FE_Q_STAT_DBERR q) 1).dbDrop (some q) 6
  else
    let s := (s.set (F.FE_Q_PTR_TAIL q) tail).resched (s.qPart q)
    if bits v 59 56 = 1 ∧ s.qState q = 2 then s.resume q else s

/-- A write to BAR2 of a function: offset, width and value. -/
def State.bar2Write (s : State) (func off width v : Nat) : State :=
  let page := off / 4096
  let whole := off % 4096 == 0 && width == 8
  if func = 0 then
    if s.qFunc page ≠ 0 ∨ whole = false then s.dbDrop (some page) 1 else s.ring page v
  else
    match (s.vfQueues func)[page]? with
    | none => s.dbDrop none 1
    | some q => if whole = false then s.dbDrop (some q) 1
                else if s.vfBound func = false then s.dbDrop (some q) (if 1 < bits v 59 56 ∨ bits v 63 60 ≠ 0 then 2 else 3)
                else s.ring q v

/-- A function's BARs are reachable: the device is ready, the VF is enabled and no FLR of it runs (R407). -/
def State.funcOk (s : State) (func : Nat) : Bool :=
  s.barOk && (func == 0 || (decide (func ≤ 63) && s.host.vfEn && !s.host.flr.contains func))

/-- A host write to BAR2. -/
def execDoorbell (func off width : Nat) (v : BitVec 64) (s : State) : Out :=
  .next <| if s.funcOk func ∧ off < 2 ^ (if func = 0 then 24 else 18) then
    s.bar2Write func off width v.toNat else s

/-! ### The head shadow, R378 -/

/-- The answer of a read of the head shadow: err 0 and the value, or the code of R53. DESIGN CHOICE: a value too large counts in
FE_DB_DROP and DBDROP, and leaves LASTQ and LASTWHY as they were: R360 has no row for it (R378). -/
def State.shadow (s : State) (q err value : Nat) : State :=
  let pa := s.get (F.FE_Q_CQHEAD_ADDR q) * 4
  let look := s.hwinCheck (s.qPart q) false pa
  let code := if look = 0 then err else look
  let s := if look = 0 then s.hostAsk 0 pa 4 else s
  if code ≠ 0 then
    if s.fe.shadowBad.contains q then s
    else
      let s := s.qFault q { code := code, pa := pa }
      { s with fe := { s.fe with shadowBad := setIns s.fe.shadowBad q } }
  else
    let s : State := { s with fe := { s.fe with shadowBad := setDel s.fe.shadowBad q } }
    let v := value % 2 ^ 32
    if s.cqSize q < (s.get (F.FE_Q_CQPTR_WRITTEN q) + 2 ^ 32 - v) % 2 ^ 32 then
      (s.count F.FE_DB_DROP_COUNT 1).count (F.FE_Q_STAT_DBDROP q) 1
    else
      let s := s.set (F.FE_Q_CQPTR_HOSTHEAD q) v
      if s.canWrite q then (s.flushHeld q 64).1 else s

/-- The shadow is read only when the known free space is 0. -/
def execHeadShadowRead (q err value : Nat) (s : State) : Out :=
  .next <| if q < 4096 ∧ s.qState q ≠ 0 ∧ s.cqSpace q = 0 ∧ s.readRoom = true then s.shadow q err value else s

end Sys2Proof.Machine
end

