-- ==== Sys2Proof/Machine/Setup.lean ====
section
/-! DEFINITION. What PF0 sets up: Berths and graph stores (R370, R373, R567), partitions (R389, R390), contexts (R392,
R393), function bindings and their resets (R405 to R407), and the dirty log's control (R412). -/

namespace Sys2Proof.Machine

/-- A range of local memory within chunks of a partition. -/
def State.inChunks (s : State) (p a k : Nat) : Bool :=
  decide (0 < k ∧ a + k ≤ localTop) &&
  (List.range ((a + k - 1) / 2 ^ 30 + 1 - a / 2 ^ 30)).all fun i => s.get (F.CS_HOMEMAP_PART (a / 2 ^ 30 + i)) == p

/-! ### Berths, R370 -/

/-- EN of a Berth is cleared: its items are discarded, and the posts that wait on it end. -/
def State.berthClear (s : State) (b : Nat) : State :=
  let s := (s.set (F.FE_BERTH_OWN_EN b) 0).set (F.FE_BERTH_OWN_COUNT b) 0
  let s : State := { s with fe := { s.fe with
    taken := tabDel s.fe.taken b, waiters := s.fe.waiters.filter fun w => w.berth != b } }
  s.each (s.fe.cmds.filter fun c => c.started && !c.ended && c.op == 0x12 && c.word 16 % 4096 == b) fun s c =>
    s.endCmd c.id 0x58 0 0

def State.berthCfgWrite (s : State) (b v : Nat) : State × Bool :=
  if s.on (F.FE_BERTH_OWN_EN b) then (s.set F.FE_ERR_BERTH 1, false)
  else ((s.set (F.FE_BERTH_CFG_DEPTH b) (bits v 3 0)).set (F.FE_BERTH_CFG_BASE b) (bits v 56 12), true)

/-- The conditions on a Berth that a write would put in use. -/
def State.berthMay (s : State) (b ctx p : Nat) : Bool :=
  let d := s.get (F.FE_BERTH_CFG_DEPTH b)
  decide (4 ≤ d ∧ d ≤ 12) && s.inChunks p (s.get (F.FE_BERTH_CFG_BASE b) * 4096) (64 * 2 ^ d) &&
  s.ctxState ctx != 0 && s.ctxPart ctx == p

def State.berthOwnWrite (s : State) (b v : Nat) : State × Bool :=
  let take := fun (s : State) => ((s.set (F.FE_BERTH_OWN_CTX b) (bits v 9 0)).set (F.FE_BERTH_OWN_PART b) (bits v 19 16))
  if s.on (F.FE_BERTH_OWN_EN b) then
    if bit v 20 then (s.set F.FE_ERR_BERTH 1, false) else (take (s.berthClear b), true)
  else if bit v 20 then
    if s.berthMay b (bits v 9 0) (bits v 19 16) then ((take s).set (F.FE_BERTH_OWN_EN b) 1, true)
    else (s.set F.FE_ERR_BERTH 1, false)
  else (take s, true)

def execBerthConfigWrite (b : Nat) (own : Bool) (v : BitVec 64) (s : State) : Out :=
  .next <| if b < 4096 ∧ s.barOk = true then
    (if own then s.berthOwnWrite b v.toNat else s.berthCfgWrite b v.toNat).1 else s

/-! ### The graph store's registers, R373, R567 -/

/-- A graph of the partition holds storage. -/
def State.hasGraph (s : State) (p : Nat) : Bool := s.fe.graphs.any fun e => e.1 / 1024 == p

def State.gstoreWrite (s : State) (p v : Nat) : State × Bool :=
  if s.hasGraph p then (s.set F.FE_ERR_GSTORE 1, false) else (s.set (F.FE_GSTORE_BASE p) (bits v 56 16), true)

def State.gsizeWrite (s : State) (p v : Nat) : State × Bool :=
  if s.hasGraph p then (s.set F.FE_ERR_GSTORE 1, false)
  else ((s.set (F.FE_GSIZE_SIZE p) (bits v 15 0)).set (F.FE_GSIZE_FREE p) (16 * bits v 15 0), true)

def execGstoreWrite (p : Nat) (size : Bool) (v : BitVec 64) (s : State) : Out :=
  .next <| if p < 16 ∧ s.barOk = true then
    (if size then s.gsizeWrite p v.toNat else s.gstoreWrite p v.toNat).1 else s

/-! ### Partitions, R389, R390 -/

def State.partEn (s : State) (p : Nat) : Bool := s.on (F.PT_PART_CTL_EN p)

/-- The resource words of a partition: clusters, Pumps, Lighters. -/
def State.partWords (s : State) (p : Nat) : List Nat :=
  (List.range 2).map (fun w => s.get (F.PT_PART_CL_CLUSTERS p w)) ++
  (List.range 3).map (fun w => s.get (F.PT_PART_PU_PUMPS p w)) ++ [s.get (F.PT_PART_LT_LIGHTERS p)]

/-- A resource of p belongs to another enabled partition. -/
def State.partOverlaps (s : State) (p : Nat) : Bool :=
  (List.range 16).any fun q => q != p && s.partEn q &&
    (List.zipWith (fun a b => a &&& b) (s.partWords p) (s.partWords q)).any (· != 0)

/-- The partition is bound to a VF. -/
def State.partBound (s : State) (p : Nat) : Bool :=
  ((s.regsAt (A.PT_FN 1) 8 63).map (· + 1)).any fun v => s.on (F.PT_FN_BOUND v) && s.get (F.PT_FN_PART v) == p

def State.partCtlPut (s : State) (p v : Nat) : State :=
  (s.set (F.PT_PART_CTL_EN p) (bits v 0 0)).set (F.PT_PART_CTL_SLICE p) (bits v 31 16)

def State.partCtlWrite' (s : State) (p v : Nat) : State × Bool :=
  if bit v 0 then
    if s.partOverlaps p then (s.set F.PT_ERR_OVERLAP 1, false) else (s.partCtlPut p v, true)
  else if s.partCtxs p != [] || s.partBound p then (s.set F.PT_ERR_BUSY 1, false)
  else (s.partCtlPut p v, true)

/-- A write of word `reg` of a partition's block: 0 control, 1 and 2 clusters, 3 to 5 Pumps, 6 Lighters; bits of absent
units are ignored. -/
def State.partWrite (s : State) (p reg v : Nat) : State × Bool :=
  if reg = 0 then s.partCtlWrite' p v
  else if s.partEn p then (s.set F.PT_ERR_BUSY 1, false)
  else if reg ≤ 2 then (s.set (F.PT_PART_CL_CLUSTERS p (reg - 1)) (v &&& unitMask s.clThere (reg - 1) 64), true)
  else if reg ≤ 5 then (s.set (F.PT_PART_PU_PUMPS p (reg - 3)) (v &&& unitMask (fun u => !s.isRetired 10 u) (reg - 3) 64), true)
  else (s.set (F.PT_PART_LT_LIGHTERS p) (v &&& unitMask (fun u => !s.isRetired 11 u) 0 32), true)

def execPartitionConfigWrite (p reg : Nat) (v : BitVec 64) (s : State) : Out :=
  .next <| if p < 16 ∧ reg ≤ 6 ∧ s.barOk = true then (s.partWrite p reg v.toNat).1 else s

/-! ### Contexts, R392, R393 -/

/-- The size of a save area, R395. -/
def State.saveSize (s : State) (c : Nat) : Nat := 0x10000 + 0x180000 * 8 * (maskClusters (s.ctxMask c)).length

/-- A creation passes its checks. -/
def State.ctxMay (s : State) (c p f : Nat) : Bool :=
  let m := s.ctxMask c
  s.partEn p && m != 0 && m &&& s.partClusters p == m && (f == 0 || s.boundTo f p) && s.inChunks p (s.saveBase c) (s.saveSize c)

def State.ctxPut (s : State) (c v : Nat) : State :=
  ((s.set (F.PT_CTX_CTL_PART c) (bits v 3 0)).set (F.PT_CTX_CTL_FUNC c) (bits v 9 4)).set (F.PT_CTX_CTL_SHARE c) (bits v 23 16)

/-- A context is destroyed: its queues are reset, it is torn down and ends FREE. -/
def State.destroy (s : State) (c : Nat) : State :=
  let s := s.each ((s.ctxQueues c).filter fun q => s.qState q == 1 || s.qState q == 2) fun s q => s.toReset q 4
  if s.ctxState c = 6 then (s.tearBerths c).setCtx c { s.ctx c with free := true } else s.tear c 6 0 0

/-- A write of PT_CTX_CTL; one with LIVE = 0 while the context is FREE changes nothing (R393). -/
def State.ctxCtlWrite (s : State) (c v : Nat) : State × Bool :=
  if s.on (F.PT_CTX_CTL_LIVE c) then
    let s := if bits v 9 0 ≠ bits (s.raw (A.PT_CTX_CTL c)).toNat 9 0 then s.set F.PT_ERR_BUSY 1 else s
    let s := s.set (F.PT_CTX_CTL_SHARE c) (bits v 23 16)
    (if bit v 32 then s else s.destroy c, true)
  else if bit v 32 then
    let s := s.ctxPut c v
    if s.ctxMay c (bits v 3 0) (bits v 9 4) then
      let s := (s.set (F.PT_CTX_CTL_LIVE c) 1).setCtxState c 1
      ((s.set (F.PT_CTX_STAT_CGEN c) 1).setCtx c Ctx.new, true)
    else (s.set F.PT_ERR_CTX 1, false)
  else (s, true)

/-- A write that carries LIVE = 1, and one that carries LIVE = 0. -/
def execContextCreate (c : Nat) (v : BitVec 64) (s : State) : Out :=
  .next <| if c < 1024 ∧ s.barOk = true ∧ bit v.toNat 32 = true then (s.ctxCtlWrite c v.toNat).1 else s

def execContextDestroy (c : Nat) (v : BitVec 64) (s : State) : Out :=
  .next <| if c < 1024 ∧ s.barOk = true ∧ bit v.toNat 32 = false then (s.ctxCtlWrite c v.toNat).1 else s

/-- PT_CTX_CL and PT_CTX_SAVE change only while the context is not live. -/
def State.ctxClWrite (s : State) (c w v : Nat) : State × Bool :=
  if s.on (F.PT_CTX_CTL_LIVE c) then (s.set F.PT_ERR_BUSY 1, false) else (s.set (F.PT_CTX_CL_CLUSTERS c w) v, true)
def State.ctxSaveWrite (s : State) (c v : Nat) : State × Bool :=
  if s.on (F.PT_CTX_CTL_LIVE c) then (s.set F.PT_ERR_BUSY 1, false) else (s.set (F.PT_CTX_SAVE_BASE c) (bits v 56 16), true)

/-- PT_CTX_TEAR.GO. -/
def State.ctxTear (s : State) (c : Nat) : State := s.tear c 5 0 0

def execContextTear (c : Nat) (s : State) : Out := .next <| if c < 1024 ∧ s.barOk = true then s.ctxTear c else s

/-! ### Functions, R405 to R407 -/

def State.bumpGen (s : State) (v : Nat) : State := s.set (F.PT_FN_GEN v) (nextGen (s.genOf v))

/-- Something of VF v forbids a change of its binding. -/
def State.fnBusy (s : State) (v : Nat) : Bool :=
  ((s.vfQueues v).any fun q => s.qState q != 0) || (s.liveCtxs.any fun c => s.get (F.PT_CTX_CTL_FUNC c) == v) ||
  (s.regsAt (A.PT_HWIN 0) 8 1024).any fun i => s.on (F.PT_HWIN_V i) && s.get (F.PT_HWIN_FUNC i) == v

/-- A write of PT_FN[v]; PF0's entry does not change. -/
def State.fnWrite (s : State) (v val : Nat) : State × Bool :=
  let changes := bits val 4 0 ≠ bits (s.raw (A.PT_FN v)).toNat 4 0
  if v = 0 then (s, true)
  else
    let busy := decide changes && s.fnBusy v
    let bind := bit val 4 && !s.partEn (bits val 3 0)
    let s := if busy then s.set F.PT_ERR_BUSY 1 else s
    let s := if bind then s.set F.PT_ERR_BIND 1 else s
    if busy || bind then (s, false)
    else
      let s := (s.set (F.PT_FN_PART v) (bits val 3 0)).set (F.PT_FN_BOUND v) (bits val 4 4)
      (if changes then s.bumpGen v else s, true)

def execFunctionBindWrite (v : Nat) (val : BitVec 64) (s : State) : Out :=
  .next <| if v < 64 ∧ s.barOk = true then (s.fnWrite v val.toNat).1 else s

/-- VF Enable is cleared: every VF's generation moves on. -/
def State.vfEnClear (s : State) : State :=
  if s.host.vfEn then
    let s : State := { s with host := { s.host with vfEn := false } }
    s.each (List.range 63) fun s i => s.bumpGen (i + 1)
  else s

def execVfEnableClear (s : State) : Out := .next <| if s.running then s.vfEnClear else s

/-- The units of commands that vanish are idle again. -/
def State.dropCmds (s : State) (f : Cmd → Bool) : State :=
  let s := s.each (s.fe.cmds.filter f) fun s c => match c.job with
    | some j => s.unitIdle j.unit
    | none => s
  (s.setCmds (s.fe.cmds.filter fun c => !f c)).graphsFix

/-- A queue goes OFF without records. -/
def State.qOff (s : State) (q : Nat) : State :=
  let s := s.dropCmds fun c => c.queue == q
  let s := (s.setHeld q []).set (F.FE_Q_STAT_STATE q) 0
  let s : State := { s with fe := { s.fe with nests := tabDel s.fe.nests q } }
  s.setDone q

/-- A Function Level Reset of VF v. -/
def State.flr (s : State) (v : Nat) : State :=
  let s := { s with host := { s.host with flr := setIns s.host.flr v } }.bumpGen v
  let s := s.each (s.liveCtxs.filter fun c => s.get (F.PT_CTX_CTL_FUNC c) == v) fun s c => s.tear c 7 0 0
  let s := s.each ((s.vfQueues v).filter fun q => s.qState q != 0) State.qOff
  s.freezeEnd v

def execVfFlr (v : Nat) (s : State) : Out :=
  .next <| if 1 ≤ v ∧ v ≤ 63 ∧ s.host.vfEn = true ∧ s.running = true then s.flr v else s

/-- The requests made on the VF's behalf are answered: its configuration space and MSI-X table are as after reset. -/
def execVfFlrComplete (v : Nat) (s : State) : Out :=
  .next <|
    if s.host.flr.contains v && !(s.host.reads.any fun r => s.hwinFunc r.pa == v) then
      { s with host := { s.host with
          flr := setDel s.host.flr v
          cfg := s.host.cfg.filter fun e => e.1 / 4096 != v
          msix := s.host.msix.filter fun e => e.1 / 2048 != v
          pba := s.host.pba.filter fun i => i / 2048 != v } }
    else s

/-! ### The dirty log's control, R412 -/

/-- A write of PT_DIRTY_CTL; SYNC clears DONE. -/
def State.dirtyCtlWrite (s : State) (v : Nat) : State × Bool :=
  let s := (s.set F.PT_DIRTY_CTL_EN (bits v 0 0)).set F.PT_DIRTY_CTL_SEL (bits v 1 1)
  (if bit v 2 then { s with host := { s.host with dirtyTo := s.coh.serial } }.set F.PT_DIRTY_CTL_DONE 0 else s, true)

def execDirtyLogSync (v : BitVec 64) (s : State) : Out :=
  .next <| if s.barOk then (s.dirtyCtlWrite v.toNat).1 else s

/-- Every write that looked up a LOG entry before SYNC has its bit performed. -/
def State.dirtySynced (s : State) : Bool :=
  s.written 3 dirtyUnit && s.cores.all fun e => e.2.sb.all fun x => !(lookLogged x.win && decide (x.serial < s.host.dirtyTo))

def execDirtyLogSyncDone (s : State) : Out :=
  .next <| if s.get F.PT_DIRTY_CTL_DONE = 0 ∧ s.running = true ∧ s.dirtySynced = true then s.set F.PT_DIRTY_CTL_DONE 1 else s

end Sys2Proof.Machine
end

