-- ==== Sys2Proof/Machine/HostPort.lean ====
section
/-! DEFINITION. The host attachment's own commands: BAR4, unsupported BAR0 accesses, host-window synchronisation, D3hot and
power gating, page walks, the fault log and invalidations (R35, R37, R39, R42, R52, R56, R60, R61, R64, R475, R562). -/

namespace Sys2Proof.Machine

/-! ### BAR4, R39, R42, R562 -/

/-- The offset is one that the function's BAR4 decodes. -/
def State.bar4In (s : State) (func off k : Nat) : Bool :=
  decide (0 < k ∧ off + k ≤ if func = 0 then 2 ^ 40 else s.apSize)

/-- The local physical address of an access, or none in a hole. -/
def State.bar4Addr (s : State) (func off k : Nat) : Option Nat :=
  let a := if func = 0 then off else s.get (F.PT_VF_APBASE_BASE func) * 2 ^ 30 + off
  if (func = 0 ∨ s.vfBound func = true) ∧ a + k ≤ localTop then some a else none

/-- A refused access is recorded. -/
def State.hostErr (s : State) (func : Nat) (write : Bool) : State :=
  (((s.set F.PT_HOSTERR_HOLE 1).set F.PT_HOSTERR_WRITE (b2n write)).set F.PT_HOSTERR_FUNC func).count F.PT_HOSTERR_COUNT 1

/-- A host read of k bytes through BAR4; the link names a wire of its way to the link die, one of whose codewords could not
be corrected (R18). -/
def State.bar4Read (s : State) (mod func off k : Nat) (link : Option Nat) : State :=
  match s.bar4Addr func off k with
  | none => (s.hostErr func false).complete mod .cplUR
  | some a =>
    let r := s.readAs (bar4Reader func) 6 false a k
    let m := r.1.linkMark link
    s.unlessStalled (m.1.complete mod (.cplData r.2.1 (r.2.2 || m.2)))

def execBar4Read (mod func off k : Nat) (link : Option Nat) (s : State) : Out :=
  .next <|
    if s.boot.stopped then s.complete mod .cplCA
    else if s.funcOk func && s.bar4In func off k then s.bar4Read mod func off k link else s

/-- A host write through BAR4. -/
def State.bar4Write (s : State) (func off : Nat) (data : List Byte) (link : Option (Nat × Nat)) : State :=
  match s.bar4Addr func off data.length with
  | none => s.hostErr func true
  | some a => s.pokeLink 4 0 a data link

def execBar4Write (func off : Nat) (data : List Byte) (link : Option (Nat × Nat)) (s : State) : Out :=
  .next <| if s.funcOk func && s.bar4In func off data.length then s.bar4Write func off data link else s

/-! ### BAR0 accesses that are not supported, R37 -/

/-- A naturally aligned access of 4 or 8 bytes. -/
def bar0Fits (off width : Nat) : Bool := (width == 4 || width == 8) && off % width == 0

/-- A read ends with Unsupported Request; a write is discarded. -/
def execBar0UnsupportedAccess (mod func off width : Nat) (write : Bool) (s : State) : Out :=
  .next <|
    if write then s
    else if s.boot.stopped then s.complete mod .cplCA
    else if s.funcOk func && !bar0Fits off width then s.complete mod .cplUR else s

/-! ### Host-window synchronisation, R52 -/

/-- GO: DONE is cleared, and every access that has looked up an entry is awaited: reads under way and buffered stores. -/
def State.hwinSync (s : State) : State :=
  let ids := s.host.reads.map (·.id)
  { s with host := { s.host with sync := ids.foldl setIns s.host.sync, syncTo := s.coh.serial } }.set F.PT_HWIN_SYNC_DONE 0

/-- No awaited access is left. -/
def State.synced (s : State) : Bool :=
  (s.host.sync.all fun i => !(s.host.reads.any fun r => r.id == i)) &&
  s.cores.all fun e => e.2.sb.all fun b => !decide (region (b.line * 128) = .hostWin ∧ b.serial < s.host.syncTo)

def execHostWindowSync (s : State) : Out := .next <| if s.barOk then s.hwinSync else s

/-- Every awaited access has completed. -/
def execHostWindowSyncDone (s : State) : Out :=
  .next <|
    if s.get F.PT_HWIN_SYNC_DONE = 0 ∧ s.synced = true ∧ s.running = true then
      { s with host := { s.host with sync := [], syncTo := 0 } }.set F.PT_HWIN_SYNC_DONE 1
    else s

/-! ### Power gating and D3hot, R35, R180, R475 -/

/-- The core holds a scratchpad, and the context whose later launch could retain it is live. -/
def State.mayRetain (s : State) (k : Core) : Bool :=
  match k.last with
  | some (c, w) => w != 11 && s.ctxState c != 0
  | none => false

/-- A running stream has the core among its targets. -/
def State.streamsTo (s : State) (core : Nat) : Bool :=
  s.fe.cmds.any fun c => c.op == 0x07 && match c.job with
    | some j => (List.range 64).any fun i =>
        decide (i < bits (bytesAt j.desc 8 8) 46 40) && bytesAt j.desc (64 + 2 * i) 2 % 1024 == core && !j.dropped.contains i
    | none => false

/-- The conditions of R180, and of R327 for a stream's target. -/
def State.canGate (s : State) (core : Nat) : Bool :=
  let k := s.core core
  decide (core < 1024) && s.clThere (core / 8) && k.blk.isNone && k.queue == [] && k.sb == [] && !s.mayRetain k && !s.streamsTo core &&
  !s.pow.gated.contains core

/-- A gated core has lost its contents. -/
def State.gate (s : State) (core : Nat) : State :=
  { s.setCore core Core.idle with pow := { s.pow with gated := setIns s.pow.gated core } }

/-- The conditions have held for 10,000 reference periods. -/
def execCorePowerGate (core : Nat) (s : State) : Out :=
  .next <| if s.running && s.canGate core then s.gate core else s

/-- A launch waits to dispatch to the core. -/
def State.wanted (s : State) (core : Nat) : Bool :=
  s.fe.launches.any fun l => decide (l.next < l.grid) && l.cores.contains core && s.ctxState l.ctx == 2

/-- The gated cores of a half that ungate now for waiting dispatches: at most 8 at once (R475). -/
def State.ungating (s : State) (half : Nat) : List Nat :=
  (s.pow.gated.filter fun c => decide (c / 64 = half) && s.wanted c).take 8

/-- A gated core that a dispatch waits for finishes ungating. -/
def execCoreUngate (core : Nat) (s : State) : Out :=
  .next <| if s.running && (s.ungating (core / 64)).contains core then
    { s with pow := { s.pow with gated := setDel s.pow.gated core } } else s

/-- PF0 enters D3hot: every core that meets the conditions is gated; the front end fetches nothing. -/
def State.d3Enter (s : State) : State :=
  let s := s.each ((List.range 1024).filter s.canGate) State.gate
  { s with pow := { s.pow with d3 := true } }

def execD3hotEntry (s : State) : Out := .next <| if s.running && s.boot.phase == .ready then s.d3Enter else s

def execD0Return (s : State) : Out := .next { s with pow := { s.pow with d3 := false } }

/-! ### Page walks of the cores, R54 to R59 -/

def Walk.access (w : Walk) : Acc := if w.acc = 1 then .write else if w.acc = 2 then .fetch else .read

def sameWalk (core va : Nat) (w : Walk) : Bool := w.unit == core && w.va == va
def State.setWalks (s : State) (l : List Walk) : State := { s with host := { s.host with walks := l } }

/-- A walk ends in a fault: the exception of the lanes that wait for it; an instruction that is stepped is then through, and
the target halts again (R543). -/
def State.walkFault (s : State) (w : Walk) (code pa : Nat) : State :=
  let k := s.core w.unit
  let step := k.stopped && s.dbg.step == some (w.unit, w.group, w.pc)
  if k.exc.isNone && (!k.stopped || step) && (k.blk.any fun b => b.ctx == w.ctx) then
    let t := s.raise w.unit w.group w.pc w.word w.lanes code
      { va := w.va, pa := pa, level := w.level, write := w.acc == 1, fetch := w.acc == 2 }
    if step then t.halt w.ctx 2 w.unit w.group 0 else t
  else s

/-- The entry of the walk's level is read and checked. -/
def State.walkStep (s : State) (w : Walk) : State :=
  let drop := s.setWalks (dropFirst (sameWalk w.unit w.va) s.host.walks)
  match s.walkLevel w.level w.table w.va w.setup w.access with
  | .fault c pa => drop.walkFault w c pa
  | .leaf p => drop.tlbAdd 0 w.unit w.ctx p
  | .next t => s.setWalks (updFirst (sameWalk w.unit w.va) (fun w => { w with level := w.level - 1, table := t }) s.host.walks)

/-- An entry of the walk that a core waits for at a virtual address has been read. -/
def execPageWalkEntryRead (core va : Nat) (s : State) : Out :=
  .next <| match s.host.walks.find? (sameWalk core va) with
    | some w => s.walkStep w
    | none => s

/-! ### The fault log, R64 -/

/-- A write of PT_FAULT_CLR. -/
def State.faultClear (s : State) (p v : Nat) : State :=
  if bit v 0 then (s.set (F.PT_FAULT_STAT_COUNT p) 0).set (F.PT_FAULT_STAT_LOST p) 0 else s

/-- A function may reach the registers of a partition: PF0, and a VF bound to it. -/
def State.fnSees (s : State) (func p : Nat) : Bool := s.funcOk func && (func == 0 || s.boundTo func p)

def execFaultLogClear (func p : Nat) (v : BitVec 64) (s : State) : Out :=
  .next <| if s.fnSees func p ∧ p < 16 then s.faultClear p v.toNat else s

/-! ### Invalidations, R60, R61 -/

/-- k bytes from a virtual address of a context lie, in part, in the scope of an invalidation. -/
def State.inScope (s : State) (i : XInv) (ctx va k : Nat) : Bool :=
  (match i.ctx with | some c => ctx == c | none => true) &&
  (match i.part with | some p => s.ctxPart ctx == p | none => true) &&
  decide (va < i.hi) && decide (i.lo < va + k)

/-- A write of PT_XLAT_INV of a function's set. -/
def State.xlatWrite (s : State) (func v : Nat) : State :=
  let c := bits v 9 0
  let scope := bits v 11 10
  let s := if bit v 33 then s.set (F.PT_XLAT_INV_ERR func) 0 else s
  let s := (s.set (F.PT_XLAT_INV_CTX func) c).set (F.PT_XLAT_INV_SCOPE func) scope
  if !bit v 31 then s
  else if s.on (F.PT_XLAT_INV_BUSY func) || (func != 0 && scope != 0 && s.ctxPart c != s.fnPart func) then
    s.set (F.PT_XLAT_INV_ERR func) 1
  else
    let lo := s.get (F.PT_XLAT_INV_VA_VA func) / 4096 * 4096
    let n := max 1 (s.get (F.PT_XLAT_INV_PAGES_PAGES func))
    let i : XInv := { func := func, ctx := if scope = 0 then none else some c
                      part := if func ≠ 0 ∧ scope = 0 then some (s.fnPart func) else none
                      lo := if scope = 2 then lo else 0, hi := if scope = 2 then lo + n * 4096 else 2 ^ 64 }
    { s with host := { s.host with invs := s.host.invs ++ [i] } }.set (F.PT_XLAT_INV_BUSY func) 1

def execXlatInvalidate (func : Nat) (v : BitVec 64) (s : State) : Out :=
  .next <| if s.funcOk func ∧ func < 64 ∧ (func = 0 ∨ s.vfBound func = true) then s.xlatWrite func v.toNat else s

/-- A core's accesses that used a translation in the scope have landed: buffered stores, posted remote writes, stores accepted
by its cluster cache, and its requests on their way to a home. A read that has left for the host or the fabric has reached it. -/
def State.landed (s : State) (i : XInv) (core : Nat) (k : Core) : Bool :=
  match k.blk with
  | none => true
  | some b => !(k.sb.any fun e => s.inScope i b.ctx e.va 128) &&
      (!s.inScope i b.ctx 0 (2 ^ 64) || (k.rq == [] && !(s.coh.pend.any fun q => q.cluster == core / 8) &&
        !((s.coh.reqs ++ s.coh.redWait).any fun r => r.agent == 0 && r.unit == core)))

def State.allLanded (s : State) (i : XInv) : Bool := s.cores.all fun e => s.landed i e.1 e.2

/-- No agent holds a translation in the scope any more, and walks that began before start afresh. -/
def State.xlatDone (s : State) (i : XInv) : State :=
  { s with host := { s.host with
      tlb := s.host.tlb.filter fun e => !s.inScope i e.ctx e.va (2 ^ e.lg)
      walks := s.host.walks.filter fun w => !s.inScope i w.ctx w.va 1
      invs := s.host.invs.filter fun x => x.func != i.func } }.set (F.PT_XLAT_INV_BUSY i.func) 0

def execXlatInvalidateDone (func : Nat) (s : State) : Out :=
  .next <| match s.host.invs.find? fun i => i.func == func with
    | some i => if s.allLanded i then s.xlatDone i else s
    | none => s

end Sys2Proof.Machine
end

