-- ==== Sys2Proof/Machine/Launch.lean ====
section
/-! DEFINITION. Launches: the dispatch of core blocks with their launch state, and their completion (R109, R151 to R155,
R209, R256, R564). -/

namespace Sys2Proof.Machine

/-- A core can take a core block: it runs none, is not gated, its cluster is in service and is not being replaced, and no
stream has it among its targets (R327, R475, R517). -/
def State.coreFree (s : State) (core : Nat) : Bool :=
  (s.core core).blk.isNone && !s.pow.gated.contains core && s.clThere (core / 8) && (s.replFind 5 (core / 8)).isNone &&
  !s.streamsTo core

/-- The launches of the context that started earlier leave the core free: none of them waits to dispatch there. -/
def State.firstFor (s : State) (l : Launch) (core : Nat) : Bool :=
  (s.fe.launches.takeWhile fun x => x.id != l.id).all fun x =>
    x.ctx != l.ctx || decide (x.next = x.grid) || !x.cores.contains core

/-- The cores that the next core block, or cluster block, would take with `core` named as its first. -/
def Launch.takes (l : Launch) (core : Nat) : List Nat := if l.cluster then (List.range 8).map (core + ·) else [core]

/-- The next block may be dispatched to these cores. -/
def State.dispatchOk (s : State) (l : Launch) (core : Nat) : Bool :=
  decide (l.next < l.grid) && s.ctxState l.ctx == 2 && (!l.cluster || core % 8 == 0) &&
  (l.slot.isNone || l.cores[l.next]? == some core) &&
  (l.takes core).all fun c => l.cores.contains c && s.coreFree c && s.firstFor l c

/-- The thread registers of n lanes at the start: t0 the thread's index, t1 the core block's. -/
def startRegs (index : Nat) : Nat → Tab Lane
  | 0 => []
  | n + 1 => tabSet 0 (tabSet 0 (startRegs index n) (n * 256) (BitVec.ofNat 32 n)) (n * 256 + 1) (BitVec.ofNat 32 index)

/-- The uniform registers at the start: u0 to u15 of every group hold the argument block. -/
def startUnis (args : List Byte) (groups : Nat) : Tab Word :=
  (List.range groups).foldl (fun t g => (List.range 16).foldl (fun t i =>
    tabSet 0 t (g * 64 + i) (BitVec.ofNat 64 (bytesAt args (8 * i) 8))) t) []

/-- The scratchpad keeps its contents, R155. -/
def Core.keeps (k : Core) (l : Launch) : Bool := l.keep && k.last == some (l.ctx, l.wcache)

/-- A core starts core block `index` of a launch, R154. -/
def Core.start (k : Core) (l : Launch) (index : Nat) (halted : Bool) : Core :=
  { Core.idle with
    blk := some ⟨l.id, l.ctx, l.part, index, l.threads, l.cluster, l.resident, l.wdog⟩
    t := startRegs index 512
    u := startUnis l.args 16
    pc := (List.range l.threads).foldl (fun t i => tabSet 0 t i l.entry) []
    live := List.range l.threads
    well := if k.keeps l then k.well else []
    wcache := l.wcache
    stopped := halted
    last := some (l.ctx, l.wcache) }

/-- The target is halted: a block that starts on it does not issue (R543). -/
def State.haltedCtx (s : State) (ctx : Nat) : Bool := s.dbg.target == some ctx && s.on F.TD_DBG_STAT_HALTED

/-- The next block, or the next eight of a cluster launch, start. -/
def State.dispatch (s : State) (l : Launch) (core : Nat) : State :=
  let cs := l.takes core
  let s := (cs.mapIdx fun i c => (i, c)).foldl (fun s e =>
    s.setCore e.2 ((s.core e.2).start l (l.next + e.1) (s.haltedCtx l.ctx))) s
  s.setLaunch { l with next := l.next + cs.length }

/-- A core block is dispatched to a free core of its launch; a cluster block to the cluster whose first core is named. -/
def execCoreBlockDispatch (launch core : Nat) (s : State) : Out :=
  .next <| match s.launch launch with
    | some l => if s.dispatchOk l core then s.dispatch l core else s
    | none => s

/-- Nothing of the core block is left: its threads have exited, its engine queue is empty, its stores, atomics and remote
writes are performed. -/
def State.blockDone (s : State) (core : Nat) : Bool :=
  let k := s.core core
  k.blk.isSome && k.live == [] && k.queue == [] && k.sb == [] && k.rq == [] && k.flights == [] && k.exc.isNone && !k.stopped &&
  !s.atomsOut core && !s.fabPending core (2 ^ 64) &&
  !(s.coh.pend.any fun q => q.cluster == core / 8)

/-- The launch has run every core block: its Sluices unbind and its command is over. -/
def State.launchEnd (s : State) (l : Launch) : State :=
  let s : State := { s with fe := { s.fe with launches := s.fe.launches.filter fun x => x.id != l.id } }
  (s.unbind l.id).endCmd l.cmd 0 0 0

/-- A core block completes: the core is free, and the front end counts the block. -/
def State.blockEnd (s : State) (core : Nat) (b : Blk) : State :=
  let k := s.core core
  let s := s.setCore core { Core.idle with well := k.well, wcache := k.wcache, last := k.last }
  match s.launch b.launch with
  | none => s
  | some l =>
    let l := { l with doneBlocks := l.doneBlocks + 1 }
    if l.doneBlocks = l.grid then s.launchEnd l else s.setLaunch l

/-- The release, the acknowledgements and the host-window drain of the end of a block are over (R256). -/
def execCoreBlockComplete (core : Nat) (s : State) : Out :=
  .next <|
    let t := (s.flushCore core).handRq core fun _ => true
    let k := s.core core
    if k.live != [] || k.stopped || k.exc.isSome then s
    else
      match k.blk with
      | none => s
      | some b => if t.blockDone core then t.blockEnd core b else t

end Sys2Proof.Machine
end

