-- ==== Sys2Proof/Machine/Memory.lean ====
section
/-! DEFINITION. The memory controllers' own events: rows, refresh, failures, scrubbing, row remaps, evacuation and the
bandwidth windows (R304 to R321). -/

namespace Sys2Proof.Machine

/-- An open row of a physical channel closes. -/
def execRowIdleClose (channel bank : Nat) (s : State) : Out :=
  .next <| if channel < 1584 ∧ bank < 32 then
      { s with mc := { s.mc with opened := tabDel s.mc.opened (channel * 32 + bank) } }
    else s

/-- A bank is refreshed beside traffic: nothing that the machine holds changes. -/
def execRefresh (channel bank : Nat) (s : State) : Out := .next s

/-- Threshold of a refresh band (R307). -/
def bandFloor (b : Nat) : Int := if b = 1 then 85 else 95

/-- The band falls by one when the hottest reading stands 3 °C or more below its threshold and every point is valid. -/
def execRefreshBandFall (stack : Nat) (s : State) : Out :=
  .next <|
    let b := s.get (F.MC_STACK_BAND stack)
    if stack < 12 ∧ b ≠ 0 ∧ !s.dieBad (10 + stack) ∧ toSigned 8 (s.get (F.MC_STACK_TEMP stack)) + 3 ≤ bandFloor b then
      s.setBand stack (b - 1)
    else s

/-! ### Failures, R311 -/

/-- Reads that a failed channel holds complete with poison, as its later reads do: the home sets SP, and the sectors are
counted (R311, R322). -/
def State.poisonReads (s : State) (ch : Nat) : State :=
  s.each (s.coh.txns.filter fun e => e.2.mem && chanOf (e.1 * 128) == ch && !s.noWay e.1 e.2 && !s.dirFull e.1 e.2) fun s e =>
    match s.txn e.1 with
    | some t => if t.req.kind == .rdNarrow then s.sectorCame e.1 t 0 none else s.lineCame e.1 t [] false none
    | none => s

/-- No response in time (`retrain` false), or retraining fails. -/
def execChannelResponseTimeout (channel : Nat) (retrain : Bool) (s : State) : Out :=
  .next <| if channel < 1536 ∧ s.chThere channel ∧ !s.chFailed channel then
      (s.failChannel channel (if retrain then 2 else 1)).poisonReads channel
    else s

/-- A parity error: the command is reissued; the third failure in a row fails the channel. -/
def execCommandParityError (channel : Nat) (s : State) : Out :=
  .next <| if channel < 1536 ∧ s.chThere channel ∧ !s.chFailed channel then
      let n := tabGet 0 s.mc.parity channel + 1
      if n < 3 then { s with mc := { s.mc with parity := tabIns s.mc.parity channel n } }
      else
        let s := { s with mc := { s.mc with parity := tabDel s.mc.parity channel } }
        (s.failChannel channel 3).poisonReads channel
    else s

/-! ### Rows, R313, R314 -/

/-- Spare rows of a bank that are not free: in use, being copied to, or bad. -/
def State.rowSpares (s : State) (phys bank : Nat) : List Nat :=
  (s.sp.rep.filterMap fun e =>
    if e.1 / 2 ^ 32 == 4 && e.2.state == 3 && e.1 % 2 ^ 32 / 2 ^ 14 == phys * 32 + bank then some e.2.logical else none) ++
  (s.sp.repl.filterMap fun r => if r.kind == 2 && r.unit / 2 ^ 14 == phys * 32 + bank then some r.spare else none) ++
  s.mc.badRows.filterMap fun b => if b / 64 == phys * 32 + bank then some (b % 64) else none

/-- The logical channel that a physical one serves: its slot, or the slot that is being evacuated to it. -/
def State.chLogical (s : State) (phys : Nat) : Option Nat :=
  (List.range 1536).find? fun c => s.chPhys c == phys + 1 || (s.copyingCh c).any fun r => r.spare == phys

/-- A physical row is to be remapped: a free spare row of its bank is taken for the row that it serves; without one the
row stays, is reported, and its channel is evacuated (R314, R516). -/
def State.rowWant (s : State) (unit reason : Nat) : State :=
  match s.rowServed unit, s.chLogical ((s.rowServed unit).getD 0 / 2 ^ 19) with
  | some row, some ch =>
    let phys := row / 2 ^ 19
    let bank := row / 2 ^ 14 % 32
    if (s.replFind 2 row).isSome || s.rowUnit row != unit then s
    else
      match (List.range 64).find? fun k => !(s.rowSpares phys bank).contains k with
      | some k => s.setRepl (s.sp.repl ++ [⟨2, row, k, 1, 0, reason⟩])
      | none => (s.event 5 5 4 none ch 0x3FF [ch, bank, row % 2 ^ 14]).evacWant ch reason
  | _, _ => s

/-- Sectors of a channel row stored as poison markers. -/
def State.markRow (s : State) (ch row : Nat) (bad : List Nat) : State :=
  let secs := bad.map fun j => chanMem ch (row * 1024 + j % 32 * 32) / 32
  { s with poison := secs.foldl setIns s.poison, mem := s.mem.filter fun e => !secs.contains (e.1 / 32)
           mc := { s.mc with bad := secs.foldl setDel s.mc.bad } }

/-- The channel row (by channel address) of a row's PHYS. -/
def rowOfPhys (row : Nat) : Nat := row % 2 ^ 14 * 32 + row / 2 ^ 14 % 32

/-- The spare row that served a row until now is free no more. -/
def State.rowLeft (s : State) (row : Nat) : State :=
  match s.rowSpare row with
  | some k => { s with mc := { s.mc with badRows := setIns s.mc.badRows (row / 2 ^ 14 * 64 + k) } }
  | none => s

/-- The copy of a row ends; `bad` lists the sectors that it could not read. A sector written since stays as written; the
spare row is the bank's open row. -/
def execRowRemapComplete (row : Nat) (bad : List Nat) (s : State) : Out :=
  .next <| match s.replFind 2 row, s.chLogical (row / 2 ^ 19) with
    | some r, some ch =>
      let sec := fun (j : Nat) => chanMem ch (rowOfPhys row * 1024 + j * 32) / 32
      let secs := (List.range 32).map sec
      let lost := (List.range 32).filter fun j => (bad.contains j || s.mc.bad.contains (sec j)) && !s.mc.rowWrites.contains (sec j)
      let s := ((s.replDel 2 row).markRow ch (rowOfPhys row) lost)
      let e : RepEnt := ⟨3, r.reason, r.spare, s.wearOf 2 (s.rowUnit row)⟩
      let s := (s.rowLeft row).repSet 4 row e
      let s : State := { s with mc := { s.mc with rowWrites := secs.foldl setDel s.mc.rowWrites } }
      let s := s.openRow (chanMem ch (rowOfPhys row * 1024))
      (s.set (F.MC_CH_STAT_ROWS ch) (s.rowsUsed (s.chPhys ch - 1))).spareEvent 2 4 row ch e
    | _, _ => s

/-- The scrubber reads a sector: 0 good, 1 to 18 corrected on a pin and written back, 19 uncorrectable, 20 uncorrectable
and still so after a rewrite. -/
def execPatrolScrubRead (addr err : Nat) (s : State) : Out :=
  .next <| if localTop ≤ addr ∨ s.lostAt addr then s
    else
      let sec := addr / 32
      let t := ((s.sectorCheck sec err).openRow addr).parityOk (chanOf addr)
      if err = 20 ∧ !s.sectorMarked sec then t.rowWant (s.rowUnit (s.rowAt addr)) 2 else t

/-! ### Evacuation, R315 to R317 -/

/-- A write of MC_EVAC with GO. -/
def State.evacGo (s : State) (ch : Nat) : State :=
  let s := s.set F.MC_EVAC_CH ch
  let st := F.MC_EVAC_STATUS
  if 1536 ≤ ch ∨ !s.chThere ch ∨ s.get (F.MC_CH_STAT_STATE ch) = 2 then s.set st 3
  else if s.on (F.MC_STACK_EVAC (ch / 128)) then s.set st 4
  else if s.spareChannels (ch / 128) = [] then s.set st 2
  else (s.set st 1).evacWant ch 3

def execMcEvacRequest (ch : Nat) (s : State) : Out := .next <| if s.barOk then s.evacGo (ch % 2048) else s

/-- The evacuation of a stack at a stage. -/
def State.evacAt (s : State) (stack stage : Nat) : Option Repl :=
  s.sp.repl.find? fun r => r.kind == 1 && r.unit / 128 == stack && r.stage == stage

/-- Training of the spare ends: copying begins at watermark 0, or the spare has failed and the next is tried. -/
def execEvacSpareTrained (stack : Nat) (ok : Bool) (s : State) : Out :=
  .next <| match s.evacAt stack 1 with
    | none => s
    | some r =>
      if ok then s.replSet { r with stage := 3, mark := 0 }
      else
        let e : RepEnt := ⟨2, 4, 0xFFFFFFFF, 0⟩
        let s := ((s.repSet 3 r.spare e).spareEvent 4 3 r.spare r.unit e).showSpares stack
        (s.evacTry r.unit r.reason).evacNext stack

/-- Step 5: the spare takes the logical slot. -/
def State.evacEnd (s : State) (r : Repl) : State :=
  let ch := r.unit
  let old := s.chPhys ch - 1
  let s := (s.retire 3 old r.reason (s.wearOf 3 old)).repSet 3 r.spare ⟨1, r.reason, ch, 0⟩
  let s := (s.replDel 1 ch).setChSlot ch (r.spare + 1)
  let s := { s with mc := { s.mc with failed := setDel s.mc.failed ch, kept := s.mc.kept.filter fun k => chanOf (k * 32) != ch } }
  let s := ((s.set (F.MC_CH_STAT_PHYS ch) r.spare).set (F.MC_CH_STAT_STATE ch) 0).set (F.MC_CH_STAT_ROWS ch)
    (s.rowsUsed r.spare)
  let s := (s.set (F.MC_STACK_EVAC (ch / 128)) 0).showSpares (ch / 128)
  let s := s.evacStatus ch 0
  (s.event 5 5 3 none ch 0x3FF [ch, old, r.spare]).evacNext (ch / 128)

/-- One 1 KiB row is copied; `bad` lists its unreadable or uncorrectable sectors. A failed channel gives nothing but
what was written since. -/
def execEvacRowCopy (stack : Nat) (bad : List Nat) (s : State) : Out :=
  .next <| match s.evacAt stack 3 with
    | none => s
    | some r =>
      let lost := (List.range 32).filter fun j =>
        s.sectorPoison (chanMem r.unit (r.mark * 1024 + j * 32) / 32) || (bad.contains j && !s.chFailed r.unit)
      let s := (s.markRow r.unit r.mark lost).openRow (chanMem r.unit (r.mark * 1024))
      let s := (s.replSet { r with mark := r.mark + 1 }).openRow (chanMem r.unit (r.mark * 1024))
      let r := { r with mark := r.mark + 1 }
      if r.mark < chanRows then s else s.evacEnd r

/-! ### Bandwidth windows, R319 to R321 -/

/-- A partition has used up CAP of the window and has requests pending: reads that wait, or posted accesses that the
controller holds for the next windows. -/
def State.atCap (s : State) (ch p : Nat) : Bool :=
  let u := s.chargeOf ch p
  (decide (s.lateOf ch p ≠ 0) && decide (s.capOf ch p ≤ u)) ||
  s.coh.txns.any fun e => e.2.mem && chanOf (e.1 * 128) == ch && s.chunkPart (e.1 * 128) == p &&
    decide (s.capOf ch p < u + max 1 e.2.ents)

/-- The stack of a channel is at 105 °C or above (R461). -/
def State.stackHot (s : State) (ch : Nat) : Bool := decide ((105 : Int) ≤ toSigned 8 (s.get (F.MC_STACK_TEMP (ch / 128))))

/-- A channel's window ends: partitions at their cap with requests pending are counted; the next window takes GUAR and CAP of
MC_REG and the limit of a hot stack, and serves what waits, in partition order, as far as these have room. -/
def execMcWindowBoundary (channel : Nat) (s : State) : Out :=
  .next <| if 1536 ≤ channel then s
    else
      let s := s.each ((List.range 16).filter (s.atCap channel)) fun s p => s.count (F.MC_CAPWIN_COUNT p) 1
      let take := fun (t : Tab Nat) (f : Nat → Nat) => (List.range 16).foldl (fun t p => tabIns t (channel * 16 + p) (f p)) t
      let t : State := { s with mc := { s.mc with
          charge := (List.range 16).foldl (fun t p => tabSet 0 t (channel * 16 + p) 0) s.mc.charge
          late := (List.range 16).foldl (fun t p => tabSet 0 t (channel * 16 + p) 0) s.mc.late
          caps := take s.mc.caps s.capReg
          guars := take s.mc.guars fun p => s.get (F.MC_REG_GUAR p)
          hot := if s.stackHot channel then setIns s.mc.hot channel else setDel s.mc.hot channel } }
      (List.range 16).foldl (fun t p => t.chargeAdd channel p (s.lateOf channel p)) t

/-- MC_REG: ignored where GUAR lies above 208 or the sum would. -/
def State.mcRegWrite (s : State) (p v : Nat) : State × Bool :=
  let g := bits v 7 0
  let sum := ((List.range 16).filter (· ≠ p)).foldl (fun n q => n + s.get (F.MC_REG_GUAR q)) g
  if 208 < g then (s.set F.MC_ERR_RANGE 1, false)
  else if 208 < sum then (s.set F.MC_ERR_SUM 1, false)
  else ((s.set (F.MC_REG_GUAR p) g).set (F.MC_REG_CAP p) (bits v 16 8), true)

def execMcRegWrite (p : Nat) (v : BitVec 64) (s : State) : Out :=
  .next <| if s.barOk && decide (p < 16) then (s.mcRegWrite p v.toNat).1 else s

end Sys2Proof.Machine
end

