-- ==== Sys2Proof/Machine/Wear.lean ====
section
/-! DEFINITION. Wear thresholds, wire substitution, cluster and slice replacement (R23 to R27, R33, R515 to R518). -/

namespace Sys2Proof.Machine

/-! ### Clusters, R517, R518 -/

/-- The partition of a cluster decides anew. -/
def State.clSchedule (s : State) (l : Nat) : State :=
  match s.clPart l with
  | some p => s.schedule p
  | none => s

/-- A cluster leaves service and no spare takes its slot: the slot is absent at once. -/
def State.clusterLeave (s : State) (l reason : Nat) : State :=
  let u := s.clPhys l - 1
  let e : RepEnt := ⟨0, reason, 0xFFFFFFFF, s.wearOf 5 u⟩
  let s := ((s.retire 1 u reason (s.wearOf 5 u)).dropCluster l).spareEvent 3 1 u l e
  ((s.replDel 5 l).setRepl ((s.replDel 5 l).sp.repl ++ [⟨5, l, 0, 3, 0, reason⟩])).clSchedule l

/-- A cluster is to be replaced: its spare runs the self-test. -/
def State.clusterWant (s : State) (l reason : Nat) : State :=
  if (s.replFind 5 l).isSome || !s.clThere l then s
  else
    match s.spareClusters l with
    | x :: _ =>
      let u := s.clPhys l - 1
      let s := if reason = 1 then s else s.spareEvent 0xFF 1 u l ⟨0, reason, 0xFFFFFFFF, s.wearOf 5 u⟩
      s.setRepl (s.sp.repl ++ [⟨5, l, x, 1, 0, reason⟩])
    | [] => s.clusterLeave l reason

/-- The logical cluster of a physical one. -/
def State.clLogical (s : State) (phys : Nat) : Option Nat := (List.range 128).find? fun l => s.clPhys l == phys + 1

/-- A spare cluster's self-test ends; `cluster` is the logical cluster that it replaces. -/
def execSpareSelfTestDone (cluster : Nat) (ok : Bool) (s : State) : Out :=
  .next <| match s.replFind 5 cluster with
    | some r =>
      if r.stage ≠ 1 then s
      else if ok then (s.replSet { r with stage := 2 }).clSchedule cluster
      else
        let e : RepEnt := ⟨2, 0, 0xFFFFFFFF, 0⟩
        (((s.repSet 1 r.spare e).spareEvent 4 1 r.spare cluster e).clusterLeave cluster r.reason).retireEnd 1 cluster 2
    | none => s

/-- Lines that a cluster cache holds. -/
def State.clusterLines (s : State) (k : Nat) : List Nat :=
  s.coh.cc.filterMap fun e => if e.1 % 128 = k then some (e.1 / 128) else none

/-- Every E and M line goes back to its home, and the directory forgets the cluster. -/
def State.evacuateCache (s : State) (k : Nat) : State :=
  let ls := s.clusterLines k
  let s := s.each ls fun s line =>
    let s := (s.evictCc k line).getD s
    match s.wbFind k line with
    | some w =>
      let s := s.notice k line w none
      s.setWb (dropFirst (fun w => w.cluster == k && w.line == line && w.acked) s.coh.wb)
    | none => s
  s.each (s.coh.dir.filterMap fun e =>
    match e.2.st with
    | .shared cs => if cs.contains k then some (e.1, setDel cs k) else none
    | .owner _ => none) fun s e => s.setDir e.1 (if e.2 = [] then none else some (.shared e.2))

/-- A context still holds the cluster. -/
def State.clusterHeld (s : State) (l : Nat) : Bool :=
  s.liveCtxs.any fun c => s.inMask c l && [2, 3, 4, 6].contains (s.ctxState c)

/-- The spare takes the slot: the repair state, the pipelines' service events, the contexts grantable again. -/
def State.clusterTake (s : State) (r : Repl) : State :=
  let l := r.unit
  let u := s.clPhys l - 1
  let s := (s.retire 1 u r.reason (s.wearOf 5 u)).setClSlot l (r.spare + 1)
  let e : RepEnt := ⟨1, r.reason, l, 0⟩
  let s := ((s.repSet 1 r.spare e).spareEvent 2 1 r.spare l e).svcPipes fun x => x.src / 8 == l || x.dst / 8 == l
  ((s.replDel 5 l).retireDone 1 l).clSchedule l

/-- The failing cluster's cache is empty. -/
def execClusterCacheEvacuated (cluster : Nat) (s : State) : Out :=
  .next <| match s.replFind 5 cluster with
    | some r =>
      if r.stage < 2 || s.clusterHeld cluster || (s.clusterLines cluster).any s.busy ||
          (s.coh.wb.filter fun w => w.cluster == cluster) != [] || (s.coh.pend.any fun q => q.cluster == cluster) then s
      else if r.stage = 2 then (s.evacuateCache cluster).clusterTake r
      else (s.evacuateCache cluster).replDel 5 cluster
    | none => s

/-! ### Windows and wires, R23 to R27 -/

/-- A window retires in service with the unit it serves. -/
def State.windowLost (s : State) (win reason : Nat) : State :=
  let u := windowUnit win
  if s.isRetired u.1 u.2 then s
  else
    let cl := s.clLogical u.2
    let old := s
    let s := s.retireWindow win reason
    if u.1 = 7 then s.seamLost u.2
    else if u.1 = 6 then s.bridgeLost old
    else if u.1 = 1 then match cl with | some l => s.clusterWant l reason | none => s
    else if u.1 = 12 then s.each ((List.range 8).map (u.2 * 8 + ·)) fun s l =>
      if s.clThere l then s.clusterLeave l reason else s
    else s

/-- The spare that served a wire serves it no more, and its entry says so. -/
def State.spareLeft (s : State) (phys reason : Nat) : State :=
  match tabFind s.sp.wires phys with
  | some y =>
    let x := wireWindow phys * 512 + y
    { s with sp := { s.sp with wires := tabDel s.sp.wires phys } }.repSet 5 x ⟨0, reason, 0xFFFFFFFF, s.wearOf 0 x⟩
  | none => s

/-- The next free spare of the wire's window is drained towards, or the window retires. -/
def State.wireTry (s : State) (phys reason : Nat) : State :=
  match s.freeWires (wireWindow phys) with
  | x :: _ => s.setRepl (s.sp.repl ++ [⟨0, phys, x, 1, 0, reason⟩])
  | [] => ((s.repSet 5 phys ⟨0, reason, 0xFFFFFFFF, s.wearOf 0 phys⟩).spareLeft phys reason).windowLost (wireWindow phys) reason

/-- The signal wire that a wire of a window carries: itself, or for a spare the wire that it replaces. -/
def State.wireOf (s : State) (phys : Nat) : Option Nat :=
  if wireIdx phys < 256 then some phys
  else (s.sp.wires.find? fun e => e.1 / 512 == wireWindow phys && e.2 == wireIdx phys).map (·.1)

/-- A wire is to be substituted. -/
def State.wireWant (s : State) (phys reason : Nat) : State :=
  match s.wireOf phys with
  | none => s
  | some w =>
    if !wireReal w || (s.replFind 0 w).isSome then s
    else ({ s with sp := { s.sp with failed := setIns s.sp.failed phys } } : State).wireTry w reason

def execSubstitutionDrainComplete (phys : Nat) (s : State) : Out :=
  .next <| match s.replFind 0 phys with
    | some r => if r.stage = 1 then s.replSet { r with stage := 2 } else s
    | none => s

/-- The training pattern passes: the spare is in use; or it fails and the next spare is tried. -/
def execSubstitutionTrainingResult (phys : Nat) (ok : Bool) (s : State) : Out :=
  .next <| match s.replFind 0 phys with
    | some r =>
      let win := wireWindow phys
      let s' := s.replDel 0 phys
      if r.stage ≠ 2 then s
      else if ok then
        let e : RepEnt := ⟨0, r.reason, 0xFFFFFFFF, s.wearOf 0 phys⟩
        let s := s'.spareLeft phys r.reason
        let s : State := { s with sp := { s.sp with wires := tabIns s.sp.wires phys r.spare } }
        (((s.repSet 5 phys e).repSet 5 (win * 512 + r.spare) (spareWireEnt r.reason phys)).event 5 14 1 none 0 0x3FF (entryWords 5 phys e)).serviceEvent win
      else
        let x := win * 512 + r.spare
        let e : RepEnt := ⟨2, 4, 0xFFFFFFFF, 0⟩
        let s : State := { s' with sp := { s'.sp with failed := setIns s'.sp.failed x } }
        ((s.repSet 5 x e).event 5 14 2 none 0 0x3FF (entryWords 5 x e)).wireTry phys r.reason
    | none => s

/-! ### Wear thresholds, R515 -/

/-- KIND of R521 and physical number of a monitored unit; a pin counts for its channel. -/
def wearUnit (kind unit : Nat) : Nat × Nat :=
  if kind = 0 then (5, unit) else if kind = 1 then (3, unit / 18) else if kind = 2 then (4, unit)
  else if kind = 3 then (3, unit) else if kind = 4 then (2, unit) else if kind = 5 then (1, unit) else (9, unit)

/-- The port and the lane of it that a physical lane serves. -/
def State.lanePort (s : State) (phys : Nat) : Option (Nat × Nat) :=
  ((List.range 144).map fun n => (n / 4, n % 4)).find? fun e => s.lanePhys e.1 e.2 == phys

/-- The action of a kind. -/
def State.wearAct (s : State) (kind unit : Nat) : State :=
  if kind = 0 then s.wireWant unit 1
  else if kind = 1 then match s.chLogical (unit / 18) with | some c => s.evacWant c 1 | none => s
  else if kind = 2 then s.rowWant unit 1
  else if kind = 3 then match s.chLogical unit with | some c => s.evacWant c 1 | none => s
  else if kind = 4 then match (List.range 256).find? fun i => s.slPhys i == unit + 1 with | some i => s.sliceWant i 1 | none => s
  else if kind = 5 then match s.clLogical unit with | some l => s.clusterWant l 1 | none => s
  else match s.lanePort unit with
    | some (j, i) =>
      if s.portState j = 2 then (s.setPort j { s.port j with bad := setIns (s.port j).bad i }).portRecover j else s
    | none => s

/-- The logical unit of a monitored unit, for its event record: channel, slice, cluster, port of a lane; 0 for a wire, which
belongs to none, and 0xFFFF for a unit that holds no slot (R527). -/
def State.wearLogical (s : State) (kind unit : Nat) : Nat :=
  if kind = 0 then 0
  else if kind = 1 then (s.chLogical (unit / 18)).getD 0xFFFF
  else if kind = 2 then (s.chLogical (unit / 2 ^ 19)).getD 0xFFFF
  else if kind = 3 then (s.chLogical unit).getD 0xFFFF
  else if kind = 4 then ((List.range 256).find? fun i => s.slPhys i == unit + 1).getD 0xFFFF
  else if kind = 5 then (s.clLogical unit).getD 0xFFFF
  else ((s.lanePort unit).map (·.1)).getD 0xFFFF

/-- A count has reached its kind's threshold: a lane's is taken for every 2^32 of the `symbols` that it received in the
window (R515). -/
def State.wornOut (s : State) (kind unit symbols : Nat) : Bool :=
  let thr := s.get (F.SP_THR_THR kind)
  let n := s.wearOf kind unit
  decide (thr ≠ 0) && if kind = 6 then decide (0 < symbols ∧ thr * symbols ≤ n * 2 ^ 32) else decide (thr ≤ n)

/-- `extra` corrected errors of the unit are counted; the action is taken once per window when the count has reached its
threshold. -/
def execWearThresholdReached (kind unit extra symbols : Nat) (s : State) : Out :=
  .next <| if 6 < kind then s
    else
      let s := s.wear kind unit extra
      let n := s.wearOf kind unit
      if s.wornOut kind unit symbols = false ∨ wearKey kind unit ∈ s.sp.acted then s
      else
        let u := wearUnit kind unit
        let s : State := { s with sp := { s.sp with acted := setIns s.sp.acted (wearKey kind unit) } }
        (s.spareEvent 1 u.1 u.2 (s.wearLogical kind unit) ⟨0, 1, 0xFFFFFFFF, n⟩).wearAct kind unit

/-! ### The fleet operator's request, R516, R525 -/

/-- A write of SP_RETIRE. -/
def State.retireWrite (s : State) (v : Nat) : State :=
  let kind := bits v 1 0
  let u := bits v 27 16
  let s := (s.set F.SP_RETIRE_KIND kind).set F.SP_RETIRE_UNIT u
  let st := fun (s : State) (n : Nat) => s.set F.SP_RETIRE_STATUS n
  if !bit v 32 then s
  else if kind = 1 then
    if !s.clThere u then st s 3
    else if (s.replFind 5 u).isSome then st s 4
    else if s.spareClusters u = [] then (st s 2).clusterWant u 3 else (st s 1).clusterWant u 3
  else if kind = 2 then
    if !s.slThere u then st s 3
    else if (s.replFind 4 u).isSome then st s 4
    else if s.spareSlices u = [] then (st s 2).sliceWant u 3 else (st s 1).sliceWant u 3
  else st s 3

def execRetireRequest (v : BitVec 64) (s : State) : Out := .next <| if s.barOk then s.retireWrite v.toNat else s

/-! ### UCIe, R33 -/

/-- The link has been trained (step 5 of R479). -/
def State.linkUp (s : State) : Bool :=
  match s.boot.phase with
  | .running n => decide (5 < n)
  | .ready => true
  | .unready n _ => decide (5 < n)
  | _ => false

def execUcieModuleFailure (mod : Nat) (s : State) : Out :=
  .next <| if s.linkUp && s.running then s.retireModule mod 4 else s

end Sys2Proof.Machine
end

