-- ==== Sys2Proof/Machine/Debug.lean ====
section
/-! DEFINITION. The debugger: attach, halt, step, the debug registers, and the IEEE 1687 instruments (R540 to R546). -/

namespace Sys2Proof.Machine

/-! ### The operations, R543, R544 -/

/-- Issue restarts on the target's cores; an exception that HOLD deferred goes on to its teardown. -/
def State.resumeTarget (s : State) : State :=
  match s.dbg.target with
  | none => s
  | some ctx =>
    if !s.on F.TD_DBG_STAT_HALTED then s
    else
      let s := s.set F.TD_DBG_STAT_HALTED 0
      let s := if s.ctxState ctx = 2 then
        s.each (s.coresOf ctx) fun s c => s.setCore c { s.core c with stopped := (s.core c).exc.isSome } else s
      let held := s.dbg.held
      let s : State := { s with dbg := { s.dbg with held := none, step := none } }
      match held with
      | some c => s.takeExc c
      | none => s

/-- The target is cleared. -/
def State.dropTarget (s : State) : State := { s with dbg := ⟨none, none, none⟩ }.set F.TD_DBG_STAT_ATTACHED 0

/-- A context becomes the target and the breakpoints are cleared; another target is let go first. -/
def State.attachTo (s : State) (ctx : Nat) : State :=
  let s := if s.dbg.target = some ctx then s else (s.resumeTarget).dropTarget
  let s := s.each (List.range 4) fun s i => s.setRaw (A.TD_BRK i) 0
  { s with dbg := { s.dbg with target := some ctx } }.set F.TD_DBG_STAT_ATTACHED 1

/-- The lowest program counter of a group's live threads that do not wait. -/
def Core.lowestPc (k : Core) (group : Nat) : Option Nat :=
  ((k.movers group).map k.thPc).foldl
    (fun a v => match a with | none => some v | some x => some (min x v)) none

/-- One instruction of the selected group may issue. -/
def State.armStep (s : State) (ctx : Nat) : State :=
  let c := s.get F.TD_ACC_SEL_CORE
  let g := s.get F.TD_ACC_SEL_GROUP
  if (s.core c).blk.map (·.ctx) ≠ some ctx then s
  else
    match (s.core c).lowestPc g with
    | some pc => { s with dbg := { s.dbg with step := some (c, g, pc) } }.set F.TD_DBG_CTL_BUSY 1
    | none => s

/-- A GO of TD_DBG_CTL. -/
def State.dbgGo (s : State) (op : Nat) : State :=
  let st := fun (s : State) (n : Nat) => s.set F.TD_DBG_CTL_STATUS n
  if s.on F.TD_DBG_CTL_BUSY then st s 4
  else if op = 0 ∨ 5 < op then s
  else if s.dbgLevel = 0 then (st s 1).event 7 17 0x01
  else if op = 1 then
    let c := s.get F.TD_DBG_CTL_CTX
    if s.ctxState c = 0 then st s 2 else (st s 0).attachTo c
  else
    match s.dbg.target with
    | none => st s 2
    | some ctx =>
      if op = 2 then (st s 0).resumeTarget.dropTarget
      else if op = 3 then if s.on F.TD_DBG_STAT_HALTED then st s 0 else (st s 0).halt ctx 0 0 0 0
      else if op = 4 then (st s 0).resumeTarget
      else if !s.on F.TD_DBG_STAT_HALTED then st s 3 else (st s 0).armStep ctx

/-- A write of TD_DBG_CTL. -/
def State.dbgCtlWrite (s : State) (v : Nat) : State :=
  let s := ((s.set F.TD_DBG_CTL_CTX (bits v 9 0)).set F.TD_DBG_CTL_OP (bits v 12 10)).set F.TD_DBG_CTL_HOLD (bits v 14 14)
  if bit v 13 then s.dbgGo (bits v 12 10) else s

/-- TD_DBG_CTL with GO, an operation, a context and HOLD. -/
def dbgWord (op ctx hold : Nat) : Nat := ctx % 1024 + op * 2 ^ 10 + 2 ^ 13 + hold % 2 * 2 ^ 14

def execAttach (ctx : Nat) (hold : Bool) (s : State) : Out :=
  .next <| if s.barOk then s.dbgCtlWrite (dbgWord 1 ctx (b2n hold)) else s
def execDetach (ctx : Nat) (hold : Bool) (s : State) : Out :=
  .next <| if s.barOk then s.dbgCtlWrite (dbgWord 2 ctx (b2n hold)) else s
def execHalt (ctx : Nat) (hold : Bool) (s : State) : Out :=
  .next <| if s.barOk then s.dbgCtlWrite (dbgWord 3 ctx (b2n hold)) else s
def execResume (ctx : Nat) (hold : Bool) (s : State) : Out :=
  .next <| if s.barOk then s.dbgCtlWrite (dbgWord 4 ctx (b2n hold)) else s
def execStep (ctx : Nat) (hold : Bool) (s : State) : Out :=
  .next <| if s.barOk then s.dbgCtlWrite (dbgWord 5 ctx (b2n hold)) else s

/-! ### The registers, R545, R546 -/

/-- A write of a TD_ register, whole. -/
def State.tdWrite (s : State) (off v : Nat) : State :=
  if off = A.TD_DBG_CTL then s.dbgCtlWrite v
  else if off = A.TD_DBG_STAT then if bit v 20 then s.set F.TD_DBG_STAT_ACCERR 0 else s
  else if A.TD_BRK 0 ≤ off ∧ off < A.TD_BRK 4 then
    let i := (off - A.TD_BRK 0) / 8
    (s.set (F.TD_BRK_EN i) (bits v 0 0)).set (F.TD_BRK_ADDR i) (bits v 51 4)
  else if off = A.TD_ACC_SEL then s.setRaw off (BitVec.ofNat 64 (bits v 45 0))
  else if off = A.TD_ACC_DATA then s.accWrite v
  else s

/-- A read of a TD_ register, whole. -/
def State.tdRead (s : State) (off : Nat) : State × Nat :=
  if off = A.TD_ACC_DATA then s.accRead else (s, (s.raw off).toNat &&& readMask off)

def execDebugAccessRead (mod : Nat) (s : State) : Out :=
  .next <| if s.barOk then
    let r := s.accRead
    r.1.complete mod (.cplData (toBytes 8 r.2) false) else s

def execDebugAccessWrite (v : BitVec 64) (s : State) : Out := .next <| if s.barOk then s.accWrite v.toNat else s

/-! ### The IEEE 1687 network, R540, R541 -/

/-- Die i of the chain order has an instrument: 0 status, 1 monitors, 2 debug access, 3 memory self-test, 4 logic
self-test, 5 pattern generator and checker. -/
def instrumentOn (i instr : Nat) : Bool :=
  let qb := i == 0 || i == 12
  let cd := (chainCompute i).isSome
  let ms := (5 ≤ i && i ≤ 10) || (17 ≤ i && i ≤ 22)
  let io := i == 11 || i == 23
  match instr with
  | 0 => qb
  | 1 => qb || cd
  | 2 => qb
  | 3 => cd || qb || ms
  | _ => cd || qb || io

/-- The level, or the test hold, permits an instrument. -/
def State.instrumentOk (s : State) (instr : Nat) : Bool :=
  if instr = 0 then true else if instr ≤ 2 then decide (1 ≤ s.dbgLevel) else s.testHold

/-- Step of R479 that the status instrument shows. -/
def Phase.code : Phase → Nat
  | .held => 0
  | .running n => n
  | .ready => 12
  | .unready n r => n + 16 * r
  | .recovery r => 4 + 16 * r

/-- What the status instrument shows, in the order of R540. -/
def State.statusItems (s : State) : List Nat :=
  [s.boot.phase.code, (s.raw A.BT_STAT).toNat, (s.raw A.PW_TRIP).toNat] ++
    (List.range 416).map fun i => (s.raw (A.PW_TEMP i)).toNat

/-- What the chain shifts out around the network of one die: the dies after it in the chain come out first, one bit each,
then the network's bits, then the dies before it. An unselected die gives its bypass bit (R539), another selected die
the one bit of its closed network. -/
def chainBits (die : Nat) (l : List Bool) : List Bool := List.replicate (23 - die) false ++ l ++ List.replicate die false

/-- An access to an instrument of a selected die, by IJTAG: `off` and `v` are for the debug registers, `n` is the length of
the register. -/
def execIjtag (die instr : Nat) (write : Bool) (off v n : Nat) (s : State) : Out :=
  .next <| if !s.tapOk then s
    else
      let s : State := { s with tap := { s.tap with ir := 0x11, drive := false } }
      let out := fun (s : State) (l : List Bool) => s.emit (.tdo (chainBits die l))
      let zeros := List.replicate n false
      if !s.selected.getLsbD die then s.emit (.tdo (List.replicate 24 false))
      else if !instrumentOn die instr then out s zeros
      else if !s.instrumentOk instr then out (s.event 7 17 0x01) zeros
      else if instr = 0 then out s (Config.instrument 0 s.statusItems)
      else if instr = 1 then
        out s (Config.instrument 1 ([die] ++ s.pow.droop ++ (List.range 8).map fun n => s.get (F.PW_DIE_STAT_PSTATE n)))
      else if instr = 2 then
        if write then out (s.tdWrite (A.TD_DBG_CTL + off % 0x10000) v) zeros
        else
          let r := s.tdRead (A.TD_DBG_CTL + off % 0x10000)
          out r.1 (Config.instrument 2 [r.2])
      else
        let (x, s) := s.draw
        out { s with tap := { s.tap with instr := tabIns s.tap.instr (die * 8 + instr) x.toNat } }
          (Config.instrument instr [die, x.toNat])

end Sys2Proof.Machine
end

