-- ==== Sys2Proof/Machine/Reset.lean ====
section
/-! DEFINITION. The whole-device reset (R386, R438, R484, R563), and what starts one. -/

namespace Sys2Proof.Machine

/-- Every context is torn down with cause 8 and is FREE. -/
def State.resetCtxs (s : State) : State :=
  s.each s.liveCtxs fun s c =>
    let s := ((s.bumpCgen c).setCtxState c 0).set (F.PT_CTX_STAT_CAUSE c) 8
    (s.set (F.PT_CTX_CTL_LIVE c) 0).event 3 9 0x108 (some (s.ctxPart c)) c c [c, 8, s.cgenOf c]

/-- Every queue is OFF, with nothing held and no record written. -/
def State.resetQueues (s : State) : State :=
  let s := s.each (s.regsAt (A.FE_Q_STAT 0) 0x80 4096) fun s q =>
    ((s.set (F.FE_Q_STAT_STATE q) 0).set (F.FE_Q_STAT_HELD q) 0).set (F.FE_Q_DONE_DONE q) (s.get (F.FE_Q_SEQ_NEXT q))
  let s := s.each (s.regsAt (A.FE_BERTH_OWN 0) 16 4096) fun s b =>
    (s.set (F.FE_BERTH_OWN_EN b) 0).set (F.FE_BERTH_OWN_COUNT b) 0
  let s := s.each s.fe.graphs fun s e => s.setRaw (A.FE_GRAPH (e.1 / 1024) (e.1 % 1024)) 0
  let s := s.each (List.range 16) fun s p => s.set (F.FE_GSIZE_FREE p) (16 * s.get (F.FE_GSIZE_SIZE p))
  { s with fe := { Front.reset with nextCmd := s.fe.nextCmd } }

/-- The caches, cores and Sluices are empty; a slice replacement goes on, and a rehome ends at once. -/
def State.resetCaches (s : State) : State :=
  let s := match s.coh.rehome with
    | some (off, v) => s.setRaw off v
    | none => s
  let s := s.set F.CS_REHOME_BUSY 0
  let s := s.each (List.range 16) fun s p =>
    ((s.set (F.CS_FLUSH_BUSY p) 0).set (F.CS_PIN_CTL_BUSY p) 0).set (F.CS_PIN_STAT_PINNED p) 0
  let s := s.each (List.range 64) fun s n => s.set (F.SL_PIPE_STAT_BOUND n) 0
  { s with
    cores := []
    sluices := []
    coh := { Coh.reset with copying := s.coh.copying }
    mc := { MemCtl.reset with failed := s.mc.failed, bad := s.mc.bad, badRows := s.mc.badRows } }

/-- INST is 0, every port is DOWN, and every connection is gone. -/
def State.resetFabric (s : State) : State :=
  let s := s.each (List.range 36) fun s j => (s.set (F.GF_PORT_STAT_LANES j) 0).portGo j 0
  let ports := s.fab.ports.filterMap fun e =>
    if e.1 < 36 ∧ e.2.bad ≠ [] then some (e.1, { Port.idle with bad := e.2.bad }) else none
  { s with fab := ⟨ports, [], [], [], [], [], []⟩ }.set F.GF_CHIPID_INST 0

/-- Engines, host requests, debug, and operations in progress. -/
def State.resetEngines (s : State) : State :=
  let s := s.each (List.range 224) fun s u =>
    if s.get (F.PU_UNIT_STAT_STATE u) = 1 then s.set (F.PU_UNIT_STAT_STATE u) 0 else s
  let s := s.each (List.range 64) fun s v => s.set (F.PT_XLAT_INV_BUSY v) 0
  let s := (s.set F.PT_HWIN_SYNC_DONE 1).set F.PT_DIRTY_CTL_DONE 1
  let s := (s.set F.PT_MIG_CTL_BUSY 0).set F.BT_UPD_CTL_BUSY 0
  let s := s.each (List.range 4) fun s k => s.set (F.CV_CTL_BUSY k) 0
  let s := (s.setRaw A.TD_DBG_STAT 0).set F.TD_DBG_CTL_BUSY 0
  { s with
    dbg := ⟨none, none, none⟩
    boot := { s.boot with upd := none, selDone := [] }
    host := { s.host with tlb := [], walks := [], invs := [], reads := [], sync := [], syncTo := 0 } }

/-- The recorder: logs disabled and empty, the snapshot in progress abandoned, samples from zero. -/
def State.resetRecorder (s : State) : State :=
  let s := s.each (List.range 17) fun s l =>
    let s := (s.set (F.EV_LOG_CFG_EN l) 0).set (F.EV_LOG_WR_WR l) 0
    ((s.set (F.EV_LOG_RD_RD l) 0).set (F.EV_LOG_STAT_FULL l) 0).set (F.EV_LOG_STAT_LOST l) 0
  { s with evr := { s.evr with
      queue := (s.evr.queue.map fun (r : EvRec) => { r with toPart := false })
      adv := [], snapAcks := none, snapWait := [], snapCmd := none, snapDone := [], hist := [], ext := [] } }.set
    F.EV_SNAP_BUSY 0

/-- A whole-device reset starts: `code` is its event's. Start-up runs again from step 9. -/
def State.resetFrom9 (s : State) (code : Nat) : State :=
  let s := (s.set F.FE_DEV_RESET_BUSY 1).count F.FE_DEV_RESET_COUNT 1
  let s := s.resetRecorder.event 6 8 code none 0 0x3FF [s.get F.FE_DEV_RESET_COUNT]
  let s := s.resetCtxs.resetQueues.resetCaches.resetFabric.resetEngines
  let s := s.each (List.range 64) State.bumpGen
  { s with boot := { s.boot with phase := .running 9, rerun := true } }.set F.BT_STAT_READY 0

/-- A device that is ready starts one. -/
def State.devReset (s : State) (code : Nat) : State :=
  if s.boot.phase ≠ .ready ∨ s.boot.stopped = true then s else s.resetFrom9 code

def execWholeDeviceReset (s : State) : Out := .next <| if s.barOk then s.devReset 0x301 else s

/-- The lead complex has failed: a reset that runs on the same lead. One that fails again in the configuration step cannot
complete it, and the device stays unready (R483). DESIGN CHOICE: so does one that fails in steps 4 to 8, since a reset runs
steps 9 to 11 alone and those steps are not done. -/
def State.leadFails (s : State) : State :=
  let reset := { s with boot := { s.boot with leadFailed := true } }.resetFrom9 0x303
  if s.boot.stopped then s
  else match s.boot.phase with
    | .ready => reset
    | .running n =>
      if n < 4 then s
      else if n < 9 then s.phaseTo (.unready n 1)
      else if n = 9 ∧ s.boot.leadFailed = true then s.phaseTo (.unready 9 1)
      else reset
    | _ => s

def execCpWatchdogExpiry (s : State) : Out := .next s.leadFails

/-- A guilty reset of the queue has not completed within its bound. -/
def execGuiltyResetBoundMissed (queue : Nat) (s : State) : Out :=
  .next <| if queue < 4096 ∧ s.qState queue = 3 then s.devReset 0x302 else s

/-- An FLR of PF0. -/
def execPfFlr (s : State) : Out :=
  .next <| if s.boot.phase = .ready ∧ s.boot.stopped = false then
      let s := s.vfEnClear.devReset 0xFF
      { s with host := { s.host with
          cfg := s.host.cfg.filter fun e => e.1 / 4096 != 0
          msix := s.host.msix.filter fun e => e.1 / 2048 != 0
          pba := s.host.pba.filter fun i => i / 2048 != 0 } }
    else s

/-- Ready again: BUSY clears and PF0's vector 0 is signalled. -/
def execWholeDeviceResetComplete (s : State) : Out :=
  .next <| if s.boot.rerun = true ∧ s.boot.phase = .ready then
      ({ s with boot := { s.boot with rerun := false } }.set F.FE_DEV_RESET_BUSY 0).interrupt 0 0
    else s

end Sys2Proof.Machine
end

