-- ==== Sys2Proof/Machine/Migration.lean ====
section
/-! DEFINITION. Migration of a VF: freeze, save, restore, thaw, and the migration record (R409 to R411, R416). -/

namespace Sys2Proof.Machine

/-! ### The record's body, R410, R411 -/

/-- A queue as the record holds it: number, the registers of its block, open blocks, held records, the last record. -/
structure MigQueue where
  num : Nat
  words : List (BitVec 64)
  nest : List Nest
  held : List Rec
  last : Option Rec
  deriving DecidableEq, Repr

/-- A Berth: number, its two registers, items delivered, and the bytes of its ring. -/
structure MigBerth where
  num : Nat
  cfg : BitVec 64
  own : BitVec 64
  taken : Nat
  items : List Byte
  deriving DecidableEq, Repr

/-- A stored graph: number, its register, its runs, and the bytes of both buffers. -/
structure MigGraph where
  num : Nat
  reg : BitVec 64
  graph : Graph
  buf0 : List Byte
  buf1 : List Byte
  deriving DecidableEq, Repr

/-- A context: number, cluster mask, SHARE, save area, root, state register, charge counters, and what the save area's control
state holds of it. -/
structure MigCtx where
  num : Nat
  mask : Nat
  share : Nat
  save : BitVec 64
  root : BitVec 64
  stat : BitVec 64
  charges : List (BitVec 64)
  ctx : Ctx
  deriving DecidableEq, Repr

/-- The body of a migration record. -/
structure MigRec where
  mask : Nat
  gen : Nat
  next : Nat
  queues : List MigQueue
  cmds : List Cmd
  launches : List Launch
  berths : List MigBerth
  graphs : List MigGraph
  free : Nat
  ctxs : List MigCtx
  sluices : List Sluice
  /-- Fabric answers that its commands have not collected. -/
  done : List FabDone
  deriving DecidableEq, Repr

end Sys2Proof.Machine

namespace Sys2Proof

/-- The layout of a migration record's body, which its FORMAT fixes and the manual does not give (R411, R416). -/
opaque Config.migBytes : Machine.MigRec → List Byte
/-- The body that such bytes hold. -/
opaque Config.migBody : List Byte → Option Machine.MigRec

end Sys2Proof

namespace Sys2Proof.Machine

/-! ### Who may migrate -/

def State.migPart (s : State) (v : Nat) : Nat := s.get (F.PT_FN_PART v)

/-- The queues of a partition that are not OFF. -/
def State.partQueues (s : State) (p : Nat) : List Nat :=
  (s.regsAt (A.FE_Q_STAT 0) 0x80 4096).filter fun q => s.qState q != 0 && s.qPart q == p

/-- VF v is the only function bound to its partition, and owns its contexts and queues. -/
def State.soleOwner (s : State) (v : Nat) : Bool :=
  let p := s.migPart v
  decide (1 ≤ v) && s.boundTo v p &&
  (List.range 64).all (fun w => w == v || !s.boundTo w p) &&
  (s.partCtxs p).all (fun c => s.get (F.PT_CTX_CTL_FUNC c) == v) &&
  (s.partQueues p).all fun q => s.qFunc q == v

def State.migEnd (s : State) (st : Nat) : State := (s.set F.PT_MIG_CTL_BUSY 0).set F.PT_MIG_CTL_STATUS st

/-! ### Freeze and thaw -/

/-- A freeze of VF v comes into force: contexts that hold no cores are FROZEN, the others are switched out. -/
def State.migFreeze (s : State) (v : Nat) : State :=
  if s.fe.frozen.contains v then s.migEnd 2
  else
    let s := { s with fe := { s.fe with frozen := setIns s.fe.frozen v } }.set F.PT_MIG_CTL_BUSY 1
    s.each (s.partCtxs (s.migPart v)) fun s c =>
      let st := s.ctxState c
      let x := { s.ctx c with granted := false }
      if st = 1 then (s.setCtx c x).setCtxState c 5
      else if st = 2 then (s.setCtx c x).preempt c true
      else if st = 3 ∨ st = 4 then s.setCtx c { x with freeze := true }
      else s

/-- No context of the partition runs or moves, and none of its commands changes state: no record is due, and none waits for a
snapshot or for the flash (R410). -/
def State.still (s : State) (p : Nat) : Bool :=
  ((s.partCtxs p).all fun c => !([2, 3, 4, 6].contains (s.ctxState c))) &&
  s.fe.cmds.all fun c => s.qPart c.queue != p || (!c.ended && (s.overAs c).isNone && !(c.started && (c.op == 0x13 || c.op == 0x17)))

def execMigrationFreezeComplete (vf : Nat) (s : State) : Out :=
  .next <| if s.fe.frozen.contains vf && !s.fe.stopped.contains vf && s.still (s.migPart vf) then
    { s with fe := { s.fe with stopped := setIns s.fe.stopped vf } }.migEnd 0 else s

/-- The freeze ends: contexts return to IDLE and the queues fetch again. -/
def State.migThaw (s : State) (v : Nat) : State :=
  if !s.fe.stopped.contains v then s.migEnd 2
  else
    let s : State := { s with fe := { s.fe with frozen := setDel s.fe.frozen v, stopped := setDel s.fe.stopped v } }
    ((s.thawCtxs v).schedule (s.migPart v)).migEnd 0

/-! ### Save -/

/-- The registers of a queue's block. -/
def qWords (q : Nat) : List Nat := (List.range 12).map fun i => A.FE_Q_RING q + 8 * i

def State.migQueue (s : State) (q : Nat) : MigQueue :=
  ⟨q, (qWords q).map s.raw, tabGet [] s.fe.nests q, s.heldOf q, tabFind s.fe.last q⟩

def State.migBerth (s : State) (b : Nat) : MigBerth :=
  ⟨b, s.raw (A.FE_BERTH_CFG b), s.raw (A.FE_BERTH_OWN b), tabGet 0 s.fe.taken b,
   s.peek (s.get (F.FE_BERTH_CFG_BASE b) * 4096) (64 * s.berthDepth b)⟩

def State.migGraph (s : State) (p n : Nat) (g : Graph) : MigGraph :=
  ⟨n, s.raw (A.FE_GRAPH p n), g, s.peek (s.graphUnit p g.run0) (4096 * g.units), s.peek (s.graphUnit p g.run1) (4096 * g.units)⟩

/-- The charge counters of a context. -/
def chgWords (c : Nat) : List Nat := (List.range 5).map fun i => A.PT_CHG_CORE c + 8 * i

def State.migCtx (s : State) (c : Nat) : MigCtx :=
  ⟨c, s.ctxMask c, s.get (F.PT_CTX_CTL_SHARE c), s.raw (A.PT_CTX_SAVE c), s.raw (A.PT_CTX_ROOT c), s.raw (A.PT_CTX_STAT c), (chgWords c).map s.raw, s.ctx c⟩

/-- The record of VF v. -/
def State.migRec (s : State) (v : Nat) : MigRec :=
  let p := s.migPart v
  let bs := (s.regsAt (A.FE_BERTH_OWN 0) 16 4096).filter fun b =>
    s.on (F.FE_BERTH_OWN_EN b) && s.get (F.FE_BERTH_OWN_PART b) == p
  { mask := s.partClusters p, gen := s.genOf v, next := s.fe.nextCmd
    queues := (s.partQueues p).map s.migQueue
    cmds := s.fe.cmds.filter fun c => s.qPart c.queue == p
    launches := s.fe.launches.filter fun l => l.part == p
    berths := bs.map s.migBerth
    graphs := (s.fe.graphs.filter fun e => e.1 / 1024 == p).map fun e => s.migGraph p (e.1 % 1024) e.2
    free := s.get (F.FE_GSIZE_FREE p)
    ctxs := (s.partCtxs p).map s.migCtx
    sluices := s.sluices.filter fun x => x.part == p
    done := s.fab.done.filter fun d => s.fe.cmds.any fun c => c.id == d.cmd && s.qPart c.queue == p }

/-- The header and the body. -/
def migRecord (r : MigRec) : List Byte :=
  let body := Config.migBytes r
  toBytes 2 1 ++ toBytes 2 r.queues.length ++ toBytes 2 r.ctxs.length ++ toBytes 2 0 ++ toBytes 8 (64 + body.length) ++
  toBytes 4 (crc32c body) ++ List.replicate 44 0 ++ body

def State.migBuf (s : State) : Nat := s.get F.PT_MIG_BUF_BASE * 4096

def State.migSave (s : State) (v : Nat) : State :=
  if !s.fe.stopped.contains v then s.migEnd 2
  else
    let l := migRecord (s.migRec v)
    if localTop < s.migBuf + l.length then s.migEnd 4
    else ((s.poke s.migBuf l).set F.PT_MIG_LEN_LEN l.length).migEnd 0

/-! ### Restore -/

/-- The record in the buffer: none where its format or its check value is wrong. -/
def State.migRead (s : State) : Option MigRec :=
  let h := s.peek s.migBuf 64
  let len := bytesAt h 8 8
  if bytesAt h 0 2 ≠ 1 ∨ len < 64 ∨ localTop < s.migBuf + len ∨ s.poisonIn s.migBuf 64 = true then none
  else
    let body := s.peek (s.migBuf + 64) (len - 64)
    if crc32c body ≠ bytesAt h 16 4 ∨ s.poisonIn (s.migBuf + 64) (len - 64) = true then none else Config.migBody body

/-- The destination is as R410 requires. -/
def State.migFits (s : State) (v : Nat) (r : MigRec) : Bool :=
  let p := s.migPart v
  !s.fe.frozen.contains v && s.partEn p && s.partClusters p == r.mask &&
  r.ctxs.all (fun x => s.ctxState x.num == 1 && s.ctxPart x.num == p && s.ctxMask x.num == x.mask &&
    s.get (F.PT_CTX_CTL_SHARE x.num) == x.share && !(s.ctx x.num).ran) &&
  r.queues.all (fun x => s.qState x.num == 0 && s.qFunc x.num == v) &&
  r.graphs.all fun g => decide ((max g.graph.run0 g.graph.run1) + g.graph.units ≤ 16 * s.get (F.FE_GSIZE_SIZE p))

/-- A saved command with fresh identifiers, in the new partition; its unit was the source's, and it takes one here. -/
def Cmd.moved (c : Cmd) (k p : Nat) : Cmd :=
  { c with
    id := c.id + k, parent := c.parent.map (· + k), graph := c.graph.map fun g => (p * 1024 + g.1 % 1024, g.2)
    job := c.job.map fun j => { j with unit := 0xFFFF, was := 0xFFFF } }
def Launch.moved (l : Launch) (k p : Nat) : Launch := { l with id := l.id + k, cmd := l.cmd + k, part := p }
def Core.moved (c : Core) (k p : Nat) : Core :=
  { c with blk := c.blk.map fun b => { b with launch := b.launch + k, part := p } }
/-- A recorded read with its command's new identifier (a core's names none). -/
def RdOut.moved (r : RdOut) (k p : Nat) : RdOut :=
  { r with org := { r.org with part := p, cmd := if r.org.agent = 2 then r.org.cmd + k else r.org.cmd } }
def Ctx.moved (x : Ctx) (k p : Nat) : Ctx :=
  { x with saved := x.saved.map fun e => (e.1, e.2.moved k p), reads := x.reads.map fun r => r.moved k p }

/-- One queue loaded: its registers but for the owner and ENABLE's place, its records. -/
def State.loadQueue (s : State) (v p : Nat) (x : MigQueue) : State :=
  let s := (List.zip (qWords x.num) x.words).foldl (fun s e => s.setRaw e.1 e.2) s
  let s := (s.set (F.FE_Q_OWN_PART x.num) p).set (F.FE_Q_OWN_FUNC x.num) v
  { s with fe := { s.fe with
      nests := tabSet [] s.fe.nests x.num x.nest
      held := tabSet [] s.fe.held x.num x.held
      last := match x.last with | some r => tabIns s.fe.last x.num r | none => s.fe.last } }

def State.loadBerth (s : State) (p : Nat) (x : MigBerth) : State :=
  let s := ((s.setRaw (A.FE_BERTH_CFG x.num) x.cfg).setRaw (A.FE_BERTH_OWN x.num) x.own).set (F.FE_BERTH_OWN_PART x.num) p
  let s : State := { s with fe := { s.fe with taken := tabSet 0 s.fe.taken x.num x.taken } }
  s.poke (s.get (F.FE_BERTH_CFG_BASE x.num) * 4096) x.items

def State.loadGraph (s : State) (p : Nat) (x : MigGraph) : State :=
  let s := s.setRaw (A.FE_GRAPH p x.num) x.reg
  let s : State := { s with fe := { s.fe with graphs := tabIns s.fe.graphs (p * 1024 + x.num) x.graph } }
  (s.poke (s.graphUnit p x.graph.run0) x.buf0).poke (s.graphUnit p x.graph.run1) x.buf1

/-- One context loaded: FROZEN, with its saved state. Its save area stands where this device's PT_CTX_SAVE names it, already
copied (R410). -/
def State.loadCtx (s : State) (k p : Nat) (x : MigCtx) : State :=
  let s := (s.setRaw (A.PT_CTX_ROOT x.num) x.root).setRaw (A.PT_CTX_STAT x.num) x.stat
  let s := (List.zip (chgWords x.num) x.charges).foldl (fun s e => s.setRaw e.1 e.2) s
  (s.setCtx x.num (x.ctx.moved k p)).setCtxState x.num 5

/-- A launch with one of these Sluices has the pipeline slot m. -/
def Launch.inSlot (l : List Sluice) (m : Nat) (y : Launch) : Launch :=
  if l.any fun x => x.launch == y.id then { y with slot := some m } else y

/-- A saved pipeline keeps its slot, or takes the lowest free one: its Sluices are bound here, with the path classes of this
device, and the slot's records start from zero (R221, R227). -/
def State.loadSluices (s : State) (k p : Nat) (l : List Sluice) : State :=
  let old := (l.map (·.slot)).eraseDups
  old.foldl (fun s n =>
    let used := fun m => s.sluices.any fun y => y.slot == m
    let m := if used n then ((List.range 64).find? fun m => !used m && !old.contains m).getD n else n
    let mine := (l.filter fun x => x.slot == n).map fun x => { x with slot := m, launch := x.launch + k, part := p, cls := s.pathClass x.src x.dst }
    let ls := s.fe.launches.map (Launch.inSlot mine m)
    let s : State := { s with sluices := s.sluices ++ mine, fe := { s.fe with launches := ls } }
    (s.setRaw (A.SL_PIPE_EXCESS m) 0).setRaw (A.SL_PIPE_STAT m) (BitVec.ofNat 64 (1 + p * 256))) s

/-- The whole record loaded: VF v is frozen as the source's was. -/
def State.migLoad (s : State) (v : Nat) (r : MigRec) : State :=
  let p := s.migPart v
  let k := s.fe.nextCmd
  let s := s.each r.queues fun s x => s.loadQueue v p x
  let s := s.each r.berths fun s x => s.loadBerth p x
  let s := s.each r.graphs fun s x => s.loadGraph p x
  let s := s.each r.ctxs fun s x => s.loadCtx k p x
  let s : State := { s with
    fe := { s.fe with
      nextCmd := k + r.next
      cmds := s.fe.cmds ++ r.cmds.map fun c => c.moved k p
      launches := s.fe.launches ++ r.launches.map fun l => l.moved k p
      frozen := setIns s.fe.frozen v
      stopped := setIns s.fe.stopped v }
    fab := { s.fab with done := s.fab.done ++ r.done.map fun d => { d with cmd := d.cmd + k } } }
  ((s.loadSluices k p r.sluices).set (F.FE_GSIZE_FREE p) r.free).set (F.PT_FN_GEN v) r.gen

def State.migRestore (s : State) (v : Nat) : State :=
  if localTop < s.migBuf + 64 then s.migEnd 4
  else
    match s.migRead with
    | none => s.migEnd 3
    | some r => if s.migFits v r then (s.migLoad v r).migEnd 0 else s.migEnd 2

/-! ### The control register, R409 -/

/-- A write of PT_MIG_CTL. -/
def State.migCtlWrite (s : State) (w : Nat) : State :=
  let busy := s.on F.PT_MIG_CTL_BUSY
  let v := bits w 5 0
  let op := bits w 10 8
  let s := (s.set F.PT_MIG_CTL_VF v).set F.PT_MIG_CTL_OP op
  if !bit w 11 then s
  else if busy then s.set F.PT_MIG_CTL_STATUS 5
  else if op = 0 ∨ 4 < op then s.migEnd 2
  else if !s.soleOwner v then s.migEnd 1
  else if op = 1 then s.migFreeze v
  else if op = 2 then s.migSave v
  else if op = 3 then s.migRestore v
  else s.migThaw v

/-- PT_MIG_CTL with GO. -/
def migWord (op v : Nat) : Nat := v % 64 + op * 2 ^ 8 + 2 ^ 11

def execMigrationFreeze (vf : Nat) (s : State) : Out := .next <| if s.barOk then s.migCtlWrite (migWord 1 vf) else s
def execMigrationSave (vf : Nat) (s : State) : Out := .next <| if s.barOk then s.migCtlWrite (migWord 2 vf) else s
def execMigrationRestore (vf : Nat) (s : State) : Out := .next <| if s.barOk then s.migCtlWrite (migWord 3 vf) else s
def execMigrationThaw (vf : Nat) (s : State) : Out := .next <| if s.barOk then s.migCtlWrite (migWord 4 vf) else s

end Sys2Proof.Machine
end

