-- ==== Sys2Proof/Machine/Bar0.lean ====
section
/-! DEFINITION. Writes of BAR0 by every path, the configuration step and the last steps of start-up, PCIe configuration
requests, and the drain of a store-buffer entry (R7, R37, R40, R47, R243, R318, R480, R500 to R503). -/

namespace Sys2Proof.Machine

/-! ### A register by its access codes, R7, R8 -/

/-- A field of a register after a write of v to the register. -/
def fieldWrote (f : FieldDesc) (locked : Bool) (old v : Nat) : Nat :=
  let n := bits v f.hi f.lo
  let o := bits old f.hi f.lo
  match f.acc with
  | .ro => old
  | .wo => old
  | .rw => setBits old f.hi f.lo n
  | .rwl => if locked then old else setBits old f.hi f.lo n
  | .w1c => setBits old f.hi f.lo (o &&& ((2 ^ (f.hi + 1 - f.lo) - 1) ^^^ n))
  | .w1s => setBits old f.hi f.lo (o ||| n)

/-- A write that has no rule of its own; false where the boot lock keeps a field. -/
def State.plainWrite (s : State) (off v : Nat) : State × Bool :=
  match regDesc? off with
  | none => (s, true)
  | some d =>
    let locked := s.on F.BT_STAT_LOCK
    (s.setRaw off (BitVec.ofNat 64 (d.fields.foldl (fun o f => fieldWrote f locked o v) (s.raw off).toNat)),
     !(locked && d.fields.any fun f => f.acc == .rwl))

/-- The index of an offset in an array of registers. -/
def arrIdx (base stride count off : Nat) : Option Nat :=
  if base ≤ off ∧ off < base + stride * count ∧ (off - base) % stride = 0 then some ((off - base) / stride) else none

/-- A write whose effect is never ignored. -/
def did (s : State) : State × Bool := (s, true)

/-! ### The registers with rules of their own, block by block -/

/-- FE_: queues, Berths, graph stores, the device reset. -/
def State.feWrite' (s : State) (off v : Nat) : State × Bool :=
  if 0x180000 ≤ off then
    let q := (off - 0x180000) / 0x80
    let r := off % 0x80
    if r < 0x20 then if s.qState q = 0 then s.plainWrite off v else (s, false)
    else if r = 0x28 then s.qOwnWrite q v
    else if r = 0x30 then did (s.qCtlWrite q v)
    else s.plainWrite off v
  else if off = A.FE_DEV_RESET then did (if bit v 0 then s.devReset 0x301 else s)
  else match arrIdx (A.FE_BERTH_CFG 0) 0x10 4096 off, arrIdx (A.FE_BERTH_OWN 0) 0x10 4096 off with
    | some b, _ => s.berthCfgWrite b v
    | _, some b => s.berthOwnWrite b v
    | _, _ =>
      match arrIdx (A.FE_GSTORE 0) 0x10 16 off, arrIdx (A.FE_GSIZE 0) 0x10 16 off with
      | some p, _ => s.gstoreWrite p v
      | _, some p => s.gsizeWrite p v
      | _, _ => s.plainWrite off v

/-- PT_: partitions, contexts, functions, host window, translation, migration, fault logs. -/
def State.ptWrite (s : State) (func off v : Nat) : State × Bool :=
  if off < 0x201000 then
    if off % 0x100 < 0x38 then s.partWrite ((off - 0x200000) / 0x100) (off % 0x100 / 8) v else s.plainWrite off v
  else if 0x240000 ≤ off ∧ off < 0x250000 then
    let c := (off - 0x240000) / 0x40
    let r := off % 0x40
    if r = 0x08 then s.ctxCtlWrite c v
    else if r = 0x10 then s.ctxClWrite c 0 v
    else if r = 0x18 then s.ctxClWrite c 1 v
    else if r = 0x20 then s.ctxSaveWrite c v
    else if r = 0x30 then did (if bit v 0 then s.ctxTear c else s)
    else s.plainWrite off v
  else if off = A.PT_HWIN_SYNC then did (if bit v 0 then s.hwinSync else s)
  else if 0x283000 ≤ off ∧ off < 0x283800 then
    let n := (off - 0x283000) / 0x20
    if n ≠ func then (s, false)
    else if off % 0x20 = 0 then did (s.xlatWrite n v) else s.plainWrite off v
  else if off = A.PT_VF_APSIZE then if s.host.vfEn then (s, false) else s.plainWrite off v
  else if off = A.PT_DIRTY_CTL then s.dirtyCtlWrite v
  else if off = A.PT_MIG_CTL then did (s.migCtlWrite v)
  else match arrIdx (A.PT_FN 0) 8 64 off, arrIdx (A.PT_FAULT_CLR 0) 0x400 16 off with
    | some n, _ => if func = 0 then s.fnWrite n v else (s, false)
    | _, some p => did (s.faultClear p v)
    | _, _ => s.plainWrite off v

/-- CS_ and MC_: homes, partition controls, flush, pinning, bandwidth, evacuation. -/
def State.memRegWrite (s : State) (off v : Nat) : State × Bool :=
  if 0x300000 ≤ off ∧ off < 0x300400 then
    let p := (off - 0x300000) / 0x40
    let r := off % 0x40
    if r < 0x20 then s.psliceWrite p (r / 8) v else if r = 0x20 then s.partCtlWrite p v else s.plainWrite off v
  else match arrIdx (A.CS_FLUSH 0) 8 16 off, arrIdx (A.CS_HOMEMAP 0) 8 768 off with
    | some p, _ => did (if bit v 0 then s.flushGo p else s)
    | _, some c => s.homemapWrite c v
    | _, _ =>
      match arrIdx (A.CS_PIN_CTL 0) 0x40 16 off, arrIdx (A.MC_REG 0) 8 16 off with
      | some p, _ => did (if bit v 2 then s.pinGo p (bits v 1 0) else s.plainWrite off v |>.1)
      | _, some p => s.mcRegWrite p v
      | _, _ =>
        if off = A.MC_EVAC then did (if bit v 16 then s.evacGo (bits v 10 0) else (s.plainWrite off v).1)
        else s.plainWrite off v

/-- SL_ and GF_: link shares, pipeline records, ports, regulators, routes, identity. -/
def State.netWrite (s : State) (off v : Nat) : State × Bool :=
  if off = A.GF_CHIPID ∨ off = A.GF_CONNBASE then s.fabIdWrite off v
  else match arrIdx (A.SL_SHARE 0) 8 16 off, arrIdx (A.SL_PIPE_CLR 0) 0x40 64 off with
    | some p, _ => s.slShareWrite p v
    | _, some n => did (s.pipeClear n v)
    | _, _ =>
      match arrIdx (A.GF_PORT_CTL 0) 0x40 36 off, arrIdx (A.GF_REG 0) 8 16 off, arrIdx (A.GF_ROUTE 0) 8 65536 off with
      | some j, _, _ => did (s.portCtlWrite j v).1
      | _, some p, _ => s.fabRegWrite p v
      | _, _, some c => did (s.routeWrite c v)
      | _, _, _ => s.plainWrite off v

/-- BT_ and CV_: flash updates, the boot lock, the check-value unit. -/
def State.btWrite (s : State) (wide : Bool) (off v : Nat) : State × Bool :=
  if off = A.BT_LOCK then did (if bit v 0 then s.lockBoot else s)
  else if off = A.BT_UPD_CTL then
    let op := bits v 2 0
    if !bit v 3 then s.plainWrite off v
    else did (s.updGo op)
  else if 0xA00000 ≤ off ∧ off < 0xA00400 then
    let k := (off - 0xA00000) / 0x100
    let r := off % 0x100
    if r = 0 then
      let s := if bit v 0 then s.cvInit k else s
      did (if bit v 1 then s.cvGo k else s)
    else if r = 0x08 then did (s.cvData k wide v)
    else if r = 0x10 then did (s.cvTail k v)
    else if r = 0x18 then did (s.cvState k v)
    else if r = 0x30 ∨ r = 0x38 then did (s.cvGuard k fun s => (s.plainWrite off v).1)
    else s.plainWrite off v
  else s.plainWrite off v

/-- SP_, EV_ and TD_: sparing, logs, snapshots, debug. -/
def State.recWrite (s : State) (off v : Nat) : State × Bool :=
  if off = A.SP_RETIRE then did (s.retireWrite v)
  else if off = A.SP_REC_CTL then did (if bit v 0 then s.recStart else s)
  else if off = A.EV_SNAP then did (if bit v 0 && !s.on F.EV_SNAP_BUSY then s.snapStart none else s)
  else if 0xD00000 ≤ off ∧ off < 0xD00100 then did (s.tdWrite off v)
  else match arrIdx (A.EV_LOG_BASE 0) 0x40 17 off, arrIdx (A.EV_LOG_CFG 0) 0x40 17 off, arrIdx (A.EV_LOG_RD 0) 0x40 17 off with
    | some l, _, _ => s.logBaseWrite l v
    | _, some l, _ => s.logCfgWrite l v
    | _, _, some l => s.logRdWrite l v
    | _, _, _ => s.plainWrite off v

/-- A write of v to the register at a PF0 offset; `wide` tells an 8-byte access. False where a rule ignores the write. -/
def State.regWrite (s : State) (func off v : Nat) (wide : Bool) : State × Bool :=
  if (regDesc? off).isNone then did s
  else if 0x100000 ≤ off ∧ off < 0x200000 then s.feWrite' off v
  else if off < 0x300000 then s.ptWrite func off v
  else if off < 0x500000 then s.memRegWrite off v
  else if off < 0x800000 then s.netWrite off v
  else if off = A.PW_PKG_LIMIT then s.pkgLimitWrite v
  else if off = A.PW_VTAB then s.vtabWrite v
  else if off < 0x900000 then s.plainWrite off v
  else if off < 0xB00000 then s.btWrite wide off v
  else s.recWrite off v

/-! ### Accesses of 4 and 8 bytes, R37 -/

/-- The bits of a register that a 4-byte write of its other half leaves as they are. -/
def keepMask (off : Nat) : Nat :=
  match regDesc? off with
  | none => 0
  | some d => d.fields.foldl (fun m f => if f.acc = .rw ∨ f.acc = .rwl then m ||| ((2 ^ (f.hi + 1 - f.lo) - 1) * 2 ^ f.lo) else m) 0

/-- What the state that TD_ACC_DATA stands for holds now, where it may be read (R545). -/
def State.accHeld (s : State) : Nat :=
  let (t, space, i) := s.accSel
  match s.accCore with
  | some k => k.accGet t space i
  | none => 0

/-- The whole value that a write of k bytes at an offset stands for. -/
def State.wholeValue (s : State) (off k v : Nat) : Nat :=
  if k = 8 then v
  else
    let keep := if off / 8 * 8 = A.TD_ACC_DATA then s.accHeld else (s.raw (off / 8 * 8)).toNat &&& keepMask (off / 8 * 8)
    if off % 8 = 4 then keep % 2 ^ 32 + v % 2 ^ 32 * 2 ^ 32 else keep / 2 ^ 32 * 2 ^ 32 + v % 2 ^ 32

/-- A register that takes its value from the low half of a 4-byte write alone (CV_DATA). -/
def State.halfValue (s : State) (off k v : Nat) : Nat :=
  if arrIdx (A.CV_DATA 0) 0x100 4 off ≠ none ∧ k = 4 then v % 2 ^ 32 else s.wholeValue off k v

/-- An MSI-X table entry written; a pending message of a vector that is unmasked leaves. -/
def State.msixWrite (s : State) (func off k v : Nat) : State :=
  let vec := off / 16
  let lo := 8 * (off % 16)
  let e := setBits (s.msixEntry func vec).toNat (lo + 8 * k - 1) lo v
  let e := e % 2 ^ 97
  let key := func * 2048 + vec
  let s := { s with host := { s.host with msix := tabSet (BitVec.ofNat 128 (2 ^ 96)) s.host.msix key (BitVec.ofNat 128 e) } }
  if !bit e 96 && s.host.pba.contains key then
    { s with host := { s.host with pba := setDel s.host.pba key } }.toHost 0 (.msix func vec (bits e 63 0) (bits e 95 64))
  else s

/-- A VF may write the register at a PF0 offset of its view: its queues, its roots, its translation set, pinning, the
fault log, GF_PERR and the event log. -/
def vfWrites (o : Nat) : Bool :=
  decide (0x180000 ≤ o ∧ o < 0x200000) || (decide (0x240000 ≤ o ∧ o < 0x250000) && o % 0x40 == 0) ||
  decide (0x283000 ≤ o ∧ o < 0x283800) || decide (0x290000 ≤ o ∧ o < 0x294000) ||
  decide (0x320000 ≤ o ∧ o < 0x320400) || decide (0x702200 ≤ o ∧ o < 0x702280) || decide (0xC00000 ≤ o ∧ o < 0xC00400)

/-- A write of a function to its BAR0; false where a rule ignores it. -/
def State.bar0Write (s : State) (func off k v : Nat) : State × Bool :=
  if !bar0Fits off k then did s
  else if 0x10000 ≤ off ∧ off < 0x10000 + 16 * msixSize func then did (s.msixWrite func (off - 0x10000) k v)
  else if func = 0 then s.regWrite 0 (off / 8 * 8) (s.halfValue off k v) (k == 8)
  else if !s.vfBound func then did s
  else match s.vfMap func (off / 8 * 8) with
    | some o => if vfWrites o then s.regWrite func o (s.wholeValue (o + off % 8) k v) (k == 8) else did s
    | none => did s

def execRegisterWrite (func off width : Nat) (v : BitVec 64) (s : State) : Out :=
  .next <| if s.funcOk func && decide (off < if func = 0 then 2 ^ 24 else 2 ^ 19) then (s.bar0Write func off width v.toNat).1 else s

/-! ### The configuration step, R500 to R503 -/

/-- Every cfg field takes its built-in default; a field that the boot lock keeps does not change (R505). -/
def State.defaults (s : State) : State :=
  let locked := s.on F.BT_STAT_LOCK
  s.each (regMap.filter fun d => d.fields.any (·.cfg)) fun s d =>
    s.each (List.range d.count) fun s i =>
      let off := d.base + d.stride * i
      let v := (Config.builtIn off).toNat
      s.setRaw off (BitVec.ofNat 64 (d.fields.foldl (fun o f =>
        if f.cfg && !(f.acc == .rwl && locked) then setBits o f.hi f.lo (bits v f.hi f.lo) else o) (s.raw off).toNat))

/-- The bits of a register's cfg fields. -/
def cfgMask (off : Nat) : Nat :=
  match regDesc? off with
  | none => 0
  | some d => d.fields.foldl (fun m f => if f.cfg then m ||| ((2 ^ (f.hi + 1 - f.lo) - 1) * 2 ^ f.lo) else m) 0

/-- One entry applied as a PF0 write; false where it is skipped. -/
def State.cfgEntry (s : State) (l : List Byte) : State × Bool :=
  let off := bytesAt l 0 3
  let v := bytesAt l 8 8
  let m := cfgMask off
  if m = 0 ∨ bytesAt l 3 5 ≠ 0 ∨ off % 8 ≠ 0 ∨ v &&& m ≠ v then (s, false) else s.regWrite 0 off v true

/-- The entries in order, the skipped ones counted. -/
def State.cfgEntries (s : State) (l : List Byte) (n : Nat) : State :=
  s.each (List.range n) fun s i =>
    match s.cfgEntry (slice l (64 + 16 * i) 16) with
    | (s, true) => s
    | (s, false) =>
      let s := if s.get F.BT_CFG_SKIP_SKIPPED = 0 then s.set F.BT_CFG_SKIP_FIRST i else s
      s.count F.BT_CFG_SKIP_SKIPPED 1

/-- Step 9: the slot of R503 is applied. -/
def State.configure (s : State) : State :=
  let (src, fell, slot) := s.cfgChoice
  let s := (s.setRaw A.BT_CFG_SKIP 0).defaults
  let s := match slot with
    | some l =>
      let s := (s.set F.BT_CFG_VERSION (bytesAt l 12 4)).set F.BT_CFG_SEQ (bytesAt l 8 4)
      let s : State := { s with boot := { s.boot with cfgBytes := l.take (cfgLen l) } }
      s.cfgEntries l (bytesAt l 6 2)
    | none => { s.setRaw A.BT_CFG 0 with boot := { s.boot with cfgBytes := Config.builtInSlot } }
  let s := (s.set F.BT_STAT_CFGSRC src).set F.BT_STAT_CFGFALL (b2n fell)
  let s := if fell && s.cfgCurrent.isSome then s.event 7 12 1 none 0 0x3FF [src] else s
  { s with boot := { s.boot with cfgDone := true, leadFailed := false } }

def execConfigurationApply (s : State) : Out :=
  .next <| if s.atStep 9 then s.configure.phaseTo (.running 10) else s

/-- Every sector of local memory is zero with valid check bits. -/
def State.clearMemory (s : State) : State := { s with mem := [], poison := [], mc := { s.mc with kept := [], bad := [] } }

def execMemoryClearComplete (s : State) : Out :=
  .next <| if s.atStep 10 then s.clearMemory.phaseTo (.running 11) else s

/-- Step 11: READY; `time` is the time since the end of reset in units of 1,000 reference periods. -/
def execDeviceReady (time : Nat) (s : State) : Out :=
  .next <| if s.atStep 11 then
    let s := s.set F.BT_STAT_READY 1
    (if s.boot.rerun && s.get F.BT_STAT_BOOTTIME != 0 then s else s.set F.BT_STAT_BOOTTIME time).phaseTo .ready
  else s

/-! ### PCIe configuration requests, R35, R480 -/

/-- The bits that R35, R36 and R40 fix in a word of a function's configuration space, as a mask and the value under it:
the identity, the class, the kinds and sizes of the BARs, which for the VFs stand in the SR-IOV capability, and in the
capabilities their identifiers, the device type, Max Payload Size and the timeout ranges, the MSI-X tables, no D1 or D2,
No_Soft_Reset, no interrupt pin, and the VFs' number, offset and stride. The places and codes of the fields are PCIe's. -/
def pcieFixed (func word : Nat) : BitVec 32 × BitVec 32 :=
  let sr := Config.pcieSriov
  let all : BitVec 32 := 0xFFFFFFFF
  if word = 0 then (all, if func = 0 then 0x48251F9E else 0x48261F9E)
  else if word = 2 then (0xFFFFFF00, 0x12000000)
  else if 4 ≤ word ∧ word ≤ 9 then
    if func ≠ 0 then (all, 0)
    else match word with
      | 4 | 6 => (0x00FFFFFF, 4)
      | 8 => (all, 0xC)
      | 9 => (0xFF, 0)
      | _ => (0, 0)
  else if word = Config.pcieExpress func then (0x00F000FF, 0x10)
  else if word = Config.pcieExpress func + 1 then (7, 2)
  else if word = Config.pcieExpress func + 9 then (15, 15)
  else if word = Config.pcieMsix func then (0x07FF00FF, if func = 0 then 0x07FF0011 else 0x003F0011)
  else if word = Config.pcieMsix func + 1 then (all, 0x10000)
  else if word = Config.pcieMsix func + 2 then (all, 0x18000)
  else if word = Config.pcieAer func then (0xFFFF, 1)
  else if word = Config.pcieDoe func then (0xFFFF, 0x2E)
  else if word = 15 then (0xFF00, 0)
  else if func ≠ 0 then (0, 0)
  else if word = Config.pciePower then (0x060000FF, 1)
  else if word = Config.pciePower + 1 then (8, 8)
  else if word = sr then (0xFFFF, 0x10)
  else if word = sr + 3 then (0xFFFF0000, 0x003F0000)
  else if word = sr + 5 then (all, 0x00010001)
  else if word = sr + 6 then (0xFFFF0000, 0x48260000)
  else if word = sr + 9 then (0x0007FFFF, 4)
  else if word = sr + 11 then (0x0003FFFF, 4)
  else if word = sr + 13 then (15, 0xC)
  else (0, 0)

/-- The fixed bits of a word, with those that say the size of each VF's BAR4 (R36). -/
def State.pcieFix (s : State) (func word : Nat) : BitVec 32 × BitVec 32 :=
  if func = 0 ∧ word = Config.pcieSriov + 13 then (BitVec.ofNat 32 (s.apSize - 1), 0xC)
  else if func = 0 ∧ word = Config.pcieSriov + 14 then (BitVec.ofNat 32 ((s.apSize - 1) / 2 ^ 32), 0)
  else pcieFixed func word

/-- A word of a function's configuration space as it reads. -/
def State.cfgWord (s : State) (func word : Nat) : BitVec 32 :=
  let e := s.pcieFix func word
  (BitVec.ofNat 32 (tabGet (Config.pcieWord func word).toNat s.host.cfg (func * 4096 + word)) &&& ~~~e.1) ||| e.2

/-- A word that is one of PF0's BARs, or of the VFs' BARs in the SR-IOV capability, takes what is written, but for its fixed bits; of another, PCIe says what it takes. -/
def State.cfgWrote (s : State) (func word : Nat) (v : BitVec 32) : BitVec 32 :=
  if func = 0 ∧ (4 ≤ word ∧ word ≤ 9 ∨ Config.pcieSriov + 9 ≤ word ∧ word ≤ Config.pcieSriov + 14) then v else Config.pcieWrote func word (s.cfgWord func word) v

/-- A read (`wr` none) or a write of a word of a function's configuration space; `vfe` is the value of VF Enable that a
write of the SR-IOV control word carries. -/
def State.configReq (s : State) (mod func word : Nat) (wr : Option (BitVec 32)) (vfe : Option Bool) : State :=
  if func ≠ 0 ∧ (63 < func ∨ s.host.vfEn = false) then s.complete mod .cplUR
  else match wr with
    | none =>
      s.complete mod (.cplData (toBytes 4 (s.cfgWord func word).toNat) false)
    | some v =>
      let s : State := { s with host := { s.host with cfg := tabIns s.host.cfg (func * 4096 + word) (s.cfgWrote func word v).toNat } }
      let s := match vfe with
        | some true => { s with host := { s.host with vfEn := true } }
        | some false => s.vfEnClear
        | none => s
      s.complete mod .cplOk

def execPcieConfigRequest (mod func word : Nat) (wr : Option (BitVec 32)) (vfe : Option Bool) (s : State) : Out :=
  .next <|
    if s.linkUp = false ∨ s.modules = 0 then s
    else if s.boot.stopped then s.complete mod .cplCA
    else if s.boot.phase = .ready ∨ s.inRerun = true then s.configReq mod func (word % 1024) wr (if func = 0 then vfe else none)
    else s.complete mod .cplRRS

/-! ### The drain of a closed store-buffer entry, R243, R49 -/

/-- A store to setup space, as PF0's own access. -/
def State.drainSetup (s : State) (e : SbEnt) : State :=
  match e.bytes with
  | [] => s
  | (o, _) :: _ =>
    let a := e.line * 128 + o
    let k := e.bytes.length
    let v := ofBytes (e.bytes.map (·.2))
    if region a = .setup0 then (s.bar0Write 0 (a % 2 ^ 24) k v).1 else s.bar2Write 0 (a % 2 ^ 24) k v

def execStoreBufferEntryDrain (core : Nat) (s : State) : Out :=
  .next <|
    let k := s.core core
    match k.sb, k.blk with
    | e :: r, some b =>
      if !e.closed || (region (e.line * 128) == .localMem && s.lineOut core e.line) then s
      else
        let s := s.setCore core { k with sb := r }
        (match region (e.line * 128) with
        | .localMem => s.drainLocal core e
        | .hostWin => s.hostRuns core e
        | _ => s.drainSetup e).sampleTime 3 core
    | _, _ => s

end Sys2Proof.Machine
end

