-- ==== Sys2Proof/Machine/Fetch.lean ====
section
/-! DEFINITION. The fetch of ring, buffer and graph entries and their first-stage checks (R357, R361 to R364, R368, R369,
R380). -/

namespace Sys2Proof.Machine

/-! ### The encoding, R361, R362 -/

/-- Where an opcode may stand: bit 0 the ring, bit 1 a buffer, bit 2 a graph; 0 for a reserved opcode. -/
def opWhere (op : Nat) : Nat :=
  [0, 7, 7, 3, 3, 7, 7, 7, 7, 7, 7, 7, 7, 7, 7, 6, 6, 3, 7, 7, 7, 7, 3, 1].getD op 0

/-- EXT of an entry, and its first operand word. -/
def entExt (e : List Byte) : Nat := bits (bytesAt e 1 1) 1 0
def entW (e : List Byte) (off : Nat) : Nat := bytesAt e off 8

/-- ACTION and NPAIR of PATCH_GRAPH. -/
def patchAction (e : List Byte) : Nat := bits (entW e 16) 17 16
def patchN (e : List Byte) : Nat := bits (entW e 16) 51 48

/-- The EXT that an entry must have. -/
def wantExt (e : List Byte) : Nat :=
  let op := bytesAt e 0 1
  if op = 0x12 then 1 else if op = 0x04 ∧ patchAction e = 1 then (min (patchN e) 14 - 2 + 3) / 4 else 0

/-- The used bits of the operand word at an offset; the rest is reserved. -/
def usedBits (e : List Byte) (off : Nat) : Nat :=
  let op := bytesAt e 0 1
  let all := 2 ^ 64 - 1
  let tosp := bit (entW e 40) 16
  let at' := fun (l : List (Nat × Nat)) => (l.find? fun x => x.1 == off).elim 0 (·.2)
  let graph := 0x3FF + 3 * 2 ^ 16
  if op = 0x02 then at' [(16, all), (24, all), (32, 2 ^ 21 - 1)]
  else if op = 0x03 then at' [(16, 0x3FF)]
  else if op = 0x04 then
    if patchAction e = 0 then at' [(16, graph), (24, all), (32, 0x1FFF)]
    else if patchAction e = 1 then
      if (patchPairs (patchN e)).contains off then 2 ^ 32 - 1
      else if (patchPairs (patchN e)).contains (off - 8) && decide (8 ≤ off) then all
      else at' [(16, graph + 15 * 2 ^ 48)]
    else at' [(16, graph)]
  else if op = 0x05 then at' [(16, all), (24, if tosp then 2 ^ 20 - 1 else all), (32, 2 ^ 40 - 1), (40, 2 ^ 16 + if tosp then 0x3FF else 0)]
  else if op = 0x06 then
    at' [(16, all), (24, if tosp then 2 ^ 20 - 1 else all), (32, all), (40, 2 ^ 16 + 15 * 2 ^ 24 + if tosp then 0x3FF else 0)]
  else if op = 0x07 ∨ op = 0x08 then at' [(16, all)]
  else if op = 0x09 then
    if bits (entW e 16) 1 0 = 1 then at' [(16, 0x73), (24, 0xFFF), (32, 2 ^ 48 - 1)]
    else at' [(16, 0x73), (24, all), (32, all), (40, all)]
  else if op = 0x0A then at' [(16, all), (24, all), (32, 1)]
  else if op = 0x0C then at' [(16, all), (24, all), (32, all), (40, 7)]
  else if op = 0x0F then at' [(16, 2 ^ 32 - 1), (24, all)]
  else if op = 0x11 then at' [(16, all), (24, 2 ^ 17 - 1)]
  else if op = 0x12 then if 64 ≤ off ∧ off < 112 then all else at' [(16, 0xFFF)]
  else if op = 0x14 then at' [(16, all), (24, all), (32, all), (40, all), (48, all)]
  else if op = 0x15 then at' [(16, all), (24, all), (32, all)]
  else if op = 0x16 then at' [(16, 0xF0F), (24, all)]
  else if op = 0x17 then at' [(16, 3), (24, 2 ^ 32 - 1)]
  else 0

/-- A reserved bit of the header or of an operand word is set. -/
def entReserved (e : List Byte) : Bool :=
  bits (bytesAt e 1 1) 7 5 != 0 || bytesAt e 4 4 != 0 ||
  ((List.range (e.length / 8)).any fun i => decide (2 ≤ i) && decide (entW e (8 * i) &&& usedBits e (8 * i) ≠ entW e (8 * i)))

/-- An operand is out of range or misaligned; `same` tells whether a queue belongs to the same partition (R366). -/
def entOperand (same : Nat → Bool) (e : List Byte) : Bool :=
  let op := bytesAt e 0 1
  let w := entW e
  if op = 0x02 then
    w 16 % 64 != 0 || w 24 % 32 != 0 || !decide (1 ≤ bits (w 32) 20 10 ∧ bits (w 32) 20 10 ≤ 1024)
  else if op = 0x04 then
    if patchAction e = 0 then w 24 % 64 != 0 || !decide (1 ≤ bits (w 32) 12 0 ∧ bits (w 32) 12 0 ≤ 4096)
    else if patchAction e = 1 then
      !decide (1 ≤ patchN e ∧ patchN e ≤ 14) || (patchPairs (patchN e)).any fun o => bits (w o) 31 0 % 8 != 0
    else patchAction e == 3
  else if op = 0x09 then
    let cmp := bits (w 16) 6 4
    if bits (w 16) 1 0 = 0 then decide (5 < cmp) || w 24 % 8 != 0
    else bits (w 16) 1 0 != 1 || cmp != 0 || !same (bits (w 24) 11 0)
  else if op = 0x0A then w 16 % 8 != 0
  else if op = 0x0C then w 16 % 8 != 0 || decide (5 < bits (w 40) 2 0)
  else if op = 0x0F then w 24 % 4 != 0
  else if op = 0x11 then w 16 % 64 != 0 || !decide (1 ≤ bits (w 24) 16 0 ∧ bits (w 24) 16 0 ≤ 65536)
  else if op = 0x16 then decide (3 < bits (w 16) 3 0)
  else if op = 0x17 then bits (w 16) 1 0 == 3
  else false

/-! ### Open blocks, R369 -/

/-- The open blocks of a level, innermost first. -/
def State.nestOf (s : State) (q : Nat) : Option Nat → List Nest
  | none => tabGet [] s.fe.nests q
  | some p => (s.cmd p).elim [] (·.nest)

def State.setNest (s : State) (q : Nat) (parent : Option Nat) (l : List Nest) : State :=
  match parent with
  | none => { s with fe := { s.fe with nests := tabSet [] s.fe.nests q l } }
  | some p => s.updCmd p fun d => { d with nest := l }

/-- The body of a block runs. -/
def Nest.runs : Nest → Bool
  | .cond run _ => run
  | .loop _ left => left != 0

def nestRuns (l : List Nest) : Bool := l.all Nest.runs
def Nest.isCond : Nest → Bool
  | .cond _ _ => true
  | .loop _ _ => false

/-- What a marker makes of the open blocks: the blocks after it and the entry to go back to; none where it is unmatched,
or is a second COND_ELSE. -/
def matchMarker (op : Nat) (l : List Nest) : Option (List Nest × Option Nat) :=
  match l with
  | .cond run false :: r => if op = 0x0D then some (.cond (!run) true :: r, none) else if op = 0x0E then some (r, none) else none
  | .cond _ true :: r => if op = 0x0E then some (r, none) else none
  | .loop a n :: r =>
    if op ≠ 0x10 then none else if n ≤ 1 then some (r, none) else some (.loop a (n - 1) :: r, some a)
  | [] => none

/-- A scan forward finds the match of the blocks that stand open, the innermost first: whether each is a condition. A
marker that matches none of them is passed: it is refused itself, when it is fetched. An entry that cannot be read ends
the scan: its own fetch will meet the fault. -/
def scanOk (rd : Nat → Option (Nat × Nat)) (ents : Nat) : Nat → Nat → List Bool → Bool
  | 0, _, _ => false
  | n + 1, pos, st =>
    if ents ≤ pos then false
    else
      match rd pos with
      | none => true
      | some (op, ext) =>
        let go := scanOk rd ents n (pos + 1 + ext)
        if op = 0x0C then go (true :: st)
        else if op = 0x0F then go (false :: st)
        else if op = 0x0E ∨ op = 0x10 then
          match st with
          | c :: r => if c != (op == 0x0E) then go st else r.isEmpty || go r
          | [] => true
        else go st

/-! ### Reading entries, R357, R368, R374 -/

/-- k bytes from byte `off` of a buffer or graph that a command runs. -/
def State.levelRead (s : State) (d : Cmd) (off k : Nat) : State × FeR :=
  match d.graph with
  | none => s.feRead d.id (s.qCtx d.queue) (s.qPart d.queue) (d.base + off) k
  | some _ =>
    let r := s.readAs (cmdReader d.id) 0 false (d.base + off) k
    (r.1, if r.2.2 then .poison else .ok r.2.1)

/-- The opcode and EXT of an entry, for a scan. -/
def State.peekEntry (s : State) (d : Cmd) (pos : Nat) : Option (Nat × Nat) :=
  match (s.levelRead d (64 * pos) 8).2 with
  | .ok l => some (bytesAt l 0 1, entExt l)
  | _ => none

/-! ### First-stage checks, R380 -/

/-- The levels of buffer or graph that a level lies in, the ring at 0; n bounds the count. -/
def State.depth (s : State) : Option Nat → Nat → Nat
  | some p, n + 1 => 1 + s.depth ((s.cmd p).bind (·.parent)) n
  | _, _ => 0

/-- The place bit of a level: 1 the ring, 2 a buffer, 4 a graph. -/
def State.levelPlace (s : State) : Option Nat → Nat
  | none => 1
  | some p => if (s.cmd p).any fun d => d.graph.isSome then 4 else 2

/-- Nesting, matching and the end of the level (R368, R369); a ring waits for the match instead. -/
def State.entStructure (s : State) (c : Cmd) : Bool :=
  let nest := s.nestOf c.queue c.parent
  let conds := (nest.filter Nest.isCond).length
  let open' := fun (k : Bool) => match c.parent.bind s.cmd with
    | some d => !scanOk (s.peekEntry d) d.ents d.ents (c.index + 1 + entExt c.entry) [k]
    | none => false
  ((c.parent.bind s.cmd).any fun d => decide (d.ents < c.index + 1 + entExt c.entry)) ||
  ((c.op == 0x11 || c.op == 0x03) && decide (4 ≤ s.depth c.parent 8)) ||
  (c.op == 0x0C && (decide (8 ≤ conds) || open' true)) ||
  (c.op == 0x0F && (decide (4 ≤ nest.length - conds) || open' false)) ||
  (c.marker && (matchMarker c.op nest).isNone)

/-- The first code whose condition holds, or 0. -/
def firstCode : List (Bool × Nat) → Nat
  | [] => 0
  | (b, n) :: l => if b then n else firstCode l

/-- BOUND of a command, or WDOG of its queue (R384). -/
def State.boundOf (s : State) (c : Cmd) : Nat :=
  if bytesAt c.entry 2 2 = 0 then s.get (F.FE_Q_CFG_WDOG c.queue) else bytesAt c.entry 2 2

/-- The code of the first stage, or 0. -/
def State.stage1 (s : State) (c : Cmd) : Nat :=
  firstCode [
    (opWhere c.op &&& s.levelPlace c.parent == 0 || entExt c.entry != wantExt c.entry, 0x50),
    (entReserved c.entry, 0x51),
    (entOperand (fun q => s.qPart q == s.qPart c.queue) c.entry || (c.np && !c.marker && s.boundOf c == 0), 0x52),
    (s.entStructure c, 0x56),
    ((c.op == 0x16 || c.op == 0x17) && !s.on (F.FE_Q_OWN_PRIV c.queue), 0x59)]

/-! ### An entry taken -/

/-- A command is refused at its fetch. -/
def State.refuseNew (s : State) (c : Cmd) (code : Nat) : State := (s.setCmds (s.fe.cmds ++ [c])).refuse c.id code 0

/-- A marker is matched: it is complete from then on, and never started. -/
def State.takeMarker (s : State) (c : Cmd) : State :=
  let s := s.setCmds (s.fe.cmds.filter fun d => d.id != c.id)
  let nest := s.nestOf c.queue c.parent
  let m := matchMarker c.op nest
  let seen := nestRuns nest.tail && !(c.op == 0x10 && nest.head?.any fun x => !x.runs)
  let code := if seen then s.stage1 c else if m.isNone then 0x56 else 0
  let s := match m with
    | some (l, go) =>
      let s := s.setNest c.queue c.parent l
      match go, c.parent with
      | some a, some p => s.updCmd p fun d => { d with pos := a }
      | _, _ => s
    | none => s
  if code ≠ 0 then s.refuseNew c code else s

/-- A skipped command: only blocks are opened. -/
def State.takeSkipped (s : State) (c : Cmd) : State :=
  let nest := s.nestOf c.queue c.parent
  if c.op = 0x0C then s.setNest c.queue c.parent (.cond false false :: nest)
  else if c.op = 0x0F then s.setNest c.queue c.parent (.loop 0 0 :: nest)
  else s

/-- A command on a live branch: fetched and waiting to start, or refused: a refused COND_BEGIN counts as false, and a
refused LOOP_BEGIN skips its body (R380). -/
def State.takeLive (s : State) (c : Cmd) : State :=
  match s.stage1 c with
  | 0 => s.setCmds (s.fe.cmds ++ [c])
  | code => (s.takeSkipped c).refuseNew c code

/-- A fetched entry is skipped, refused, or kept: a command until it starts, a marker until it is matched. -/
def State.take (s : State) (c : Cmd) : State :=
  let s : State := { s with fe := { s.fe with nextCmd := s.fe.nextCmd + 1 } }
  if c.marker then s.setCmds (s.fe.cmds ++ [c])
  else if nestRuns (s.nestOf c.queue c.parent) then s.takeLive c
  else s.takeSkipped c

/-- The command of an entry, not started. -/
def Cmd.fresh (id queue seq gen epoch index : Nat) (parent : Option Nat) (entry : List Byte) : Cmd :=
  { id := id, queue := queue, seq := seq, gen := gen, epoch := epoch, parent := parent, index := index, entry := entry
    started := false, ended := false, status := 0, source := 0, result := 0, place := 0, stopping := false, base := 0
    ents := 0, pos := 0, nest := [], graph := none, job := none }

/-- Nothing of the level waits to start or to be matched. -/
def State.levelIdle (s : State) (q : Nat) (parent : Option Nat) : Bool :=
  !(s.fe.cmds.any fun c => c.queue == q && c.parent == parent && !c.started && !c.ended)

/-- The front end works for the queue's context. -/
def State.feRuns (s : State) (q : Nat) : Bool :=
  !s.pow.d3 && s.ctxState (s.qCtx q) == 2 && !s.frozenPart (s.qPart q)

/-! ### The ring -/

/-- The address of ring entry n. -/
def State.ringAddr (s : State) (q n : Nat) : Nat :=
  s.get (F.FE_Q_RING_BASE q) * 4096 + 64 * (n % 2 ^ s.get (F.FE_Q_CFG_SIZE q))

/-- n entries read from HEAD on, each through the host-window entries: what stops the first that fails, or nothing. -/
def State.ringRead (s : State) (q head err : Nat) : Nat → State × Option Stop
  | 0 => (s, none)
  | n + 1 =>
    let pa := s.ringAddr q head
    match s.hwinCheck (s.qPart q) false pa with
    | 0 =>
      let s := s.hostAsk 0 pa 64
      if err ≠ 0 then (s, some { code := err, pa := pa }) else s.ringRead q (head + 1) err n
    | c => (s, some { code := c, pa := pa })

/-- The queue has fetched an entry: HEAD, NEXT and DONE move. -/
def State.ringTake (s : State) (q n : Nat) (data : List Byte) : State :=
  let seq := s.get (F.FE_Q_SEQ_NEXT q)
  let c := Cmd.fresh s.fe.nextCmd q seq (s.genOf (s.qFunc q)) (s.get (F.FE_Q_STAT_EPOCH q)) 0 none data
  let s := (s.set (F.FE_Q_PTR_HEAD q) (s.get (F.FE_Q_PTR_HEAD q) + n)).set (F.FE_Q_SEQ_NEXT q) (seq + 1)
  ((s.take c).setDone q).resched (s.qPart q)

/-- A ring entry is fetched: `data` is what the host returns for it and its continuation entries, `err` the code of a read
that fails (R53), `cover` is how many ring entries from this one on hold the match of the block that a COND_BEGIN opens,
or show that it has none: the fetch waits until TAIL covers them. -/
def State.fetchRing (s : State) (q err : Nat) (cover : Nat) (data : List Byte) : State :=
  let head := s.get (F.FE_Q_PTR_HEAD q)
  let n := if err = 0 then 1 + entExt data else 1
  let have' := (s.get (F.FE_Q_PTR_TAIL q) + 2 ^ 32 - head) % 2 ^ 32
  let opens := bytesAt data 0 1 == 0x0C && nestRuns (s.nestOf q none)
  if s.qState q != 1 || !s.feRuns q || !s.levelIdle q none || decide (have' < n) || !s.readRoom ||
      !(err == 0 || decide (0x13 ≤ err ∧ err ≤ 0x15)) || (err == 0 && (data.length != 64 * n || (opens && !decide (n ≤ cover ∧ cover ≤ have')))) then s
  else
    match s.ringRead q head err n with
    | (s, some x) => (s.qFault q x).qStop q 1 x.code
    | (s, none) => s.ringTake q n data

/-! ### Buffers and graphs -/

/-- The command runs entries that are left to fetch. -/
def Cmd.fetching (d : Cmd) : Bool :=
  d.started && !d.ended && !d.stopping && (d.op == 0x11 || d.op == 0x03) && decide (d.pos < d.ents)

/-- An entry of a buffer or graph has been read, with the continuation entries that lie within it. -/
def State.innerTake (s : State) (d : Cmd) (e : List Byte) : State :=
  let c := Cmd.fresh s.fe.nextCmd d.queue d.seq d.gen d.epoch d.pos (some d.id) e
  (s.updCmd d.id fun d => { d with pos := d.pos + 1 + entExt e }).take c

/-- An entry of a buffer or graph is fetched. -/
def State.fetchInner (s : State) (d : Cmd) : State :=
  let q := d.queue
  if !d.fetching || !s.written 4 0 || !([1, 2, 4].contains (s.qState q)) || !s.feRuns q || !s.levelIdle q (some d.id) then s
  else
    s.unlessStalled <| match s.levelRead d (64 * d.pos) 64 with
    | (s, .fault x) => (s.qFault q x).innerStop d.id x.code 0 d.pos
    | (s, .poison) => s.innerStop d.id 0x5E 0 d.pos
    | (s, .ok h) =>
      let n := entExt h
      if n = 0 ∨ d.ents < d.pos + 1 + n then s.innerTake d h
      else
        match s.levelRead d (64 * d.pos + 64) (64 * n) with
        | (s, .fault x) => (s.qFault q x).innerStop d.id x.code 0 d.pos
        | (s, .poison) => s.innerStop d.id 0x5E 0 d.pos
        | (s, .ok l) => s.innerTake d (h ++ l)

/-- WAITs on a queue look at DONE again (R366). -/
def State.waitQueues (s : State) : State :=
  s.each (s.fe.cmds.filter fun c => c.op == 0x09 && bits (c.word 16) 1 0 == 1 && c.started && !c.ended) fun s c =>
    let d := s.get (F.FE_Q_DONE_DONE (bits (c.word 24) 11 0))
    if bits (c.word 32) 47 0 < d ∧ s.heldByFreeze c = false then s.endCmd c.id 0 0 0 else s

/-- A ring entry (parent 0), or an entry of the buffer or graph that command `parent` runs, is fetched, once every BAR4
write that the device has taken is performed (R258). -/
def execCommandFetch (queue parent err cover : Nat) (data : List Byte) (s : State) : Out :=
  .next <|
    if parent = 0 then
      if queue < 4096 ∧ s.running = true ∧ s.written 4 0 = true then (s.fetchRing queue err cover data).waitQueues else s
    else
      match s.cmd parent with
      | some d => s.fetchInner d
      | none => s

end Sys2Proof.Machine
end

