-- ==== Sys2Proof/Machine/Command.lean ====
section
/-! DEFINITION. The start of the front end's commands: conditions, waits, signals, blocks, calls, launches, stored graphs,
Berth posts, snapshots, and the privileged commands (R152, R153, R210 to R212, R362 to R376, R504, R564, R567). -/

namespace Sys2Proof.Machine

/-! ### Starting, R364, R365 -/

/-- Started commands of a queue's ring that have not completed. -/
def State.ringRunning (s : State) (q : Nat) : Nat :=
  (s.fe.cmds.filter fun c => c.queue == q && c.parent == none && c.started).length

def State.maxRun (s : State) (q : Nat) : Nat :=
  if s.get (F.FE_Q_CFG_MAXRUN q) = 0 then 1024 else s.get (F.FE_Q_CFG_MAXRUN q)

/-- The commands that wait for every earlier command of their level: FENCE, SIGNAL, BERTH_POST, COND_BEGIN, LOOP_BEGIN. -/
def Cmd.serial (c : Cmd) : Bool := [0x0A, 0x0B, 0x0C, 0x0F, 0x12].contains c.op

/-- What its level lets a command do: the ring counts its commands and the records due; a buffer or graph runs on while
its queue has not been reset. -/
def State.levelLets (s : State) (c : Cmd) : Bool :=
  let q := c.queue
  match c.parent with
  | none => s.qState q == 1 && decide (s.ringRunning q < s.maxRun q ∧ s.ringRunning q + s.get (F.FE_Q_STAT_HELD q) < s.cqSpace q + 64)
  | some p => [1, 2, 4].contains (s.qState q) && (s.cmd p).any fun d => !d.stopping

/-- A fetched command may start. -/
def State.mayStart (s : State) (c : Cmd) : Bool :=
  !c.started && !c.ended && s.ctxState (s.qCtx c.queue) == 2 && !s.frozenPart (s.qPart c.queue) && s.levelLets c &&
  (s.earlier c).all (fun d => d.op != 0x09) && decide ((s.fe.cmds.filter (·.started)).length < 32768) &&
  !(c.np && (s.ctx (s.qCtx c.queue)).asked) && (!c.serial || (s.earlier c).isEmpty)

/-- A started command that waits may look again: its queue is not being reset, its context lives and is not held by a
freeze. -/
def State.mayRetry (s : State) (c : Cmd) : Bool :=
  c.started && !c.ended && s.qState c.queue != 3 && s.ctxState (s.qCtx c.queue) != 0 && !s.heldByFreeze c

/-- The command has started. -/
def State.begun (s : State) (c : Cmd) : State := s.updCmd c.id fun d => { d with started := true }

/-- The command has started and its effect is over. -/
def State.atOnce (s : State) (c : Cmd) (result : Nat) : State := (s.begun c).endCmd c.id 0 0 result

/-- A row that starts a command of a form, once it may start. -/
def State.starting (s : State) (id : Nat) (form : Cmd → Bool) (f : Cmd → State → State) : State :=
  match s.cmd id with
  | some c => if form c && s.mayStart c then s.unlessStalled (f c s) else s
  | none => s

/-- A row that starts a command which may then wait, or lets a started one look again. -/
def State.waiting (s : State) (id : Nat) (form : Cmd → Bool) (f : Cmd → State → State) : State :=
  match s.cmd id with
  | some c => if form c && (s.mayStart c || s.mayRetry c) then s.unlessStalled (f c s) else s
  | none => s

/-! ### Second-stage stops, R380 -/

/-- The command ends with the code of what stopped it: refused where it has not started. -/
def State.stopCmd (s : State) (c : Cmd) (x : Stop) : State :=
  let s := if x.code ≤ 0x15 then s.qFault c.queue x else s
  if c.started then s.endCmd c.id x.code 0 0 else s.refuse c.id x.code 0

/-- What stops a command whose read ended so; poison is code 0x5E. -/
def FeR.stops : FeR → List Stop
  | .ok _ => []
  | .fault x => [x]
  | .poison => [{ code := 0x5E }]

def FeR.data : FeR → List Byte
  | .ok l => l
  | _ => []

/-- The stop with the lowest code. -/
def leastStop : List Stop → Option Stop
  | [] => none
  | x :: l => match leastStop l with
    | none => some x
    | some y => some (if y.code < x.code then y else x)

/-- A condition as a stop. -/
def stopIf (b : Bool) (code : Nat) : List Stop := if b then [{ code := code }] else []

/-- k bytes read for a command at a virtual address. -/
def State.cmdRead (s : State) (c : Cmd) (va k : Nat) : State × FeR := s.feRead c.id (s.qCtx c.queue) (s.qPart c.queue) va k

/-- A little-endian word read for a command; `miss` comes before the stop. -/
def State.withWord (s : State) (c : Cmd) (va k : Nat) (miss : State → State) (f : Nat → State → State) : State :=
  match s.cmdRead c va k with
  | (s, .ok l) => f (ofBytes l) s
  | (s, .fault x) => (miss s).stopCmd c x
  | (s, .poison) => (miss s).stopCmd c { code := 0x5E }

/-! ### NOP, FENCE, conditions and loops, R365, R369 -/

/-- A comparison of R366. -/
def cmpHolds (cmp a b : Nat) : Bool :=
  if cmp = 0 then decide (b ≤ a) else if cmp = 1 then a == b else if cmp = 2 then a != b
  else if cmp = 3 then decide (a < b) else if cmp = 4 then decide (a ≤ b) else decide (b < a)

def execCmdNop (cmd : Nat) (s : State) : Out :=
  .next <| s.starting cmd (fun c => c.op == 0x01) fun c s => s.atOnce c 0

def execCmdFence (cmd : Nat) (s : State) : Out :=
  .next <| s.starting cmd (fun c => c.op == 0x0B) fun c s => s.atOnce c 0

/-- A block is opened in the command's level. -/
def State.openBlock (s : State) (c : Cmd) (n : Nest) : State := s.setNest c.queue c.parent (n :: s.nestOf c.queue c.parent)

/-- The condition is evaluated once; a refused one counts as false. -/
def execCondBegin (cmd : Nat) (s : State) : Out :=
  .next <| s.starting cmd (fun c => c.op == 0x0C) fun c s =>
    s.withWord c (c.word 16) 8 (fun s => s.openBlock c (.cond false false)) fun w s =>
      (s.openBlock c (.cond (cmpHolds (bits (c.word 40) 2 0) (w &&& c.word 32) (c.word 24)) false)).atOnce c 0

/-- The entry after LOOP_BEGIN in its buffer or graph. -/
def State.loopStart (s : State) (c : Cmd) : Nat := (c.parent.bind s.cmd).elim 0 (·.pos)

/-- The count comes from memory or from COUNT; a refused loop skips its body. -/
def execLoopBegin (cmd : Nat) (s : State) : Out :=
  .next <| s.starting cmd (fun c => c.op == 0x0F) fun c s =>
    let go := fun (n : Nat) (s : State) => (s.openBlock c (.loop (s.loopStart c) n)).atOnce c 0
    if c.word 24 = 0 then go (bits (c.word 16) 31 0) s
    else s.withWord c (c.word 24) 4 (fun s => s.openBlock c (.loop 0 0)) go

/-- A fetched marker is matched (R369); DONE passes it. -/
def State.markerRow (s : State) (cmd op : Nat) : State :=
  match s.cmd cmd with
  | some c =>
    if c.op = op ∧ c.started = false ∧ c.ended = false then
      (((s.takeMarker c).setDone c.queue).resched (s.qPart c.queue)).waitQueues
    else s
  | none => s

def execCondElse (cmd : Nat) (s : State) : Out := .next <| s.markerRow cmd 0x0D
def execCondEnd (cmd : Nat) (s : State) : Out := .next <| s.markerRow cmd 0x0E
def execLoopEnd (cmd : Nat) (s : State) : Out := .next <| s.markerRow cmd 0x10

/-! ### WAIT, R366 -/

def Cmd.waitMode (c : Cmd) (m : Nat) : Bool := c.op == 0x09 && bits (c.word 16) 1 0 == m

/-- A memory WAIT reads its word. -/
def State.waitTest (s : State) (c : Cmd) : State :=
  s.withWord c (c.word 24) 8 id fun w s =>
    if cmpHolds (bits (c.word 16) 6 4) (w &&& c.word 40) (c.word 32) then s.atOnce c 0 else s.begun c

def execWaitMemory (cmd : Nat) (s : State) : Out := .next <| s.starting cmd (·.waitMode 0) fun c s => s.waitTest c

/-- A WAIT on a queue: it starts, or looks at DONE again. -/
def execWaitQueue (cmd : Nat) (s : State) : Out :=
  .next <| s.waiting cmd (·.waitMode 1) fun c s => (s.begun c).waitQueues

def execWaitReread (cmd : Nat) (s : State) : Out :=
  .next <| match s.cmd cmd with
    | some c => if c.waitMode 0 && s.mayRetry c then s.unlessStalled (s.waitTest c) else s
    | none => s

/-- Every memory WAIT of a partition re-reads its word. -/
def State.waitsOf (s : State) (p : Nat) : State :=
  s.each (s.fe.cmds.filter fun c => c.waitMode 0 && s.mayRetry c && s.qPart c.queue == p) fun s c => s.unlessStalled (s.waitTest c)

/-! ### SIGNAL, R365 -/

/-- A write of local setup space, as PF0 would make it in BAR0 or BAR2 (R48, R49). -/
def State.setupWrite (s : State) (pa k v : Nat) : State :=
  if region pa = .setup0 then (s.bar0Write 0 (pa - 0x020000000000) k v).1 else s.bar2Write 0 (pa - 0x020001000000) k v

/-- The old value of the word that an ADD adds to: what the host holds is free. -/
def State.signalValue (s : State) (c : Cmd) (old : State → State × Nat) : State × Nat :=
  if bit (c.word 32) 0 then
    let r := old s
    (r.1, (r.2 + c.word 24) % 2 ^ 64)
  else (s, c.word 24)

/-- A write of the front end for a queue completes its command once it is performed: a home that cannot take it now leaves
the command where it was (R259). -/
def State.ifWritten (s : State) (q : Nat) (t : State) (fin : State → State) : State := if t.written 3 q then fin t else s

/-- The signal is written, and the partition's WAITs look again. -/
def State.signal (s : State) (c : Cmd) : State :=
  let p := s.qPart c.queue
  let fin := fun (s : State) => (s.atOnce c 0).waitsOf p
  match s.locate (s.qCtx c.queue) p (c.word 16) true with
  | .fault x => s.stopCmd c x
  | .mem pa =>
    let r := s.signalValue c fun s => (s, s.peekNum pa 8)
    s.ifWritten c.queue (r.1.pokeAs 3 c.queue pa (toBytes 8 r.2)) fin
  | .host pa =>
    let r := s.signalValue c fun s => ((s.draw).2, (s.draw).1.toNat)
    fin (r.1.hostPost 0 pa (toBytes 8 r.2))
  | .setup pa =>
    let r := s.signalValue c fun s => let z := s.setupRead pa 8; (z.1, ofBytes z.2)
    fin (r.1.setupWrite pa 8 r.2)
  | .fabric _ => s.stopCmd c { code := 0x52 }

def execSignal (cmd : Nat) (s : State) : Out := .next <| s.starting cmd (fun c => c.op == 0x0A) fun c s => s.signal c

/-! ### CALL and LAUNCH_GRAPH, R368, R375 -/

def execCmdCall (cmd : Nat) (s : State) : Out :=
  .next <| s.starting cmd (fun c => c.op == 0x11) fun c s =>
    s.updCmd c.id fun d => { d with started := true, base := c.word 16, ents := bits (c.word 24) 16 0 }

/-- The graph that a command names. -/
def State.graphOf (s : State) (c : Cmd) : Nat := graphKey (s.qPart c.queue) (c.word 16)

/-- CURVER is pinned; RESULT is the version. -/
def execLaunchGraph (cmd : Nat) (s : State) : Out :=
  .next <| s.starting cmd (fun c => c.op == 0x03) fun c s =>
    let k := s.graphOf c
    match tabFind s.fe.graphs k with
    | some g =>
      if s.graphDefined k then
        let ver := s.get (F.FE_GRAPH_CURVER (k / 1024) (k % 1024))
        let s := s.updCmd c.id fun d =>
          { d with started := true, graph := some (k, g.cur), base := s.graphBuf k g g.cur, ents := s.graphEntries k, result := ver }
        s.graphCount k
      else s.stopCmd c { code := 0x57 }
    | none => s.stopCmd c { code := 0x57 }

/-! ### PATCH_GRAPH, R374, R376, R567 -/

/-- The units that the graphs of a partition hold: first unit and length. -/
def State.storeRuns (s : State) (p : Nat) : List (Nat × Nat) :=
  (s.fe.graphs.filter fun e => e.1 / 1024 == p).flatMap fun e => [(e.2.run0, e.2.units), (e.2.run1, e.2.units)]

/-- A run of u units from unit a lies free within a store of n units. -/
def runFree (l : List (Nat × Nat)) (n u a : Nat) : Bool :=
  decide (a + u ≤ n) && l.all fun r => decide (a + u ≤ r.1 ∨ r.1 + r.2 ≤ a)

/-- The lowest-addressed free run of u units: it starts at unit 0 or where a run ends. -/
def runFit (l : List (Nat × Nat)) (n u : Nat) : Option Nat :=
  ((0 :: l.map fun r => r.1 + r.2).filter (runFree l n u)).foldl
    (fun a x => match a with | none => some x | some y => some (min x y)) none

/-- Both runs of a define, the first buffer's first. -/
def State.storeFit (s : State) (p u : Nat) : Option (Nat × Nat) :=
  let l := s.storeRuns p
  let n := 16 * s.get (F.FE_GSIZE_SIZE p)
  match runFit l n u with
  | none => none
  | some a => (runFit ((a, u) :: l) n u).map fun b => (a, b)

/-- Every head entry of a define's source may stand in a graph; n bounds the entries. -/
def graphOpsOk (l : List Byte) (ents : Nat) : Nat → Nat → Bool
  | 0, _ => true
  | n + 1, i =>
    if ents ≤ i then true
    else bit (opWhere (bytesAt l (64 * i) 1)) 2 && graphOpsOk l ents n (i + 1 + bits (bytesAt l (64 * i + 1) 1) 1 0)

/-- A new graph: its entries in both buffers, written for queue q, version 1. -/
def State.graphPut (s : State) (q k u : Nat) (runs : Nat × Nat) (ents : Nat) (l : List Byte) : State :=
  let p := k / 1024
  let g : Graph := ⟨u, runs.1, runs.2, 0⟩
  let s : State := { s with fe := { s.fe with graphs := tabIns s.fe.graphs k g } }
  let s := (s.pokeAs 3 q (s.graphBuf k g 0) l).pokeAs 3 q (s.graphBuf k g 1) l
  let s := s.set (F.FE_GSIZE_FREE p) (s.get (F.FE_GSIZE_FREE p) - 2 * u)
  s.setRaw (A.FE_GRAPH p (k % 1024)) (BitVec.ofNat 64 (1 + 1 * 2 ^ 2 + 1 * 2 ^ 16 + ents * 2 ^ 32))

/-- ACTION of a PATCH_GRAPH command. -/
def Cmd.patchAct (c : Cmd) (a : Nat) : Bool := c.op == 0x04 && patchAction c.entry == a

def execGraphDefine (cmd : Nat) (s : State) : Out :=
  .next <| s.starting cmd (·.patchAct 0) fun c s =>
    let k := s.graphOf c
    let ents := bits (c.word 32) 12 0
    let u := (64 * ents + 4095) / 4096
    let r := s.cmdRead c (c.word 24) (64 * ents)
    let s := r.1
    let l := r.2.data
    let fit := s.storeFit (k / 1024) u
    let bad := (tabFind s.fe.graphs k).isSome || fit.isNone || (r.2.stops.isEmpty && !graphOpsOk l ents ents 0)
    match leastStop (r.2.stops ++ stopIf bad 0x57), fit with
    | some x, _ => s.stopCmd c x
    | none, some runs => s.ifWritten c.queue (s.graphPut c.queue k u runs ents l) fun s => s.atOnce c 1
    | none, none => s

/-- A patch: at once, or when a version is unpinned. -/
def execGraphPatch (cmd : Nat) (s : State) : Out :=
  .next <| s.waiting cmd (·.patchAct 1) fun c s =>
    let k := s.graphOf c
    if c.started then s.graphPatches k
    else if (tabFind s.fe.graphs k).isNone || !s.graphDefined k then s.stopCmd c { code := 0x57 }
    else if (patchPairs (patchN c.entry)).any fun o => decide (64 * s.graphEntries k ≤ bits (c.word o) 31 0) then
      s.stopCmd c { code := 0x52 }
    else (s.begun c).graphPatches k

/-- A delete: patches that wait on the graph end, and the storage returns once nothing pins it. -/
def execGraphDelete (cmd : Nat) (s : State) : Out :=
  .next <| s.starting cmd (·.patchAct 2) fun c s =>
    let k := s.graphOf c
    let p := k / 1024
    let n := k % 1024
    if (tabFind s.fe.graphs k).isNone || !s.graphDefined k then s.stopCmd c { code := 0x57 }
    else
      let s := ((s.set (F.FE_GRAPH_DEFINED p n) 0).set (F.FE_GRAPH_DELETING p n) 1).set (F.FE_GRAPH_PATCHWAIT p n) 0
      let s := s.each (s.fe.cmds.filter fun d => d.patching && s.graphOf d == k) fun s d => s.endCmd d.id 0x57 0 0
      (s.atOnce c 0).graphCount k

/-! ### LAUNCH, R152, R153, R212, R363, R564 -/

/-- Fields of a kernel descriptor. -/
def kdEntry (l : List Byte) : Nat := bytesAt l 0 8
def kdWord (l : List Byte) : Nat := bytesAt l 8 8
def kdArgs (l : List Byte) : Nat := bytesAt l 16 8
def kdGrid (l : List Byte) : Nat := bytesAt l 24 4
def kdThreads (l : List Byte) : Nat := bits (kdWord l) 9 0 + 1
def kdWcache (l : List Byte) : Nat := bits (kdWord l) 13 10
def kdResident (l : List Byte) : Bool := bit (kdWord l) 14
def kdCluster (l : List Byte) : Bool := bit (kdWord l) 15
def kdKeep (l : List Byte) : Bool := bit (kdWord l) 16

/-- The barrier watchdog's bound: 0 gives the largest, and small values 65,536 (R170). -/
def kdWdog (l : List Byte) : Nat :=
  let w := bits (kdWord l) 63 32
  if w = 0 then 2 ^ 32 - 1 else if w < 65536 then 65536 else w

/-- The core set FIRST to FIRST + COUNT − 1, and its usable cores, ascending. -/
def coreSet (first count : Nat) : List Nat := (List.range count).map (first + ·)
def usableCores (first count : Nat) (cluster : Bool) : List Nat :=
  (coreSet first count).filter fun k => !cluster || (decide (first ≤ k / 8 * 8) && decide (k / 8 * 8 + 8 ≤ first + count))

/-- The descriptor is refused with 0x53; `usable` counts the usable cores. -/
def kdRefused (l : List Byte) (usable : Nat) : Bool :=
  bits (kdWord l) 31 17 != 0 || bytesAt l 28 4 != 0 || bytesAt l 32 32 != 0 || decide (11 < kdWcache l) || kdGrid l == 0 ||
  kdEntry l % 16 != 0 || decide (2 ^ 52 ≤ kdEntry l) || kdArgs l % 8 != 0 || decide (2 ^ 52 ≤ kdArgs l) ||
  (kdCluster l && kdGrid l % 8 != 0) || (kdResident l && decide (usable < kdGrid l))

/-- The core set is within the device and the context's share, and in service. -/
def State.coreSetOk (s : State) (ctx first count : Nat) : Bool :=
  decide (first + count ≤ 1024) && (coreSet first count).all fun k => s.inMask ctx (k / 8) && s.clThere (k / 8)

/-- The Sluice map at a virtual address, header and entries; nothing for address 0. -/
def State.mapRead (s : State) (c : Cmd) (va : Nat) : State × FeR :=
  if va = 0 then (s, .ok [])
  else
    match s.cmdRead c va 32 with
    | (s, .ok h) => if mapHeaderOk h then s.cmdRead c va (32 + 32 * mapCount h) else (s, .ok h)
    | z => z

/-- The argument block of a descriptor that is not refused. -/
def State.argsRead (s : State) (c : Cmd) (kd : List Byte) (ok : Bool) : State × FeR :=
  if ok && kdArgs kd != 0 then s.cmdRead c (kdArgs kd) 128 else (s, .ok [])

/-- A launch that has passed its checks. -/
def State.launchPut (s : State) (c : Cmd) (kd args mp : List Byte) (cores : List Nat) : State :=
  let q := c.queue
  let l : Launch :=
    { id := c.id, cmd := c.id, queue := q, ctx := s.qCtx q, part := s.qPart q, entry := kdEntry kd, threads := kdThreads kd
      wcache := kdWcache kd, resident := kdResident kd, cluster := kdCluster kd, keep := kdKeep kd, wdog := kdWdog kd
      args := args, grid := kdGrid kd, cores := cores, slot := if mp = [] then none else some (mapSlot mp), next := 0
      doneBlocks := 0, arrived := [] }
  let s := if mp = [] then s else s.bindMap c.id l.ctx l.part cores mp
  { s.begun c with fe := { (s.begun c).fe with launches := s.fe.launches ++ [l] } }

def execLaunch (cmd : Nat) (s : State) : Out :=
  .next <| s.starting cmd (fun c => c.op == 0x02) fun c s =>
    let ctx := s.qCtx c.queue
    let first := bits (c.word 32) 9 0
    let count := bits (c.word 32) 20 10
    let k := s.cmdRead c (c.word 16) 64
    let kd := k.2.data
    let kdIn := k.2.stops.isEmpty
    let cores := usableCores first count (kdIn && kdCluster kd)
    let refused := kdIn && kdRefused kd cores.length
    let a := k.1.argsRead c kd (kdIn && !refused)
    let m := a.1.mapRead c (c.word 24)
    let s := m.1
    let mp := m.2.data
    let mapBad := kdIn && m.2.stops.isEmpty && c.word 24 != 0 &&
      !s.mapOk ctx (s.qPart c.queue) (kdResident kd) (kdGrid kd) (768 * 1024 - (kdWcache kd + 1) * 65536) cores mp
    let setBad := !s.coreSetOk ctx first count || cores.isEmpty
    match leastStop (k.2.stops ++ a.2.stops ++ m.2.stops ++ stopIf refused 0x53 ++ stopIf mapBad 0x54 ++ stopIf setBad 0x55) with
    | some x => s.stopCmd c x
    | none => s.launchPut c kd a.2.data mp cores

/-! ### BERTH_POST, R371 -/

/-- The 64 bytes of the item that a command posts. -/
def Cmd.item (c : Cmd) : List Byte :=
  (c.entry.drop 64).take 48 ++ toBytes 6 c.seq ++ toBytes 1 c.epoch ++ [0] ++ toBytes 2 c.queue ++ toBytes 2 c.gen ++ toBytes 4 0

def execBerthPost (cmd : Nat) (s : State) : Out :=
  .next <| s.waiting cmd (fun c => c.op == 0x12) fun c s =>
    let b := bits (c.word 16) 11 0
    let n := s.get (F.FE_BERTH_OWN_COUNT b)
    if s.berthOf b (s.qCtx c.queue) = false then s.stopCmd c { code := 0x58 }
    else if s.berthDepth b ≤ n then s.begun c
    else
      s.ifWritten c.queue (s.pokeAs 3 c.queue (s.berthItem b (tabGet 0 s.fe.taken b + n)) c.item) fun s =>
        ((s.set (F.FE_BERTH_OWN_COUNT b) (n + 1)).atOnce c 0).resched (s.qPart c.queue)

/-! ### SNAPSHOT and REGULATE, R363 -/

def execSnapshot (cmd : Nat) (s : State) : Out :=
  .next <| s.starting cmd (fun c => c.op == 0x13) fun c s => (s.begun c).snapRequest c.id

/-- REGULATE of a target: `f` is the write, as PF0 would make it; a write that the target ignores ends with 0x5C. -/
def State.regulate (s : State) (cmd target : Nat) (f : State → Nat → Nat → State × Bool) : State :=
  s.starting cmd (fun c => c.op == 0x16 && bits (c.word 16) 3 0 == target) fun c s =>
    let r := f s (bits (c.word 16) 11 8) (c.word 24)
    (r.1.begun c).endCmd c.id (if r.2 then 0 else 0x5C) 0 0

def execRegulateMcReg (cmd : Nat) (s : State) : Out := .next <| s.regulate cmd 0 State.mcRegWrite
def execRegulateFabric (cmd : Nat) (s : State) : Out := .next <| s.regulate cmd 1 State.fabRegWrite
def execRegulatePowerLimit (cmd : Nat) (s : State) : Out := .next <| s.regulate cmd 2 fun s _ v => s.pkgLimitWrite v
def execRegulateSlShare (cmd : Nat) (s : State) : Out := .next <| s.regulate cmd 3 State.slShareWrite

/-! ### CONFIG_SELECT, R504 -/

/-- The slot that SLOT names, as device and offset. -/
def State.selSlot (s : State) (slot : Nat) : Option (Nat × Nat) :=
  if slot = 0 then s.cfgCurrent.map fun d => (d, offCfg)
  else if slot = 1 then s.cfgCurrent.map fun d => (1 - d, offCfg)
  else if s.cfgThere 0 offFactory && cfgCheck (s.cfgSlot 0 offFactory) then some (0, offFactory)
  else some (1, offFactory)

/-- The named slot is there, passes R501 and holds the VERSION that the command expects: its bytes. -/
def State.selImage (s : State) (slot version : Nat) : Option (List Byte) :=
  match s.selSlot slot with
  | none => none
  | some (d, off) =>
    let l := s.cfgSlot d off
    if s.cfgThere d off && cfgCheck l && bytesAt l 12 4 == version then some l else none

/-- SEQ of the current slot, and the device of the slot that is rewritten. -/
def State.selSeq (s : State) : Nat := s.cfgCurrent.elim 0 fun d => s.flashSeq d offCfg
def State.selDev (s : State) : Nat := s.cfgCurrent.elim 0 fun d => 1 - d

/-- The command acts on flash once no flash operation runs: `slot` as it is named. -/
def State.configSelect (s : State) (cmd slot : Nat) : State :=
  s.waiting cmd (fun c => c.op == 0x17 && bits (c.word 16) 1 0 == slot) fun c s =>
    let ver := bits (c.word 24) 31 0
    let fin := fun (s : State) (code : Nat) => s.endCmd c.id code 0 (if code = 0 then ver else 0)
    let s := s.begun c
    if s.on F.BT_UPD_CTL_BUSY || s.boot.upd.isSome || (tabFind s.boot.selDone c.id).isSome then s
    else
      match s.selImage slot ver with
      | none => fin s 0x5C
      | some l =>
        if slot = 0 then fin s 0
        else if 0xFFFFFFFE < s.selSeq + 1 ∨ s.flashThere s.selDev = false then fin s 0x5C
        else
          let o : FlashOp := ⟨8, s.selDev, offCfg, cfgWithSeq l (s.selSeq + 1), 0, [], c.id⟩
          ({ s with boot := { s.boot with upd := some o } } : State).flashBegin o

def execConfigSelectCurrent (cmd : Nat) (s : State) : Out := .next <| s.configSelect cmd 0
def execConfigSelectPrevious (cmd : Nat) (s : State) : Out := .next <| s.configSelect cmd 1
def execConfigSelectFactory (cmd : Nat) (s : State) : Out := .next <| s.configSelect cmd 2

end Sys2Proof.Machine
end

