-- ==== Sys2Proof/Machine/Complete.lean ====
section
/-! DEFINITION. The end of commands: completion, the command watchdog, overruns of non-preemptible commands, and the end of
a guilty reset (R367, R368, R384, R385, R400). -/

namespace Sys2Proof.Machine

/-! ### Completion, R367 -/

/-- A freeze of the queue's VF is complete: nothing of it moves (R410). -/
def State.vfStopped (s : State) (q : Nat) : Bool := s.fe.stopped.any fun v => s.get (F.PT_FN_PART v) == s.qPart q

/-- The command is forgotten by the recorder and by the flash. -/
def State.forget (s : State) (id : Nat) : State :=
  { s with evr := { s.evr with snapDone := tabDel s.evr.snapDone id }, boot := { s.boot with selDone := tabDel s.boot.selDone id } }

/-- A command completes; a queue being reset writes its records at the end of the reset. -/
def execCommandComplete (cmd : Nat) (s : State) : Out :=
  .next <| match s.cmd cmd with
    | none => s
    | some c =>
      if s.qState c.queue = 3 ∨ s.vfStopped c.queue = true then s
      else
        match s.overAs c with
        | some d => ((s.forget c.id).finish d).waitQueues
        | none => s

/-! ### The command watchdog, R384, R385 -/

/-- The ring command that contains a command takes 0x5D at the reset's end, with the entry below the ring. -/
def State.markLate (s : State) (c : Cmd) : State :=
  let r := s.ringOf c 8
  let s := s.updCmd r.1.id fun d => { d with place := r.2 }
  { s with fe := { s.fe with late := setIns s.fe.late r.1.id } }

/-- A command has counted its bound. -/
def execCommandWatchdogExpiry (cmd : Nat) (s : State) : Out :=
  .next <| match s.cmd cmd with
    | none => s
    | some c =>
      if c.started && !c.ended && s.boundOf c != 0 && s.ctxState (s.qCtx c.queue) == 2 && !s.haltedCtx (s.qCtx c.queue) &&
          [1, 2, 4].contains (s.qState c.queue) then
        (s.markLate c).guilty c.queue 3
      else s

/-! ### Overrun, R400 -/

/-- The overrun of a context has passed four slices: the queue of its oldest running NP command is guilty. -/
def execNpOverrunLimit (ctx : Nat) (s : State) : Out :=
  .next <|
    if ctx < 1024 ∧ s.ctxState ctx = 2 ∧ (s.ctx ctx).asked = true ∧ s.get (F.PT_PART_CTL_SLICE (s.ctxPart ctx)) ≠ 0 then
      match s.fe.cmds.find? fun c => c.started && c.np && s.qCtx c.queue == ctx with
      | some c => if s.qState c.queue = 1 ∨ s.qState c.queue = 2 then s.guilty c.queue 6 else s
      | none => s
    else s

/-! ### The end of a guilty reset, R385 steps 3 to 5 -/

/-- The record of a started ring command of a queue being reset. -/
def State.resetRec (s : State) (q : Nat) (c : Cmd) : Rec :=
  let late := s.fe.late.contains c.id
  let status := if late then 0x5D else if s.get (F.FE_Q_STAT_CAUSE q) = 7 then 0x5B else 0x5A
  { c.record with status := status, source := 0, result := 0, place := if late then c.place else 0 }

/-- The record is written where the ring has room; a record that cannot be written is dropped, its fault
recorded. -/
def State.resetWrite (s : State) (q : Nat) (c : Cmd) : State :=
  if s.cqSpace q = 0 ∨ c.gen ≠ s.genOf (s.qFunc q) then s
  else
    match s.writeRec q (s.resetRec q c) with
    | (s, none) => s
    | (s, some x) => s.qFault q x

/-- The queue is OFF, with nothing held, and its CAUSE kept. -/
def State.resetOff (s : State) (q : Nat) : State :=
  let mine := s.fe.cmds.filter fun c => c.queue == q
  let s := s.each (mine.filter fun c => c.parent == none && c.started) fun s c => s.resetWrite q c
  let s : State := { s with fe := { s.fe with late := s.fe.late.filter fun i => !(mine.any fun c => c.id == i) } }
  let s := s.each mine fun s c => s.forget c.id
  ((s.qOff q).qEvent q 4).fvec q

/-- The context's teardown is over: the reset queue writes its records and goes OFF. -/
def execGuiltyResetComplete (queue : Nat) (s : State) : Out :=
  .next <|
    if queue < 4096 ∧ s.qState queue = 3 ∧ s.ctxState (s.qCtx queue) ≠ 6 then
      ((s.resetOff queue).waitQueues).resched (s.qPart queue)
    else s

end Sys2Proof.Machine
end

