-- ==== Sys2Proof/Machine/Control.lean ====
section
/-! DEFINITION. The CTRL class (R151, R201). -/

namespace Sys2Proof.Machine

def execNop (at' : Issue) (w : BitVec 128) (s : State) : Out := .next <| s.instr 7 0x01 at' w fun o s => s.done o (s.core o.core)

/-- Threads go to an address; the issue's other threads carry on (R156: the fragment splits). -/
def Core.jump (k : Core) (o : Op) (target : Nat → Nat) : Core :=
  let k := k.advance (o.all.filter fun t => !o.ex.contains t)
  (o.ex.foldl (fun k t => k.setPc t (target t)) k).counted o.group o.all

/-- The relative target. -/
def relTarget (o : Op) : Nat := wrap 64 ((o.pc : Int) + 16 * wDisp o.w)

def execBra (at' : Issue) (w : BitVec 128) (s : State) : Out :=
  .next <| s.instr 7 0x02 at' w fun o s => s.setCore o.core ((s.core o.core).jump o fun _ => relTarget o)

/-- The link: the pair D of every executing thread takes the next address. -/
def Core.link (k : Core) (o : Op) : Core := o.ex.foldl (fun k t => k.setRegs t (wD o.w) ((o.pc + 16) % 2 ^ 64) 2) k

/-- An indirect branch: a target of any lane that is no multiple of 16 raises 0x3C; `pre` writes the link first. -/
def State.indirect (pre : Core → Op → Core) (o : Op) (s : State) : State :=
  let k := s.core o.core
  let target := srcA o.w 2 k
  match o.ex.find? fun t => target t % 16 != 0 with
  | some _ => s.raiseOp o 0x3C
  | none => s.setCore o.core ((pre k o).jump o target)

def execBrx (at' : Issue) (w : BitVec 128) (s : State) : Out := .next <| s.instr 7 0x03 at' w (State.indirect fun k _ => k)
def execCall (at' : Issue) (w : BitVec 128) (s : State) : Out :=
  .next <| s.instr 7 0x04 at' w fun o s => s.setCore o.core (((s.core o.core).link o).jump o fun _ => relTarget o)
def execCallx (at' : Issue) (w : BitVec 128) (s : State) : Out := .next <| s.instr 7 0x05 at' w (State.indirect Core.link)

def execTrap (at' : Issue) (w : BitVec 128) (s : State) : Out :=
  .next <| s.instr 7 0x07 at' w fun o s => s.raiseOp o 0x37 { extra := [wImm o.w] }

def execFstatrd (at' : Issue) (w : BitVec 128) (s : State) : Out :=
  .next <| s.instr 7 0x08 at' w fun o s =>
    let k := s.core o.core
    s.done o (k.setUreg o.group (wD o.w) (k.flags o.group))

def execFstatclr (at' : Issue) (w : BitVec 128) (s : State) : Out :=
  .next <| s.instr 7 0x09 at' w fun o s => s.done o ((s.core o.core).clearFlags o.group (wImm o.w))

end Sys2Proof.Machine
end

