-- ==== Sys2Proof/Machine/Blocks.lean ====
section
/-! DEFINITION. Compressed blocks: header, methods and canonical codes (R331 to R336). -/

namespace Sys2Proof.Machine

/-- The header of a block. -/
structure BlockHdr where
  method : Nat
  chk : Bool
  fill : Nat
  outlen : Nat
  enclen : Nat
  check : Nat
  /-- A reserved bit is set, or a field is not 0 where it must be. -/
  resv : Bool
  deriving DecidableEq, Repr

/-- The 16 bytes of a header. -/
def blockHdr (h : List Byte) : BlockHdr :=
  let w := ofBytes (h.take 8)
  let v := bytesAt h 8 4
  { method := bits w 3 0, chk := bit w 4, fill := bits w 15 8, outlen := bits w 27 16 + 1, enclen := bits w 46 32, check := v
    resv := bits w 7 5 != 0 || bits w 31 28 != 0 || bit w 47 || bits w 63 48 != 0 || bytesAt h 12 4 != 0 ||
      (bits w 15 8 != 0 && bits w 3 0 != 1) || (v != 0 && !bit w 4) }

/-- METHOD, the fields and the lengths agree (R332, R333). -/
def BlockHdr.ok (b : BlockHdr) : Bool :=
  !b.resv && decide (b.method ≤ 3 ∧ b.enclen % 8 = 0 ∧ 16 ≤ b.enclen ∧ b.enclen ≤ 16384) &&
  (if b.method = 0 then b.enclen == (16 + b.outlen + 7) / 8 * 8 else if b.method = 1 then b.enclen == 16
   else if b.method = 2 then decide (24 ≤ b.enclen) else decide (144 ≤ b.enclen))

/-- The code lengths of a block: nibble s of the bytes from 16 on. -/
def codeLens (l : List Byte) (n : Nat) : List Nat :=
  (List.range n).map fun s => bits (bytesAt l (16 + s / 2) 1) (4 * (s % 2) + 3) (4 * (s % 2))

/-- Used symbols with a code of this length. -/
def lenCount (lens : List Nat) (l : Nat) : Nat := if l = 0 then 0 else (lens.filter (· == l)).length

/-- The first code of a length. -/
def canonFirst (lens : List Nat) : Nat → Nat
  | 0 => 0
  | l + 1 => 2 * (canonFirst lens l + lenCount lens l)

/-- The codes: length, code and symbol of every used symbol. -/
def canonCodes (lens : List Nat) : List (Nat × Nat × Nat) :=
  (lens.mapIdx fun s l => (l, canonFirst lens l + lenCount (lens.take s) l, s)).filter fun e => e.1 != 0

/-- The table names a symbol, and its codes fit. -/
def canonOk (lens : List Nat) : Bool :=
  lens.any (· != 0) && decide (((lens.filter (· != 0)).map fun l => 2 ^ (15 - l)).sum ≤ 2 ^ 15)

/-- Bit i of a byte list, bit 0 of each byte first. -/
def bitOf (l : List Byte) (i : Nat) : Option Nat := (l[i / 8]?).map fun b => b.toNat / 2 ^ (i % 8) % 2

/-- One symbol from bit `pos` on: at most n more bits, with `len` bits read so far. -/
def readSym (t : List (Nat × Nat × Nat)) (l : List Byte) : Nat → Nat → Nat → Nat → Option (Nat × Nat)
  | 0, _, _, _ => none
  | n + 1, pos, len, code =>
    match bitOf l pos with
    | none => none
    | some b =>
      match t.find? fun e => e.1 == len + 1 && e.2.1 == 2 * code + b with
      | some e => some (e.2.2, pos + 1)
      | none => readSym t l n (pos + 1) (len + 1) (2 * code + b)

/-- n symbols from bit `pos` on. -/
def readSyms (t : List (Nat × Nat × Nat)) (l : List Byte) : Nat → Nat → Option (List Nat)
  | 0, _ => some []
  | n + 1, pos =>
    match readSym t l 15 pos 0 0 with
    | none => none
    | some (s, p) => (readSyms t l n p).map (s :: ·)

/-- Output bytes of nibble symbols: the low nibble first. -/
def joinNibbles : List Nat → List Byte
  | a :: b :: r => BitVec.ofNat 8 (a + 16 * b) :: joinNibbles r
  | _ => []

/-- The output of a whole block whose header is sound, or code 0x44 or 0x45. -/
def blockOut (b : BlockHdr) (l : List Byte) : Nat × List Byte :=
  if b.method = 0 then (0, (l.drop 16).take b.outlen)
  else if b.method = 1 then (0, List.replicate b.outlen (BitVec.ofNat 8 b.fill))
  else
    let lens := codeLens l (if b.method = 2 then 16 else 256)
    if !canonOk lens then (0x44, [])
    else
      match readSyms (canonCodes lens) l (if b.method = 2 then 2 * b.outlen else b.outlen) (if b.method = 2 then 192 else 1152) with
      | none => (0x45, [])
      | some syms => (0, if b.method = 2 then joinNibbles syms else syms.map (BitVec.ofNat 8))

/-- A block's output checked, with `room` output bytes left: the lowest code, or 0, and the output. -/
def blockCheck (b : BlockHdr) (l : List Byte) (room : Nat) : Nat × List Byte :=
  let r := blockOut b l
  if r.1 ≠ 0 then r
  else if b.chk && crc32c r.2 != b.check then (0x46, [])
  else if room < b.outlen then (0x47, [])
  else r

end Sys2Proof.Machine
end

