-- ==== Sys2Proof/Machine/Engine.lean ====
section
/-! DEFINITION. Pumps and Lighters: the choice of a unit, the start checks, weight streams, gathers, copies, fills, fabric
transfers, and the end of their commands (R324 to R349, R440 to R447). -/

namespace Sys2Proof.Machine

/-! ### Units, R324, R325 -/

/-- Unit u is in the partition's share and in service. -/
def State.unitIn (s : State) (p u : Nat) : Bool :=
  if u < 192 then bit (s.get (F.PT_PART_PU_PUMPS p (u / 64))) (u % 64) && !s.isRetired 10 u
  else bit (s.get (F.PT_PART_LT_LIGHTERS p)) (u - 192) && !s.isRetired 11 (u - 192)

/-- It runs no command. DESIGN CHOICE: the command of a context that is switched out keeps its unit until it ends (R325 and R347
do not say). -/
def State.unitFree (s : State) (p u : Nat) : Bool :=
  s.unitIn p u && !(s.fe.cmds.any fun c => c.job.any fun j => j.unit == u)

/-- The Quay of a unit. -/
def unitQuay (u : Nat) : Nat := if u < 192 then u / 96 else (u - 192) / 16

/-- The lowest-numbered free unit of the range on a Quay, or of the range. -/
def State.pickFrom (s : State) (p lo n : Nat) (quay : Option Nat) : Option Nat :=
  let l := ((List.range n).map (lo + ·)).filter (s.unitFree p)
  match l.find? fun u => quay == some (unitQuay u) with
  | some u => some u
  | none => l.head?

/-- The Pump of a command that names one (0xFF: any) and whose first target is a core. -/
def State.pickPump (s : State) (p named core : Nat) : Option Nat :=
  let any := s.pickFrom p 0 192 (some (core / 512))
  if 192 ≤ named then any
  else if !s.isRetired 10 named then (if s.unitFree p named then some named else none)
  else
    match ((List.range 16).map (named / 16 * 16 + ·)).find? (s.unitIn p) with
    | some u => if s.unitFree p u then some u else none
    | none => any

def State.pickLighter (s : State) (p : Nat) (quay : Option Nat) : Option Nat := s.pickFrom p 192 32 quay

/-- The unit number of records: the logical Pump or Lighter, 0xFFFF before one is chosen. -/
def unitNumber (u : Nat) : Nat := if u < 192 then u else if u < 224 then u - 192 else 0xFFFF

/-! ### Jobs -/

def Job.new (unit : Nat) (desc : List Byte) : Job :=
  { unit := unit, desc := desc, pos := 0, outp := 0, zeroed := 0, dropped := [], code := 0, level := 7, write := false, va := 0
    pa := 0, ended := false, result := 0, out := [], buf := [], last := none, was := 0xFFFF, members := [] }

def State.updJob (s : State) (id : Nat) (f : Job → Job) : State := s.updCmd id fun c => { c with job := c.job.map f }

/-- The command starts on a unit. -/
def State.jobStart (s : State) (c : Cmd) (unit : Nat) (desc : List Byte) : State :=
  let s := s.updCmd c.id fun d => { d with started := true, job := some (Job.new unit desc) }
  if unit < 224 then (s.set (F.PU_UNIT_STAT_STATE unit) 1).set (F.PU_UNIT_STAT_PART unit) (s.qPart c.queue) else s

/-- AGENT of a fault (R63): 1 a Pump, 2 a Lighter. -/
def Cmd.engAgent (c : Cmd) : Nat := if c.engSource = 3 then 1 else 2

/-- The source or list offset that a Pump or Lighter command has reached (R346). -/
def Cmd.reached (c : Cmd) : Nat :=
  match c.job with
  | some j => if c.op = 0x08 then 8 * j.pos else j.pos
  | none => 0

/-- The command stops at once: a translation or host-window fault is recorded, and ends the command. -/
def State.jobStop (s : State) (c : Cmd) (x : Stop) : State :=
  let unit := c.job.elim 0xFFFF (·.unit)
  let s := s.updJob c.id fun j => { j with ended := true, code := x.code, level := x.level, write := x.write, va := x.va, pa := x.pa }
  if 0x15 < x.code then s
  else
    let s := s.fault 3 { code := x.code, level := x.level, write := x.write, agent := c.engAgent, unit := unitNumber unit
                         ctx := s.qCtx c.queue, part := s.qPart c.queue, va := x.va, pa := x.pa } [c.queue, x.code, c.reached]
    s.endCmd c.id x.code c.engSource 0

/-- A start check fails: nothing is written. -/
def State.startFail (s : State) (c : Cmd) (x : Stop) : State :=
  let s := s.jobStart c 0xFFFF []
  match s.cmd c.id with
  | some c => s.jobStop c x
  | none => s

/-- The command moves: it has a job that is not over, and its context runs, or is being pre-empted and the job has its
next boundary to reach (R347). -/
def State.activeJob (s : State) (c : Cmd) : Option Job :=
  let ctx := s.qCtx c.queue
  c.job.filter fun j => !j.ended && decide (j.unit < 224) &&
    (s.ctxState ctx == 2 || (s.ctxState ctx == 3 && !(s.ctx ctx).drained && c.midChunk j.pos))

/-- A read of a Pump's or Lighter's command. -/
def State.engRead (s : State) (c : Cmd) (narrow : Bool) (va k : Nat) : State × FeR :=
  s.getPieces (cmdReader c.id) (if narrow then 2 else if c.engSource = 3 then 3 else 4) narrow (s.qCtx c.queue) (s.qPart c.queue) (pieces va k)

/-- The stop of a read: poison is status 0x49. -/
def FeR.engStops : FeR → List Stop
  | .ok _ => []
  | .fault x => [x]
  | .poison => [{ code := 0x49 }]

/-! ### Start checks of targets, R327 -/

/-- A target core that is in service and runs a core block of the context. -/
def State.targetOk (s : State) (ctx core : Nat) : Bool :=
  s.clThere (core / 8) && (s.core core).blk.any fun b => b.ctx == ctx

/-- Codes 0x42 and 0x43 for targets that take n bytes at `off`, and a signal word. -/
def State.targetStops (s : State) (ctx : Nat) (l : List Nat) (off n : Nat) (sig : Option Nat) : List Stop :=
  stopIf (l.any (fun t => !s.targetOk ctx t) || l.eraseDups.length != l.length) 0x42 ++
  stopIf (l.any fun t =>
    let P := (s.core t).P
    decide (P < off + n) || sig.any fun o => decide (P < o + 8 ∨ (o < off + n ∧ off < o + 8))) 0x43

/-- PUMP is a number of the share, or 0xFF; `retired` Pumps of the share count as its own. -/
def State.pumpOk (s : State) (p named : Nat) : Bool :=
  named == 0xFF || (decide (named < 192) && bit (s.get (F.PT_PART_PU_PUMPS p (named / 64))) (named % 64))

/-! ### Descriptors, R326, R337 -/

def dW (d : List Byte) (off : Nat) : Nat := bytesAt d off 8

/-- Fields that a stream's and a gather's descriptor share: scratchpad offset, output bytes, signal, targets, Pump. -/
structure PumpDesc where
  doff : Nat
  total : Nat
  sigen : Bool
  sigoff : Nat
  sigval : Nat
  targets : List Nat
  pump : Nat
  deriving DecidableEq, Repr

def streamDesc (d : List Byte) : PumpDesc :=
  { doff := bits (dW d 16) 19 0, total := bits (dW d 16) 39 20, sigen := bit (dW d 8) 25, sigoff := bits (dW d 16) 59 40
    sigval := dW d 24, targets := (List.range (min 64 (bits (dW d 8) 46 40))).map fun i => bits (bytesAt d (64 + 2 * i) 2) 9 0
    pump := bits (dW d 8) 39 32 }

def gatherPages (d : List Byte) : Nat := bits (dW d 8) 12 0
def gatherSpan (d : List Byte) : Nat := bits (dW d 8) 63 32
def gatherDesc (d : List Byte) : PumpDesc :=
  { doff := bits (dW d 16) 19 0, total := gatherPages d * gatherSpan d, sigen := bit (dW d 16) 40, sigoff := bits (dW d 16) 39 20
    sigval := dW d 24, targets := [bits (dW d 16) 57 48], pump := bits (dW d 32) 7 0 }

/-- The descriptor of a command with a job. -/
def Cmd.desc (c : Cmd) (d : List Byte) : PumpDesc := if c.op = 0x07 then streamDesc d else gatherDesc d

def streamSrcLen (d : List Byte) : Nat := bits (dW d 8) 23 0
def streamFormat (d : List Byte) : Nat := bits (dW d 8) 24 24

def streamResv (d : List Byte) : Bool :=
  let n := min 64 (bits (dW d 8) 46 40)
  bits (dW d 8) 31 26 != 0 || bits (dW d 8) 63 47 != 0 || bits (dW d 16) 63 60 != 0 || !allZero (slice d 40 24) ||
  !allZero (d.drop (64 + 2 * n)) || (!bit (dW d 8) 25 && bits (dW d 16) 59 40 != 0) ||
  (List.range n).any fun i => bits (bytesAt d (64 + 2 * i) 2) 15 10 != 0

def streamRange (d : List Byte) : Bool :=
  let out := bits (dW d 16) 39 20
  let n := bits (dW d 8) 46 40
  dW d 0 % 32 != 0 || streamSrcLen d == 0 || !decide (1 ≤ n ∧ n ≤ 64) || out % 32 != 0 || !decide (32 ≤ out ∧ out ≤ 720896) ||
  (streamFormat d == 0 && streamSrcLen d != out) || bits (dW d 16) 19 0 % 32 != 0 || bits (dW d 16) 59 40 % 8 != 0

def gatherResv (d : List Byte) : Bool :=
  bits (dW d 8) 31 13 != 0 || bits (dW d 16) 47 41 != 0 || bits (dW d 16) 63 58 != 0 || bits (dW d 32) 63 8 != 0 ||
  bits (dW d 40) 63 13 != 0 || !allZero (slice d 48 16) || (!bit (dW d 16) 40 && bits (dW d 16) 39 20 != 0)

def gatherRange (d : List Byte) : Bool :=
  let n := gatherPages d
  let k := gatherSpan d
  dW d 0 % 8 != 0 || !decide (1 ≤ n ∧ n ≤ 4096) || k % 32 != 0 || !decide (32 ≤ k ∧ k ≤ 65536) || decide (720896 < n * k) ||
  bits (dW d 16) 19 0 % 32 != 0 || bits (dW d 16) 39 20 % 8 != 0

/-- Every start condition that a descriptor meets. -/
def State.descStops (s : State) (c : Cmd) (d : List Byte) (resv range : Bool) : List Stop :=
  let x := c.desc d
  stopIf resv 0x40 ++ stopIf (range || !s.pumpOk (s.qPart c.queue) x.pump) 0x41 ++
  s.targetStops (s.qCtx c.queue) x.targets x.doff x.total (if x.sigen then some x.sigoff else none)

/-- What a read gives is used, or stops the command. -/
def State.onRead (c : Cmd) (f : State → List Byte → State) : State × FeR → State
  | (s, .ok l) => f s l
  | (s, .fault x) => s.jobStop c x
  | (s, .poison) => s.jobStop c { code := 0x49 }

/-- A Pump's source bytes read piece by piece, each counted when it has come (R351). -/
def State.srcPieces (s : State) (c : Cmd) (narrow : Bool) : List (Nat × Nat) → State × FeR
  | [] => (s, .ok [])
  | (a, k) :: r =>
    match s.getPiece (cmdReader c.id) (if narrow then 2 else 3) narrow (s.qCtx c.queue) (s.qPart c.queue) a k with
    | (s, .fault x) => (s, .fault x)
    | (s, .poison) => (s.count (F.PU_SRCBYTES_COUNT (s.qPart c.queue)) k, .poison)
    | (s, .ok l) =>
      match (s.count (F.PU_SRCBYTES_COUNT (s.qPart c.queue)) k).srcPieces c narrow r with
      | (s, .ok m) => (s, .ok (l ++ m))
      | z => z

/-- Source bytes read, and what is done with them. -/
def State.withSource (s : State) (c : Cmd) (narrow : Bool) (va k : Nat) (f : State → List Byte → State) : State :=
  State.onRead c f (s.srcPieces c narrow (pieces va k))

/-- A Pump command: the descriptor is read whole and checked, and a Pump is chosen; without one the command waits. -/
def State.pumpStart (s : State) (c : Cmd) (size : Nat) (resv range : List Byte → Bool) : State :=
  let va := c.word 16
  if va % 64 ≠ 0 then s.startFail c { code := 0x41 }
  else
    match s.engRead c false va size with
    | (s, .ok d) =>
      match leastStop (s.descStops c d (resv d) (range d)) with
      | some x => s.startFail c x
      | none =>
        let x := c.desc d
        match s.pickPump (s.qPart c.queue) x.pump (x.targets.headD 0) with
        | some u => s.jobStart c u d
        | none => s
    | (s, .fault x) => s.startFail c x
    | (s, .poison) => s.startFail c { code := 0x49 }

def execPumpStream (cmd : Nat) (s : State) : Out :=
  .next <| s.starting cmd (fun c => c.op == 0x07) fun c s => s.pumpStart c 192 streamResv streamRange

def execPumpGather (cmd : Nat) (s : State) : Out :=
  .next <| s.starting cmd (fun c => c.op == 0x08) fun c s => s.pumpStart c 64 gatherResv gatherRange

/-! ### Streams, R328 to R336 -/

/-- A target still belongs to the context: it runs its block, or keeps what its last block left. -/
def State.reachable (s : State) (ctx core : Nat) : Bool :=
  s.clThere (core / 8) &&
  match (s.core core).blk with
  | some b => b.ctx == ctx
  | none => (s.core core).last.any fun l => l.1 == ctx

/-- The targets that are still in the stream. -/
def Job.liveTargets (j : Job) (x : PumpDesc) : List Nat :=
  ((x.targets.mapIdx fun i t => (i, t)).filter fun e => !j.dropped.contains e.1).map (·.2)

/-- Bytes copied to every target at a scratchpad offset. -/
def State.multicast (s : State) (ctx : Nat) (l : List Nat) (off : Nat) (b : List Byte) : State :=
  s.each (l.filter (s.reachable ctx)) fun s t => s.setCore t ((s.core t).wellPut off b)

/-- Output of a stream: k source bytes have become these output bytes. -/
def State.streamOut (s : State) (c : Cmd) (j : Job) (k : Nat) (b : List Byte) : State :=
  let x := c.desc j.desc
  let s := s.multicast (s.qCtx c.queue) (j.liveTargets x) (x.doff + j.outp) b
  let s := s.count (F.PU_OUTBYTES_COUNT (s.qPart c.queue)) b.length
  s.updJob c.id fun j => { j with pos := j.pos + k, outp := j.outp + b.length }

/-- After its last block the stream is over, with 0x47 where its output is short. A target whose cluster is out of service
holds the end until it is dropped (R329). -/
def State.streamEnd (s : State) (c : Cmd) : State :=
  match s.cmd c.id with
  | none => s
  | some c =>
    match c.job with
    | none => s
    | some j =>
      let x := c.desc j.desc
      if j.pos < streamSrcLen j.desc ∨ !(j.liveTargets x).all (fun t => s.clThere (t / 8)) then s
      else if j.outp ≠ x.total then s.jobStop c { code := 0x47 }
      else s.updJob c.id fun j => { j with ended := true }

/-- One raw piece of at most 4 KiB. -/
def State.rawPiece (s : State) (c : Cmd) (j : Job) : State :=
  let k := min 4096 (streamSrcLen j.desc - j.pos)
  s.withSource c false (dW j.desc 0 + j.pos) k fun s l => (s.streamOut c j k l).streamEnd c

/-- One block, decoded whole and checked before any byte of it is written. -/
def State.blockPiece (s : State) (c : Cmd) (j : Job) : State :=
  let va := dW j.desc 0 + j.pos
  let left := streamSrcLen j.desc - j.pos
  if left < 16 then s.jobStop c { code := 0x47 }
  else
    s.withSource c false va 16 fun s h =>
      let b := blockHdr h
      if !b.ok then s.jobStop c { code := 0x44 }
      else if left < b.enclen then s.jobStop c { code := 0x47 }
      else
        s.withSource c false (va + 16) (b.enclen - 16) fun s l =>
          match blockCheck b (h ++ l) ((c.desc j.desc).total - j.outp) with
          | (0, out) => (s.streamOut c j b.enclen out).streamEnd c
          | (code, _) => s.jobStop c { code := code }

/-- The next block, or the next piece of a raw stream; its end where nothing is left. -/
def State.streamStep (s : State) (c : Cmd) (j : Job) : State :=
  if streamSrcLen j.desc ≤ j.pos then s.streamEnd c
  else if streamFormat j.desc = 0 then s.rawPiece c j
  else s.blockPiece c j

def execPumpBlockDecode (cmd : Nat) (s : State) : Out :=
  .next <| match s.cmd cmd with
    | some c =>
      match s.activeJob c with
      | some j => if c.op = 0x07 then s.unlessStalled (s.streamStep c j) else s
      | none => s
    | none => s

/-- The fabric's answers to a command, and its accesses without one. -/
def State.fabAnswers (s : State) (id : Nat) : List FabDone := s.fab.done.filter fun d => d.cmd == id
def State.fabOut (s : State) (id : Nat) : Bool :=
  (s.fab.conns.any fun c => (c.out ++ c.queue).any fun w => w.org.agent == 2 && w.org.cmd == id) ||
  s.fab.reads.any fun r => r.org.agent == 2 && r.org.cmd == id

/-- The job of a command that still has bytes or signal words to deliver, its context running or being switched out. -/
def State.delivering (s : State) (c : Cmd) : Option Job :=
  let ctx := s.qCtx c.queue
  c.job.filter fun j => j.last.isNone && j.code == 0 && decide (j.unit < 224) &&
    (s.ctxState ctx == 2 || (s.ctxState ctx == 3 && !(s.ctx ctx).drained))

/-- A target entry is dropped, its cluster being out of service. -/
def execPumpTargetDrop (cmd entry : Nat) (s : State) : Out :=
  .next <| match s.cmd cmd with
    | some c =>
      match s.delivering c with
      | some j =>
        match (streamDesc j.desc).targets[entry]? with
        | some t =>
          if c.op = 0x07 ∧ s.clThere (t / 8) = false then
            (s.updJob c.id fun j => { j with dropped := setIns j.dropped entry }).streamEnd c
          else s
        | none => s
      | none => s
    | none => s

/-! ### Gathers, R338, R339 -/

/-- The span of entry n is in the target. -/
def State.gatherOut (s : State) (c : Cmd) (j : Job) (b : List Byte) (zero : Bool) : State :=
  let x := c.desc j.desc
  let s := s.multicast (s.qCtx c.queue) x.targets (x.doff + j.outp) b
  let s := s.count (F.PU_OUTBYTES_COUNT (s.qPart c.queue)) b.length
  s.updJob c.id fun j =>
    { j with pos := j.pos + 1, outp := j.outp + b.length, zeroed := j.zeroed + b2n zero, ended := decide (gatherPages j.desc ≤ j.pos + 1) }

/-- One page-list entry: checked, and its span copied or zeroed. DESIGN CHOICE: the entry itself is read by ordinary line reads
(R339 makes only the span's reads narrow). -/
def State.gatherEntry (s : State) (c : Cmd) (j : Job) : State :=
  let span := gatherSpan j.desc
  State.onRead c (fun s l =>
    let e := ofBytes l
    if bits e 4 1 ≠ 0 then s.jobStop c { code := 0x40 }
    else if !bit e 0 then s.gatherOut c j (List.replicate span 0) true
    else s.withSource c true (e / 32 * 32) span fun s b => s.gatherOut c j b false)
    (s.engRead c false (dW j.desc 0 + 8 * j.pos) 8)

def execGatherListEntry (cmd : Nat) (s : State) : Out :=
  .next <| match s.cmd cmd with
    | some c =>
      match s.activeJob c with
      | some j => if c.op = 0x08 then s.unlessStalled (s.gatherEntry c j) else s
      | none => s
    | none => s

/-- A read of the command has had no response; a fabric access never ends so (R436). -/
def execAccessTimeout (cmd : Nat) (s : State) : Out :=
  .next <| match s.cmd cmd with
    | some c => match s.activeJob c with
      | some _ => if c.op = 0x15 ∨ (c.op = 0x14 ∧ s.fabOut c.id = true) then s else s.jobStop c { code := 0x4A }
      | none => s
    | none => s

/-! ### Lighter commands: operands and start checks, R340 -/

def Cmd.core (c : Cmd) : Nat := bits (c.word 40) 9 0
def Cmd.src (c : Cmd) : Nat := c.word 16
def Cmd.pw (c : Cmd) : Nat := bits (c.word 40) 27 24
def Cmd.sig (c : Cmd) : Nat := if c.op = 0x14 then c.word 40 else 0
def Cmd.hasSrc (c : Cmd) : Bool := c.op != 0x06

/-- The first address of a range in each 4 KiB page that it touches. -/
def pagesOf (va n : Nat) : List Nat :=
  (List.range ((va % 4096 + n + 4095) / 4096)).map fun i => if i = 0 then va else va / 4096 * 4096 + 4096 * i

/-- A range translated whole: what stops it, and the addresses it reaches page by page. -/
def State.scanRange (s : State) (ctx va n : Nat) (write : Bool) : List (Stop ⊕ Nat) :=
  (pagesOf va n).map fun a =>
    match s.walk ctx a (if write then .write else .read) with
    | .fault c l pa => .inl { code := c, level := l, write := write, va := a, pa := pa }
    | .miss => .inl { code := 0x01, write := write, va := a }
    | .ok _ pa => .inr pa

def scanStops (l : List (Stop ⊕ Nat)) : List Stop := l.filterMap fun x => match x with | .inl x => some x | .inr _ => none
def scanAddrs (l : List (Stop ⊕ Nat)) : List Nat := l.filterMap fun x => match x with | .inl _ => none | .inr a => some a

/-- Where the ranges must lie: COPY and FILL never on the fabric, a PUT from local to fabric, a GET the other way. -/
def sidesOk (c : Cmd) (src dst sig : List Nat) : Bool :=
  let far := fun (a : Nat) => region a == .fabric
  if c.op = 0x14 then
    src.all (fun a => !far a) && dst.all far && sig.all far && sig.all fun g => dst.all fun a => bits a 55 40 == bits g 55 40
  else if c.op = 0x15 then src.all far && dst.all fun a => !far a
  else src.all (fun a => !far a) && dst.all fun a => !far a

/-- The start conditions that a Lighter command meets, and the addresses of its destination. -/
def State.lightChecks (s : State) (c : Cmd) : List Stop × List Nat :=
  let ctx := s.qCtx c.queue
  let n := c.len
  let lenBad := n == 0 || decide (2 ^ 40 ≤ n)
  let pwBad := c.op == 0x06 && !([1, 2, 4, 8].contains c.pw)
  let sigBad := c.sig % 8 != 0
  let first := stopIf (lenBad || pwBad || sigBad) 0x41
  if lenBad then (first, [])
  else
    let src := if c.hasSrc then s.scanRange ctx c.src n false else []
    let dst := if c.tosp then [] else s.scanRange ctx c.dst n true
    let sig := if c.sig = 0 then [] else s.scanRange ctx c.sig 8 true
    let tgt := if c.tosp then s.targetStops ctx [c.core] c.dst n none else []
    let overlap := c.op == 0x05 && !c.tosp && decide (c.src < c.dst + n ∧ c.dst < c.src + n)
    (first ++ scanStops src ++ scanStops dst ++ scanStops sig ++ tgt ++ stopIf overlap 0x4B ++
      stopIf (!sidesOk c (scanAddrs src) (scanAddrs dst) (scanAddrs sig)) 0x4C, scanAddrs dst)

/-- The Quay that a destination names. -/
def State.destQuay (s : State) (c : Cmd) (dst : List Nat) : Option Nat :=
  if c.tosp then some (c.core / 512)
  else
    match dst.head? with
    | some a => if region a = .localMem then some (s.homeSlice (lineOf a) / 128) else none
    | none => none

/-- A Lighter command starts: its checks, then its unit; without one it waits. -/
def State.lightStart (s : State) (c : Cmd) : State :=
  let r := s.lightChecks c
  match leastStop r.1 with
  | some x => s.startFail c x
  | none =>
    match s.pickLighter (s.qPart c.queue) (s.destQuay c r.2) with
    | some u => s.jobStart c u []
    | none => s

/-! ### Setup space -/

/-- A piece written to setup space: in BAR0 4 or 8 naturally aligned bytes, another width being ignored (R37); in BAR2 a
doorbell, or a write that is discarded and counted (R38). -/
def State.setupPut (s : State) (pa : Nat) (l : List Byte) : State :=
  if region pa = .setup2 ∨ ((l.length = 4 ∨ l.length = 8) ∧ pa % l.length = 0) then s.setupWrite pa l.length (ofBytes l) else s

/-- The writer that a command's unit is to the homes: a command's own number, whichever unit runs it (R259). -/
def cmdWriter (id : Nat) : Nat := 256 + id

/-- One piece that a command's Pump writes. -/
def State.putPiece (s : State) (c : Cmd) (unit va : Nat) (l : List Byte) : State × Option Stop :=
  match s.locate (s.qCtx c.queue) (s.qPart c.queue) va true with
  | .fault x => (s, some x)
  | .mem pa => (s.pokeAs 1 (cmdWriter c.id) pa l, none)
  | .host pa => (s.hostPost (agentQuay 1 unit) pa l, none)
  | .setup pa => (s.setupPut pa l, none)
  | .fabric _ => (s, some { code := 0x4C })

/-! ### Moving bytes, R341, R343 -/

/-- The piece of a position: it begins where the destination reaches a line, and ends with the line or the transfer. -/
def Cmd.pieceAt (c : Cmd) (pos : Nat) : Nat := pos - min pos ((c.dst + pos) % 128)
def Cmd.pieceEnd (c : Cmd) (pos : Nat) : Nat := min c.len (pos + (128 - (c.dst + pos) % 128))

/-- The bytes from a position on that one read gives: within the piece, and within a line of the source. -/
def Cmd.partLen (c : Cmd) (pos : Nat) : Nat := min (c.pieceEnd pos - pos) (128 - (c.src + pos) % 128)

/-- Source bytes that have come. -/
def Job.keep (j : Job) (pos : Nat) (l : List Byte) : Job := { j with buf := j.buf ++ l.mapIdx fun i b => (pos + i, b) }

/-- The bytes of a piece once all of them have come. -/
def Job.whole (j : Job) (lo hi : Nat) : Option (List Byte) :=
  ((List.range (hi - lo)).map (lo + ·)).mapM fun i => (j.buf.find? fun e => e.1 == i).map (·.2)

/-- A write has gone to these members of a group. -/
def Job.sentGroup (j : Job) (l : List Nat) : Job := if j.members.contains l then j else { j with members := j.members ++ [l] }

/-- A remote write of bytes at a fabric address: the smallest naturally aligned block that holds them. -/
def State.putBlock (s : State) (c : Cmd) (unit fa : Nat) (l : List Byte) (sig : Bool) : State :=
  let lo := fa % 128
  let z := blockOf lo (lo + l.length - 1)
  let n := blockSize z
  let at' := lo % n
  let mask := if l.length = n then none else some ((2 ^ l.length - 1) * 2 ^ at')
  let org : Origin := ⟨2, unitNumber unit, s.qPart c.queue, s.qCtx c.queue, s.cgenOf (s.qCtx c.queue), c.id, none, 0⟩
  let s := if bits fa 55 40 = s.chip ∧ winTop ≤ bits fa 39 0 then
    s.updJob c.id fun j => j.sentGroup (s.groupMembers ((bits fa 39 0 - winTop) / 2 ^ 30)) else s
  s.fabWrite org (fa / n * n) z mask (List.replicate at' 0 ++ l ++ List.replicate (n - at' - l.length) 0) sig

/-- A piece is written at the destination: what stops it, or nothing. -/
def State.lightPut (s : State) (c : Cmd) (j : Job) (pos : Nat) (l : List Byte) : State × Option Stop :=
  if c.tosp then
    (if s.reachable (s.qCtx c.queue) c.core then s.setCore c.core ((s.core c.core).wellPut (c.dst + pos) l) else s, none)
  else
    match s.locate (s.qCtx c.queue) (s.qPart c.queue) (c.dst + pos) true with
    | .fault x => (s, some x)
    | .mem pa => if c.op = 0x14 then (s, some { code := 0x4C }) else (s.pokeAs 2 (cmdWriter c.id) pa l, none)
    | .host pa => if c.op = 0x14 then (s, some { code := 0x4C }) else (s.hostPost (unitQuay j.unit) pa l, none)
    | .setup pa => if c.op = 0x14 then (s, some { code := 0x4C }) else (s.setupPut pa l, none)
    | .fabric pa => if c.op = 0x14 then (s.putBlock c j.unit pa l false, none) else (s, some { code := 0x4C })

/-- The piece at a command's position has its bytes: it is written whole, and the position moves. -/
def State.lightWrite (s : State) (c : Cmd) (j : Job) (l : List Byte) : State × Bool :=
  match s.lightPut c j j.pos l with
  | (s, some x) => (s.jobStop c x, false)
  | (s, none) =>
    let s := s.count (F.PU_LBYTES_COUNT (s.qPart c.queue)) l.length
    let last := decide (c.len ≤ j.pos + l.length)
    (s.updJob c.id fun j => { j with pos := j.pos + l.length, buf := [], ended := last && c.op != 0x14 }, !last)

/-- A read of the host is sent for the bytes of a position, once, when a tag is free. -/
def State.askHost (s : State) (c : Cmd) (j : Job) (at' va pa k : Nat) : State :=
  if (s.host.reads.any fun r => r.agent == 2 && r.group == c.id) || !s.readRoom then s
  else
    let id := s.host.nextId
    let r : HRead := ⟨id, 2, unitNumber j.unit, s.qPart c.queue, s.qCtx c.queue, va, pa, k, c.id, at', [], 0⟩
    ({ s with host := { s.host with reads := s.host.reads ++ [r], nextId := id + 1 } }).hostAsk (unitQuay j.unit) pa k

/-- The next bytes of the source are read, at most one line of it: true when more may follow at once. -/
def State.lightRead (s : State) (c : Cmd) (j : Job) (pos : Nat) : State × Bool :=
  let k := c.partLen pos
  let va := c.src + pos
  let came := fun (s : State) (l : List Byte) => (s.updJob c.id fun j => j.keep pos l, true)
  match s.locate (s.qCtx c.queue) (s.qPart c.queue) va false with
  | .fault x => (s.jobStop c x, false)
  | .mem pa =>
    let r := s.readAs (cmdReader c.id) 4 false pa k
    if r.2.2 then (r.1.jobStop c { code := 0x49 }, false) else came r.1 r.2.1
  | .host pa => (s.askHost c j pos va pa k, false)
  | .setup pa =>
    let r := s.setupRead pa k
    came r.1 r.2
  | .fabric _ => (s.jobStop c { code := 0x4C }, false)

/-- The piece at a command's position: its next bytes are read, or it is written; true when more may follow at once. -/
def State.lightStep (s : State) (c : Cmd) (j : Job) : State × Bool :=
  let hi := c.pieceEnd j.pos
  if !c.hasSrc then
    s.lightWrite c j ((List.range (hi - j.pos)).map fun i => BitVec.ofNat 8 (c.word 16 / 2 ^ (8 * ((j.pos + i) % c.pw))))
  else
    match j.whole j.pos hi with
    | some l => s.lightWrite c j l
    | none => s.lightRead c j (j.pos + j.buf.length)

/-- Pieces up to a position, at most n steps. A step that a home cannot serve now is taken again later. -/
def State.lightGo (id stop : Nat) : Nat → State → State
  | 0, s => s
  | n + 1, s =>
    match s.cmd id with
    | none => s
    | some c =>
      match s.activeJob c with
      | none => s
      | some j =>
        if stop ≤ j.pos then s
        else
          let z := s.lightStep c j
          if z.1.coh.stalled then s.unlessStalled z.1 else if z.2 then State.lightGo id stop n z.1 else z.1

/-- COPY and FILL: the command starts, or moves on to its next 4 KiB boundary. -/
def State.lightRow (s : State) (cmd op : Nat) : State :=
  match s.cmd cmd with
  | none => s
  | some c =>
    if c.op ≠ op then s
    else
      match s.activeJob c with
      | some j => State.lightGo c.id (c.boundary j.pos) 4096 s
      | none => if s.mayStart c && c.job.isNone then s.lightStart c else s

def execCopy (cmd : Nat) (s : State) : Out := .next <| s.lightRow cmd 0x05
def execFill (cmd : Nat) (s : State) : Out := .next <| s.lightRow cmd 0x06

/-! ### FABRIC_PUT, R341, R444, R447 -/

/-- The status of a final error, and what RESULT says of it. -/
def fabStatus (code : Nat) : Nat := if code = 5 then 0x49 else 0x4D
def fabResult (d : FabDone) : Nat := d.code + d.chip * 2 ^ 16

/-- The command's destination is a multicast group. -/
def State.toGroup (s : State) (c : Cmd) : Option Nat :=
  match s.locate (s.qCtx c.queue) (s.qPart c.queue) c.dst true with
  | .fabric pa => if bits pa 55 40 = s.chip ∧ winTop ≤ bits pa 39 0 then some ((bits pa 39 0 - winTop) / 2 ^ 30) else none
  | _ => none

/-- An error that ends the command: of a unicast, or of the group as a whole. -/
def State.fabBad (s : State) (id : Nat) : Option FabDone := (s.fabAnswers id).find? fun d => d.code != 0 && d.member.isNone

/-- The command stops on a fabric error. -/
def State.fabStop (s : State) (c : Cmd) (d : FabDone) : State :=
  (s.updJob c.id fun j => { j with result := if (s.toGroup c).isSome then 0 else fabResult d }).jobStop c { code := fabStatus d.code }

/-- The data is sent: the signal follows, and only acknowledgements are left. -/
def State.putEnd (s : State) (c : Cmd) (j : Job) : State :=
  let fin := fun (s : State) => s.updJob c.id fun j => { j with ended := true }
  if c.sig = 0 then fin s
  else
    match s.locate (s.qCtx c.queue) (s.qPart c.queue) c.sig true with
    | .fault x => s.jobStop c x
    | .fabric pa => fin (s.putBlock c j.unit pa (toBytes 8 (c.word 48)) true)
    | _ => s.jobStop c { code := 0x4C }

/-- The pieces up to the next boundary are sent; after the last one the signal. -/
def State.putGo (s : State) (c : Cmd) (j : Job) : State :=
  match s.fabBad c.id with
  | some d => s.fabStop c d
  | none =>
    let s := State.lightGo c.id (c.boundary j.pos) 4096 s
    match (s.cmd c.id).bind (·.job) with
    | some j => if c.len ≤ j.pos ∧ j.ended = false then s.putEnd c j else s
    | none => s

def execFabricPut (cmd : Nat) (s : State) : Out :=
  .next <| match s.cmd cmd with
    | none => s
    | some c =>
      if c.op ≠ 0x14 then s
      else
        match s.activeJob c with
        | some j => s.putGo c j
        | none => if s.mayStart c then s.lightStart c else s

/-! ### FABRIC_GET, R340, R437 -/

/-- A piece of a FABRIC_GET is written once all its bytes have come. -/
def State.getWrite (s : State) (c : Cmd) (pos : Nat) : State :=
  match (s.cmd c.id).bind (·.job) with
  | none => s
  | some j =>
    let lo := c.pieceAt pos
    let hi := c.pieceEnd pos
    match j.whole lo hi with
    | none => s
    | some l =>
      match s.lightPut c j lo l with
      | (s, some x) => s.jobStop c x
      | (s, none) =>
        (s.count (F.PU_LBYTES_COUNT (s.qPart c.queue)) l.length).updJob c.id fun j =>
          let buf := j.buf.filter fun e => !decide (lo ≤ e.1 ∧ e.1 < hi)
          { j with buf := buf, ended := j.out == [] && buf == [] && decide (c.len ≤ j.pos) }

/-- The block of an answer is taken for the bytes that asked for it. -/
def State.getTake (s : State) (c : Cmd) (d : FabDone) : State :=
  let fa := 2 ^ 56 + d.chip * 2 ^ 40 + d.off
  match (s.cmd c.id).bind (·.job) with
  | none => s
  | some j =>
    if j.ended then s
    else
      match j.out.find? fun e => e.2.2 == fa with
      | none => s
      | some e =>
        match s.locate (s.qCtx c.queue) (s.qPart c.queue) (c.src + e.1) false with
        | .fabric pa =>
          let l := (d.data.drop (pa % 2 ^ 40 - d.off)).take e.2.1
          (s.updJob c.id fun j => { j.keep e.1 l with out := j.out.erase e }).getWrite c e.1
        | .fault x => s.jobStop c x
        | _ => s.jobStop c { code := 0x4C }

/-- The answers so far are taken, or the first error stops the command. -/
def State.getCollect (s : State) (c : Cmd) : State :=
  match s.fabBad c.id with
  | some d => s.fabStop c d
  | none =>
    let l := s.fabAnswers c.id
    let s : State := { s with fab := { s.fab with done := s.fab.done.filter fun d => d.cmd != c.id } }
    s.each l fun s d => s.getTake c d

/-- A remote read is sent for the bytes at the command's position. -/
def State.getAsk (s : State) (c : Cmd) (j : Job) : State :=
  let k := c.partLen j.pos
  match s.locate (s.qCtx c.queue) (s.qPart c.queue) (c.src + j.pos) false with
  | .fault x => s.jobStop c x
  | .fabric pa =>
    let z := blockOf (pa % 128) (pa % 128 + k - 1)
    let fa := pa / blockSize z * blockSize z
    let org : Origin := ⟨2, unitNumber j.unit, s.qPart c.queue, s.qCtx c.queue, s.cgenOf (s.qCtx c.queue), c.id, none, 0⟩
    (s.updJob c.id fun j => { j with pos := j.pos + k, out := j.out ++ [(j.pos, k, fa)] }).fabRead org 0 0 fa z
  | _ => s.jobStop c { code := 0x4C }

/-- Reads for the pieces up to a position, at most n. -/
def State.getGo (id stop : Nat) : Nat → State → State
  | 0, s => s
  | n + 1, s =>
    match s.cmd id with
    | none => s
    | some c =>
      match s.activeJob c with
      | none => s
      | some j => if stop ≤ j.pos then s else State.getGo id stop n (s.getAsk c j)

/-- FABRIC_GET: the command starts, or takes its answers and asks for the pieces up to its next boundary. -/
def execFabricGet (cmd : Nat) (s : State) : Out :=
  .next <| match s.cmd cmd with
    | none => s
    | some c =>
      if c.op ≠ 0x15 then s
      else
        match s.activeJob c with
        | some j => State.getGo c.id (c.boundary j.pos) 4096 (s.getCollect c)
        | none => if s.mayStart c then s.lightStart c else s

/-! ### Restart, R349 -/

/-- The unit that runs the rest of a command, chosen as at its start (R325). -/
def State.nextUnit (s : State) (c : Cmd) (j : Job) : Option Nat :=
  if c.engSource = 3 then s.pickPump (s.qPart c.queue) (c.desc j.desc).pump ((c.desc j.desc).targets.headD 0)
  else s.pickLighter (s.qPart c.queue) (s.destQuay c (scanAddrs (s.scanRange (s.qCtx c.queue) c.dst 1 true)))

/-- The position that the rest of a command starts from: its last boundary. -/
def Cmd.restartAt (c : Cmd) (j : Job) : Nat :=
  if c.engSource = 3 then j.pos
  else c.chunk ((j.out.map (·.1) ++ j.buf.map fun e => e.1).foldl min j.pos)

/-- A command without a unit takes the next free one, with the service event of the restart where its unit left service. -/
def State.reunit (s : State) (c : Cmd) (j : Job) : State :=
  let p := s.qPart c.queue
  match s.nextUnit c j with
  | some u =>
    let s := ((s.set (F.PU_UNIT_STAT_STATE u) 1).set (F.PU_UNIT_STAT_PART u) p).updJob c.id fun j => { j with unit := u }
    if 224 ≤ j.was then s
    else s.event 5 (if j.was < 192 then 6 else 7) 0x100 (some p) (unitNumber u) (s.qCtx c.queue)
      [c.queue, unitNumber j.was, unitNumber u, j.pos]
  | none => s

/-- A unit leaves service during a command: the rest, from the last boundary, runs on another. -/
def State.restart (s : State) (c : Cmd) (j : Job) : State :=
  let s := s.retire (if j.unit < 192 then 10 else 11) (unitNumber j.unit) 0 0
  let s := s.set (F.PU_UNIT_STAT_STATE j.unit) 2
  let j := { j with unit := 0xFFFF, was := j.unit, pos := c.restartAt j, out := [], buf := [] }
  (s.updJob c.id fun _ => j).reunit c j

def execPumpLighterRestart (cmd : Nat) (s : State) : Out :=
  .next <| match s.cmd cmd with
    | some c =>
      match c.job with
      | some j => if j.ended then s else if j.unit < 224 then s.restart c j else s.reunit c j
      | none => s
    | none => s

/-! ### The end of a command, R330, R342, R346 -/

/-- RESULT of a stream, and ZEROED of a gather: where it goes and its value. -/
def Cmd.postWord (c : Cmd) (j : Job) (code : Nat) : Nat × Nat :=
  if c.op = 0x07 then
    let n := (c.desc j.desc).targets.length
    (c.word 16 + 32, if code = 0 ∨ code = 0x48 then
      (List.range n).foldl (fun m i => if j.dropped.contains i then m else m + 2 ^ i) 0 else 0)
  else (c.word 16 + 40, j.zeroed)

/-- The signal words: SIGVAL, or its complement when the command failed. -/
def State.pumpSignals (s : State) (c : Cmd) (j : Job) (code : Nat) : State :=
  let x := c.desc j.desc
  if x.sigen then
    let v := if code = 0 ∨ code = 0x48 then x.sigval else 2 ^ 64 - 1 - x.sigval
    s.multicast (s.qCtx c.queue) (j.liveTargets x) x.sigoff (toBytes 8 v)
  else s

/-- The members that some write of a command went to, ascending (R444). -/
def Job.sentTo (j : Job) : List Nat := (List.range 64).filter fun m => j.members.any (·.contains m)

/-- The status and RESULT of a job that is over, before its last writes. -/
def State.jobStatus (s : State) (c : Cmd) (j : Job) : Nat × Nat :=
  if j.code ≠ 0 then (j.code, j.result)
  else if j.dropped ≠ [] then (0x48, 0)
  else if c.op = 0x14 then
    match s.toGroup c with
    | some _ =>
      match s.fabBad c.id with
      | some d => (fabStatus d.code, 0)
      | none =>
        let bad := ((s.fabAnswers c.id).filter (·.code != 0)).filterMap (·.member)
        let ok := j.sentTo.filter fun m => j.members.all (·.contains m) && !bad.contains m
        (if ok = j.sentTo then 0 else 0x4D, (ok.map fun m => 2 ^ m).sum)
    | none =>
      match s.fabBad c.id with
      | some d => (fabStatus d.code, fabResult d)
      | none => (0, 0)
  else (0, 0)

/-- The last writes of a Pump command: RESULT or ZEROED, then the signals; a write that faults gives its code. -/
def State.pumpLast (s : State) (c : Cmd) (j : Job) (code : Nat) : State × Option Stop :=
  if j.desc = [] then (s, none)
  else
    let w := c.postWord j code
    match s.putPiece c (unitNumber j.unit) w.1 (toBytes 8 w.2) with
    | (s, none) => (s.pumpSignals c j code, none)
    | (s, some x) => (s.pumpSignals c j x.code, if code = 0 ∨ 0x15 < code then some x else none)

/-- The event record and the count of a command that ends with a status; a translation or host-window fault has the record
of `State.jobStop`, of class 3 (R346, R513). -/
def State.engFailed (s : State) (c : Cmd) (j : Job) (code : Nat) : State :=
  if code = 0 then s
  else
    let p := s.qPart c.queue
    let s := if code ≤ 0x15 then s else
      s.event 9 (if c.engSource = 3 then 6 else 7) code (some p) (unitNumber j.unit) (s.qCtx c.queue)
        [c.queue, code, { c with job := some j }.reached]
    s.count (F.PU_ERR_COUNT p) 1

/-- The command is over: its record is due, or, after a fault, written before the teardown of R65. -/
def State.engEnd (s : State) (c : Cmd) (j : Job) (code result : Nat) : State :=
  let s := (s.engFailed c j code).unitIdle j.unit
  let s : State := { s with fab := { s.fab with done := s.fab.done.filter fun d => d.cmd != c.id } }
  let s := s.updCmd c.id fun c => { c with job := none, ended := true, status := code, source := if code = 0 then 0 else c.engSource, result := result }
  if code = 0 ∨ 0x15 < code then s
  else
    match s.cmd c.id with
    | some d => ((s.finish d).waitQueues).tear (s.qCtx c.queue) 3 0 0
    | none => s

/-- Every local write of the command is performed, whichever of its units made it, and so is what its unit has written in
rows of its own. -/
def State.cmdWritten (s : State) (c : Cmd) (j : Job) : Bool :=
  s.written c.engAgent (cmdWriter c.id) && s.written c.engAgent (unitNumber j.unit)

/-- The signal words of a stream can reach every target; one whose cluster is out of service holds the command until it is
dropped (R329, R330). -/
def State.signalsLand (s : State) (c : Cmd) (j : Job) : Bool :=
  let x := c.desc j.desc
  c.op != 0x07 || j.code != 0 || !x.sigen || (j.liveTargets x).all fun t => s.clThere (t / 8)

/-- Everything that a job wrote is performed. -/
def State.performed (s : State) (c : Cmd) (j : Job) : Bool :=
  j.ended && !s.fabOut c.id && s.cmdWritten c j && s.signalsLand c j &&
  !(s.host.reads.any fun r => r.agent == 2 && r.group == c.id)

/-- The clocks of a unit spent on a command, in units of 64. -/
def State.chargeUnit (s : State) (c : Cmd) (clocks : Nat) : State :=
  let ctx := s.qCtx c.queue
  s.countWrap (if c.engSource = 3 then F.PT_CHG_PUMP_COUNT ctx else F.PT_CHG_LIGHTER_COUNT ctx) (clocks / 64)

/-- RESULT or ZEROED is written: the command ends once that write is performed. -/
def State.lastWritten (s : State) (c : Cmd) (j : Job) (r : Nat × Nat) : State :=
  if s.cmdWritten c j then s.engEnd c j r.1 r.2
  else s.updJob c.id fun j => { j with last := some r }

/-- A command whose writes are performed writes RESULT or ZEROED and its signals, and completes when these are performed;
`charge` C-clocks of its unit, since the last of its rows, are charged. -/
def execPumpLighterCommandComplete (cmd charge : Nat) (s : State) : Out :=
  .next <| match s.cmd cmd with
    | none => s
    | some c =>
      match c.job with
      | none => s
      | some j =>
        if s.performed c j then
          let st := s.jobStatus c j
          let s := s.chargeUnit c charge
          match j.last with
          | some r => s.engEnd c j r.1 r.2
          | none =>
            match s.pumpLast c j st.1 with
            | (s, none) => s.lastWritten c j st
            | (s, some x) => (s.jobStop c x).engEnd c j x.code 0
        else s

/-! ### Answers of the host, R53 -/

/-- A host read is answered. -/
def State.hostTake (s : State) (r : HRead) : State := { s with host := { s.host with reads := s.host.reads.filter fun x => x.id != r.id } }

/-- The read is one that the core's load has sent. -/
def HRead.isOf (r : HRead) (x : Sent) : Bool := x.id == 2 ^ 64 + r.id

/-- A core's read ends with a fault code: the exception; where another exception of the core, a pre-emption or a teardown
has ended the load, the fault is recorded all the same (R65). -/
def State.coreReadFault (s : State) (r : HRead) (code : Nat) : State :=
  let k := s.core r.unit
  let held := k.sent.any r.isOf
  let s := s.setCore r.unit { k with sent := k.sent.filter fun x => !r.isOf x }
  if held && k.exc.isNone && s.ctxState r.ctx != 6 then
    s.raise r.unit r.group r.pc r.word r.lanes code { va := r.va, pa := r.pa }
  else
    s.faultAs 1 3 { code := code, agent := 0, unit := r.unit, ctx := r.ctx, part := r.part, va := r.va, pa := r.pa }
      [r.pc, r.group, laneMask r.lanes, r.word % 2 ^ 64, r.word / 2 ^ 64]

/-- A core's read is answered: its load takes the bytes when it issues again; `bad` tells that they met a codeword that
could not be corrected (R18). -/
def State.coreReadData (s : State) (r : HRead) (data : List Byte) (bad : Bool) : State :=
  let k := s.core r.unit
  if k.sent.any r.isOf then
    s.setCore r.unit { k with
      resps := k.resps ++ [⟨r.group, r.pc, k.sentBy (2 ^ 64 + r.id), r.pa, data, bad, 0⟩]
      sent := k.sent.filter fun x => !r.isOf x }
  else s

/-- A Lighter's read has failed after a teardown stopped its command: the fault is recorded (R65). -/
def State.lateFault (s : State) (r : HRead) (code : Nat) : State :=
  if code ≠ 0 ∧ code ≤ 0x15 then
    s.fault 3 { code := code, agent := 2, unit := r.unit, ctx := r.ctx, part := r.part, va := r.va, pa := r.pa }
  else s

/-- The bytes of a Lighter's read have come: its piece is written once it is whole. -/
def State.lightCame (s : State) (c : Cmd) (r : HRead) (data : List Byte) : State :=
  let s := s.updJob c.id fun j => j.keep r.pc data
  match (s.cmd c.id).bind (·.job) with
  | none => s
  | some j =>
    match j.whole j.pos (c.pieceEnd j.pos) with
    | some l => (s.lightWrite c j l).1
    | none => s

/-- A Lighter's read is answered with data, or the command ends with the fault. -/
def State.lightAnswer (s : State) (r : HRead) (code : Nat) (data : List Byte) : State :=
  match s.cmd r.group with
  | none => s.lateFault r code
  | some c =>
    match c.job with
    | none => s.lateFault r code
    | some j =>
      if j.ended || j.pos + j.buf.length != r.pc then s
      else if code ≠ 0 then s.jobStop c (if code ≤ 0x15 then { code := code, va := r.va, pa := r.pa } else { code := code })
      else s.lightCame c r data

/-- A read ends with data (code 0), poisoned where `bad` (0x49 to a Lighter), or with the code of R53. -/
def State.hostAnswer (s : State) (id code : Nat) (data : List Byte) (bad : Bool) : State :=
  match s.host.reads.find? fun r => r.id == id with
  | none => s
  | some r =>
    let s := s.hostTake r
    if r.agent = 2 then s.lightAnswer r (if code = 0 ∧ bad = true then 0x49 else code) data
    else if code ≠ 0 then s.coreReadFault r code
    else s.coreReadData r data bad

/-- A completion from the host: `err` 0 with the data that was asked for, 0x13 for a refusal, 0x15 for EP. -/
def execHostReadCompletion (id err : Nat) (data : List Byte) (link : Option Nat) (s : State) : Out :=
  .next <|
    if err = 0x13 ∨ err = 0x15 then s.hostAnswer id err [] false
    else if err = 0 ∧ (s.host.reads.any fun r => r.id == id && r.len == data.length) = true then
      let m := s.linkMark link
      m.1.hostAnswer id 0 data m.2
    else s

/-- The completion timeout of a read. -/
def execHostCompletionTimeout (id : Nat) (s : State) : Out := .next (s.hostAnswer id 0x14 [] false)

/-- The record that a queue wrote last is written no more: it is held, before the others, and the queue takes R382. -/
def State.recordBack (s : State) (q : Nat) (r : Rec) : State :=
  let w := s.get (F.FE_Q_CQPTR_WRITTEN q)
  let pa := s.get (F.FE_Q_CQ_BASE q) * 4096 + 32 * ((w - 1) % s.cqSize q)
  let s := s.set (F.FE_Q_CQPTR_WRITTEN q) (w - 1)
  let s : State := { s with fe := { s.fe with last := tabDel s.fe.last q } }
  let s := s.recFault q { code := 0x13, write := true, pa := pa }
  if 64 ≤ (s.heldOf q).length then s.guilty q 5 else s.setHeld q (r :: s.heldOf q)

/-- A write of an engine has been refused: its command ends, or, where it has ended, its context is torn down. -/
def State.engRefused (s : State) (agent cmd unit ctx : Nat) (x : Stop) : State :=
  match (s.cmd cmd).filter fun c => c.job.any fun j => !j.ended || j.code == 0 with
  | some c => s.jobStop c x
  | none =>
    (s.fault 3 { code := x.code, write := true, agent := agent, unit := unit, ctx := ctx, part := s.ctxPart ctx, va := x.va, pa := x.pa }).tear
      ctx 3 0 0

/-- The root port reports a posted write that it refused. -/
def execHostPostedWriteError (by' : PostedBy) (s : State) : Out :=
  .next <|
    if s.running = false then s
    else
      match by' with
      | .store core ctx va pa =>
        s.fault 9 { code := 0x13, write := true, agent := 0, unit := core, ctx := ctx, part := s.ctxPart ctx, va := va, pa := pa }
      | .engine agent cmd unit ctx va pa =>
        if agent = 1 ∨ agent = 2 then s.engRefused agent cmd unit ctx { code := 0x13, write := true, va := va, pa := pa } else s
      | .record q =>
        match tabFind s.fe.last q with
        | some r => if q < 4096 ∧ s.qState q ≠ 0 ∧ s.get (F.FE_Q_CQPTR_WRITTEN q) ≠ 0 then s.recordBack q r else s
        | none => s
      | .signal q va pa =>
        if q < 4096 then
          let s := s.qFault q { code := 0x13, write := true, va := va, pa := pa }
          if s.qState q = 1 then s.qStop q 1 0x13 else s
        else s

end Sys2Proof.Machine
end

