-- ==== Sys2Proof/Machine/Matrix.lean ====
section
/-! DEFINITION. The matrix engine: issue and wait, the start of a queued operation and its checks, multiply-accumulate,
readout and load, completion, and the limiter frame (R102 to R109, R124 to R148, R470, R477). -/

namespace Sys2Proof.Machine

/-! ### Issue and wait, R102 to R106 -/

/-- The record offset that a MISSUE names. -/
def issueOff (o : Op) (k : Core) : Nat := bits (k.ureg o.group (wA o.w)).toNat 19 0

/-- The queue entry of an issue: copies of the record and of every descriptor it names. -/
def mtxOp (o : Op) (k : Core) (id off : Nat) : MtxOp :=
  let l := k.wellGet off 32
  let r := recF l
  let at' := fun d => k.wellGet (d * 32) 32
  ⟨id, o.group, wD o.w, o.pc, o.w, off, l, at' r.a, at' r.b, at' r.c, at' r.m, at' r.d, false, 0, 0⟩

/-- MISSUE: waits for its token and for a free entry of the queue; a fault queues nothing and leaves the token. -/
def State.mIssue (o : Op) (s : State) : State :=
  let k := s.core o.core
  let off := issueOff o k
  if (k.token o.group (wD o.w)).inFlight then s
  else
    match issueCode k off with
    | some c => s.raiseOp o c { extra := [o.core, off] }
    | none =>
      if 32 ≤ k.queue.length then s
      else
        let (id, s) := s.tick
        s.done o ({ k with queue := k.queue ++ [mtxOp o k id off] }.setToken o.group (wD o.w) ⟨true, 0⟩)

def execMissue (at' : Issue) (w : BitVec 128) (s : State) : Out := .next <| s.instr 9 0x01 at' w State.mIssue

/-- The tokens that a mask names. -/
def maskTokens (m : Nat) : List Nat := (List.range 16).filter fun i => bit m i

/-- MWAIT: waits for the named tokens, then writes the OR of their status words. -/
def State.mWait (o : Op) (s : State) : State :=
  let k := s.core o.core
  let l := (maskTokens (wImm o.w)).map fun i => k.token o.group i
  if l.any (·.inFlight) then s
  else s.done o (k.setUreg o.group (wD o.w) (l.foldl (fun a t => a ||| t.status) 0))

def execMwait (at' : Issue) (w : BitVec 128) (s : State) : Out := .next <| s.instr 9 0x02 at' w State.mWait

/-! ### What an operation reads and writes, R108 -/

def MtxOp.r (x : MtxOp) : RecF := recF x.recd
def MtxOp.ta (x : MtxOp) : TileF := tileF x.a
def MtxOp.tb (x : MtxOp) : TileF := tileF x.b
def MtxOp.tm (x : MtxOp) : TileF := tileF x.m
def MtxOp.td (x : MtxOp) : TileF := tileF x.d
def MtxOp.tc (x : MtxOp) : AccF := accF x.c
/-- The reduction length. -/
def MtxOp.k (x : MtxOp) : Nat := kOf x.ta
/-- K-steps of the operation, or one piece of work. -/
def MtxOp.total (x : MtxOp) : Nat := if x.r.op = 1 then x.k / 32 else 1
def MtxOp.finished (x : MtxOp) : Bool := x.started && decide (x.total ≤ x.steps)

/-- The runs of bytes of a tile's stored rows. -/
def TileF.runs (t : TileF) : List (Nat × Nat) := (List.range t.rows).map fun r => (t.base + r * t.stride, t.rowBytes)

/-- The runs of bytes of an operand of an MMA: rows, scale rows of n indices, and table. -/
def TileF.operandRuns (t : TileF) (n k : Nat) : List (Nat × Nat) :=
  t.runs ++ (if t.scheme = 0 then [] else (List.range n).map fun i => (t.sbase + i * t.sstride, k / blockLen t.scheme)) ++
  (if t.type = 11 then [(t.cbase, 16)] else if t.type = 12 then [(t.cbase, 64)] else [])

/-- Scratchpad runs read. -/
def MtxOp.reads (x : MtxOp) : List (Nat × Nat) :=
  if x.r.op = 1 then
    x.ta.operandRuns x.tc.m x.k ++ x.tb.operandRuns x.tc.n x.k ++ (if x.r.sparse then x.tm.runs else [])
  else if x.r.op = 4 then x.ta.runs ++ (if x.ta.kind = 4 then [(x.ta.sbase, 32)] else []) else []

/-- Scratchpad runs written. -/
def MtxOp.writes (x : MtxOp) : List (Nat × Nat) :=
  if x.r.op = 2 then x.td.runs else if x.r.op = 3 then x.td.runs ++ [(x.td.sbase, 32)] else []

/-- The tile's bytes in the accumulator store, and whether the operation writes them. -/
def MtxOp.tile (x : MtxOp) : Nat × Nat := (x.tc.abase * 1024, x.tc.m * x.tc.n * x.tc.el)
def MtxOp.writesTile (x : MtxOp) : Bool := x.r.op == 1 || x.r.op == 4
/-- A READ may set OVF of its slot. -/
def MtxOp.writesSlot (x : MtxOp) : Bool := x.r.op != 3

def meets (a b : Nat × Nat) : Bool := decide (a.1 < b.1 + b.2 ∧ b.1 < a.1 + a.2 ∧ 0 < a.2 ∧ 0 < b.2)
def anyMeets (a b : List (Nat × Nat)) : Bool := a.any fun x => b.any fun y => meets x y

/-- A new operation x must wait for an earlier unfinished operation e. -/
def MtxOp.waitsFor (x e : MtxOp) : Bool :=
  (meets x.tile e.tile && (x.writesTile || e.writesTile)) ||
  (x.tc.slot == e.tc.slot && (x.writesSlot || e.writesSlot)) ||
  anyMeets x.reads e.writes || anyMeets x.writes e.writes || anyMeets x.writes e.reads

/-- x is chained to the MMA p immediately before it. -/
def MtxOp.chained (x p : MtxOp) : Bool :=
  x.r.op == 1 && p.r.op == 1 && !x.r.clear && x.tc == p.tc

/-- x may start behind the earlier operations, latest first: a chain before it need only have ended its beats; what it
reads of the scratchpad must still be written. -/
def MtxOp.mayStart (x : MtxOp) : List MtxOp → Bool
  | [] => true
  | p :: l =>
    if x.chained p then p.finished && p.mayStart l && !l.any fun e => anyMeets x.reads e.writes
    else (p :: l).all fun e => !x.waitsFor e

/-! ### The accumulator store and the slots, R124, R125 -/

def Core.storeGet (k : Core) (a n : Nat) : List Byte := (List.range n).map fun i => tabGet 0 k.acc (a + i)
def Core.storePut (k : Core) (a : Nat) : List Byte → Core
  | [] => k
  | b :: l => { k with acc := tabSet 0 k.acc a b }.storePut (a + 1) l

def AccF.at (c : AccF) (i j : Nat) : Nat := c.abase * 1024 + c.el * (i * c.n + j)
def Core.fpEl (k : Core) (c : AccF) (i j : Nat) : Nat := ofBytes (k.storeGet (c.at i j) 4)
def Core.setFpEl (k : Core) (c : AccF) (i j v : Nat) : Core := k.storePut (c.at i j) (toBytes 4 v)
def Core.sumEl (k : Core) (c : AccF) (i j : Nat) : ESum := ESum.ofRaw (k.storeGet (c.at i j) 32)
/-- The register and its flags; the two bytes of EREF stay. -/
def Core.setSumEl (k : Core) (c : AccF) (i j : Nat) (x : ESum) : Core := k.storePut (c.at i j) ((x.raw 0).take 30)

/-- Every element's indices. -/
def AccF.cells (c : AccF) : List (Nat × Nat) := (List.range c.m).flatMap fun i => (List.range c.n).map fun j => (i, j)

def fpOne : Nat := 0x3F800000
def Core.slot (k : Core) (c : AccF) : Option Slot := tabFind k.slots c.slot
def Core.setSlot (k : Core) (c : AccF) (v : Slot) : Core := { k with slots := tabIns k.slots c.slot v }
/-- The slot opened from its descriptor. -/
def AccF.opened (c : AccF) : Slot := ⟨c.mode, c.abase, c.m, c.n, c.eref, false, fpOne, fpOne, 0, 0, false⟩
/-- The slot is open and its fields are the descriptor's. -/
def Core.slotFits (k : Core) (c : AccF) : Bool :=
  match k.slot c with
  | some v => v.mode == c.mode && v.abase == c.abase && v.m == c.m && v.n == c.n && v.eref == c.eref
  | none => false
def Slot.scaleA (v : Slot) : Val := if v.tset then decodeEl 0 v.ta else .fin false 1 0
def Slot.scaleB (v : Slot) : Val := if v.tset then decodeEl 0 v.tb else .fin false 1 0

/-- The tensor scale of an operand (R125). -/
def TileF.tensor (t : TileF) : Nat := if t.scheme = 2 then t.tscale else fpOne

/-! ### The start, R108, R125, R132, R144 -/

/-- The tile status record of a raw tile. -/
def Core.statusRec (k : Core) (t : TileF) : List Byte := k.wellGet t.sbase 32
/-- Raw record (i, j) of a raw tile. -/
def Core.rawRec (k : Core) (t : TileF) (i j : Nat) : List Byte := k.wellGet (t.base + i * t.stride + 32 * j) 32

/-- Raw data differ from the tile, R132. -/
def Core.rawMismatch (k : Core) (t : TileF) (c : AccF) : Bool :=
  let st := k.statusRec t
  toSigned 16 (bytesAt st 10 2) != c.eref || bytesAt st 20 2 != c.m || bytesAt st 22 2 != c.n ||
  c.cells.any fun e => toSigned 16 (bytesAt (k.rawRec t e.1 e.2) 30 2) != c.eref

/-- The start-time conditions that hold. -/
def Core.startCodes (k : Core) (x : MtxOp) : List Nat :=
  let r := x.r
  let c := x.tc
  let needs := (r.op == 1 && !r.clear) || r.op == 2 || r.op == 3 || (r.op == 4 && r.add)
  let raw := r.op == 4 && x.ta.kind == 4
  let st := k.statusRec x.ta
  let scales := match k.slot c with
    | some v => v.tset &&
        ((r.op == 1 && !r.clear && (v.ta != x.ta.tensor || v.tb != x.tb.tensor)) ||
         (raw && r.add && bit (bytesAt st 9 1) 0 && (v.ta != bytesAt st 12 4 || v.tb != bytesAt st 16 4)))
    | none => false
  codesOf [(raw && k.rawMismatch x.ta c, 0x27), (needs && scales, 0x28), (needs && !k.slotFits c, 0x29)]

/-- An accepted MMA opens or marks its slot; with CLEAR the tile starts from zero. -/
def Core.mmaOpen (k : Core) (x : MtxOp) : Core :=
  let c := x.tc
  if x.r.clear then
    let k := k.setSlot c { c.opened with tset := true, ta := x.ta.tensor, tb := x.tb.tensor }
    { k with acc := k.acc.filter fun e => !(decide (x.tile.1 ≤ e.1) && decide (e.1 < x.tile.1 + x.tile.2)) }
  else
    match k.slot c with
    | some v => if v.tset then k else k.setSlot c { v with tset := true, ta := x.ta.tensor, tb := x.tb.tensor }
    | none => k

def Core.updMtx (k : Core) (id : Nat) (f : MtxOp → MtxOp) : Core :=
  { k with queue := updFirst (fun x => x.id == id) f k.queue }
def Core.mtx (k : Core) (id : Nat) : Option MtxOp := k.queue.find? fun x => x.id == id

/-- A start-time fault: the token completes with the code, later operations are dropped, the event is written and the
context is torn down. -/
def State.mtxFault (s : State) (core : Nat) (x : MtxOp) (code : Nat) : State :=
  let k := s.core core
  let s := s.setCore core ({ k with queue := k.queue.takeWhile fun e => e.id != x.id }.setToken x.group x.kd ⟨false, code⟩)
  match k.blk with
  | some b => (s.event 3 2 code (some b.part) core b.ctx [code, core, x.group, x.off]).tear b.ctx 2 code 2
  | none => s

/-- The engine starts a queued operation that conflicts with no earlier unfinished one. -/
def execMtxOperationStart (core id : Nat) (s : State) : Out :=
  .next <|
    let k := s.core core
    match k.mtx id with
    | none => s
    | some x =>
      let before := (k.queue.takeWhile fun e => e.id != id).reverse
      if k.stopped ∨ x.started ∨ before.any (fun e => !e.started) ∨ x.mayStart before = false then s
      else
        match lowest (k.startCodes x) with
        | some c => s.mtxFault core x c
        | none =>
          let k := if x.r.op = 1 then k.mmaOpen x else k
          s.setCore core (k.updMtx id fun x => { x with started := true })

/-! ### Elements of operands, R114, R116, R118, R133 -/

/-- The bits of stored element (r, c) of a value tile. -/
def Core.tileBits (k : Core) (t : TileF) (r c : Nat) : Nat :=
  let w := elWidth t.type
  let byte := fun b => (tabGet 0 k.well (t.at r b)).toNat
  if w = 4 then byte (c / 2) / 2 ^ (4 * (c % 2)) % 16
  else if w = 6 then
    let g := c / 4 * 3
    (byte g + 256 * byte (g + 1) + 65536 * byte (g + 2)) / 2 ^ (6 * (c % 4)) % 64
  else ofBytes ((List.range (w / 8)).map fun i => tabGet 0 k.well (t.at r (c * (w / 8) + i)))

/-- An operand's value at index i and stored position c along the reduction dimension. -/
def Core.operand (k : Core) (t : TileF) (i c : Nat) : Val :=
  let n := if t.kdim then k.tileBits t c i else k.tileBits t i c
  let n := if isCodebook t.type then (tabGet 0 k.well (t.cbase + n)).toNat else n
  schemeEl t.scheme t.type n

/-- The block scale of index i at reduction index kk. -/
def Core.scale (k : Core) (t : TileF) (i kk : Nat) : Val :=
  scaleVal t.scheme (tabGet 0 k.well (t.sbase + i * t.sstride + kk / blockLen t.scheme)).toNat

/-- The reduction index of stored element e of row n of a sparse B, R133. -/
def Core.sparseIdx (k : Core) (t : TileF) (n e : Nat) : Nat :=
  let g := e / 2
  let m := (tabGet 0 k.well (t.base + n * t.stride + g / 2)).toNat / 2 ^ (4 * (g % 2)) % 16
  4 * g + (if e % 2 = 0 then m % 4 else m / 4)

/-- The products of element (i, j) in K-step q (R86, R127): the value and its flags. Of a sparse B the two indices of a
group that no entry names contribute +0 (R134). -/
def Core.products (k : Core) (x : MtxOp) (i j q : Nat) : List (Val × Nat) :=
  let one := fun e kk =>
    product4 (k.operand x.ta i kk) (k.operand x.tb j e) (k.scale x.ta i kk) (k.scale x.tb j kk)
  if x.r.sparse then
    ((List.range 16).map fun e => one (16 * q + e) (k.sparseIdx x.tm j (16 * q + e))) ++ List.replicate 16 (.fin false 0 0, 0)
  else (List.range 32).map fun e => one (32 * q + e) (32 * q + e)

/-! ### MMA, R127, R130, R146 -/

def isNeg (neg : Bool) (v : Val) : Bool := v == .inf neg

/-- The exact sum of an element's value and its products, rounded once to FP32. -/
def kStep (v : Nat) (l : List (Val × Nat)) : Nat × Nat :=
  let a := decodeEl 0 v
  let all := a :: l.map (·.1)
  let nanP := l.any fun p => p.1.isNaN
  let opp := all.any (isNeg true) && all.any (isNeg false)
  let fl := l.foldl (fun f p => f ||| p.2) (readFlag a) ||| (if nanP || opp then flNV else 0)
  if nanP || opp || a.isNaN then (canonNaN 0, fl)
  else
    let r := convTo 0 0 false (l.foldl (fun a p => (a.add 0 p.1).1) a)
    (r.1, r.2 ||| fl)

/-- One K-step of an FP32 tile: the core and the flags raised. -/
def Core.fpStep (k : Core) (x : MtxOp) (q : Nat) : Core × Nat :=
  x.tc.cells.foldl (fun (a : Core × Nat) e =>
    let r := kStep (k.fpEl x.tc e.1 e.2) (k.products x e.1 e.2 q)
    (a.1.setFpEl x.tc e.1 e.2 r.1, a.2 ||| r.2)) (k, 0)

/-- One element's products enter its register: the element, the products that lost bits, the flags. -/
def sumStep (v : ESum) (eref : Int) (l : List (Val × Nat)) : ESum × Nat × Nat :=
  l.foldl (fun (a : ESum × Nat × Nat) p =>
    let r := a.1.accum eref p.1 p.2
    (r.1, a.2.1 + b2n r.2.1, a.2.2 ||| r.2.2)) (v, 0, 0)

/-- One K-step of an exact-sum tile: the core, underflows, flags, and whether some product set OVP (R92, R130). -/
def Core.exactStep (k : Core) (x : MtxOp) (q : Nat) (full : Bool) : Core × Nat × Nat × Bool :=
  x.tc.cells.foldl (fun (a : Core × Nat × Nat × Bool) e =>
    let v := k.sumEl x.tc e.1 e.2
    let r := sumStep { v with ovp := false } x.tc.eref (k.products x e.1 e.2 q)
    let w : ESum := { r.1 with ovp := r.1.ovp || v.ovp || full }
    (a.1.setSumEl x.tc e.1 e.2 w, a.2.1 + r.2.1, a.2.2.1 ||| r.2.2, a.2.2.2 || r.1.ovp))
    (k, 0, 0, false)

/-- A tile status bit: FLAGS at bit 8, TOVF, UFNZ, SPECIAL, THROTTLED (R107). -/
def stFlags (fl : Nat) : Nat := fl * 256
def stTOVF : Nat := 2 ^ 15
def stUFNZ : Nat := 2 ^ 16
def stSPECIAL : Nat := 2 ^ 17
def stTHROTTLED : Nat := 2 ^ 18

/-- UFNZ and SPECIAL as they stand after the operation. -/
def Core.tileStatus (k : Core) (c : AccF) : Nat :=
  (if (k.slot c).any fun v => v.ufcnt != 0 then stUFNZ else 0) +
  (if c.mode == 1 && c.cells.any fun e => let v := k.sumEl c e.1 e.2; v.nan || v.pinf || v.ninf then stSPECIAL else 0)

/-- One K-step of an MMA with its counters. -/
def Core.mmaStep (k : Core) (x : MtxOp) (q : Nat) : Core × Nat :=
  if x.tc.mode = 1 then
    let p := ((k.slot x.tc).map (·.pcnt)).getD 0
    let full := decide (2 ^ 40 - 1 < p + 32)
    let (k, uf, fl, ovp) := k.exactStep x q full
    let k := match k.slot x.tc with
      | some v => k.setSlot x.tc { v with ufcnt := satAdd 32 v.ufcnt uf, pcnt := satAdd 40 v.pcnt 32, ovf := v.ovf || ovp || full }
      | none => k
    (k, stFlags fl + if ovp || full then stTOVF else 0)
  else
    let (k, fl) := k.fpStep x q
    (k, stFlags fl)

/-- n K-steps of an MMA from its position on. -/
def Core.mmaSteps (k : Core) (x : MtxOp) (q st : Nat) : Nat → Core × Nat
  | 0 => (k, st)
  | n + 1 =>
    let (k, t) := k.mmaStep x q
    k.mmaSteps x (q + 1) (st ||| t) n

/-- The engine performs K-steps of a started MMA (compute beats under the limiter, R138). -/
def execMma (core id steps : Nat) (s : State) : Out :=
  .next <|
    let k := s.core core
    match k.mtx id with
    | some x =>
      if x.r.op ≠ 1 ∨ x.started = false ∨ k.stopped ∨ x.finished = true then s
      else
        let n := min steps (x.total - x.steps)
        let thr := if 0 < n ∧ s.coreLevel core < 64 then stTHROTTLED else 0
        let (k, st) := k.mmaSteps x x.steps (x.status ||| thr) n
        let st := if x.steps + n = x.total then st ||| k.tileStatus x.tc else st
        s.setCore core (k.updMtx id fun x => { x with steps := x.steps + n, status := st })
    | none => s

/-! ### Readout, R128, R131 -/

/-- A readable element: its encoding in D's type, the flags and the tile overflow status. -/
def Core.readEl (k : Core) (x : MtxOp) (v : Slot) (i j : Nat) : Nat × Nat × Bool :=
  let ta := v.scaleA
  let tb := v.scaleB
  if x.tc.mode = 1 then (k.sumEl x.tc i j).readout x.tc.eref ta tb
  else
    let special := fun v => match v with | Val.fin _ _ _ => false | _ => true
    if special ta || special tb then (canonNaN x.td.type, flNV, false)
    else
      let p := (decodeEl 0 (k.fpEl x.tc i j)).mul ta
      let p' := p.1.mul tb
      let r := convTo x.td.type x.r.rm x.r.sat p'.1
      (r.1, r.2 ||| p.2 ||| p'.2, false)

/-- A READ: every element to the value tile, with the flags and the tile overflow status. -/
def Core.readTile (k : Core) (x : MtxOp) (v : Slot) : Core × Nat × Bool :=
  let n := elWidth x.td.type / 8
  x.tc.cells.foldl (fun (a : Core × Nat × Bool) e =>
    let r := k.readEl x v e.1 e.2
    let (row, col) := if x.td.kdim then (e.2, e.1) else e
    -- an element of 2 or 4 bytes lies whole within a 16-byte chunk
    (a.1.wellPut (x.td.at row (col * n)) (toBytes n r.1), a.2.1 ||| r.2.1, a.2.2 || r.2.2)) (k, 0, false)

/-- A started operation that is no MMA and whose work is not done. -/
def Core.mtxWork (k : Core) (id op : Nat) : Option MtxOp :=
  match k.mtx id with
  | some x => if x.r.op = op ∧ x.started = true ∧ x.steps = 0 then some x else none
  | none => none

/-- The work is done: the status word so far. -/
def State.mtxDid (s : State) (core : Nat) (k : Core) (x : MtxOp) (st : Nat) : State :=
  s.setCore core (k.updMtx x.id fun y => { y with steps := 1, status := st ||| k.tileStatus x.tc })

def execRead (core id : Nat) (s : State) : Out :=
  .next <|
    let k := s.core core
    match k.mtxWork id 2 with
    | some x =>
      match k.slot x.tc with
      | some v =>
        let (k, fl, t) := k.readTile x v
        let k := k.setSlot x.tc { v with ovf := v.ovf || t }
        s.mtxDid core k x (stFlags fl + if t then stTOVF else 0)
      | none => s
    | none => s

/-- The tile status record of a slot, R126. -/
def Slot.record (v : Slot) : List Byte :=
  toBytes 4 v.ufcnt ++ toBytes 5 v.pcnt ++ toBytes 1 (b2n v.tset + 2 * b2n v.ovf) ++ toBytes 2 (wrap 16 v.eref) ++
  toBytes 4 v.ta ++ toBytes 4 v.tb ++ toBytes 2 v.m ++ toBytes 2 v.n ++ toBytes 8 0

def execReadraw (core id : Nat) (s : State) : Out :=
  .next <|
    let k := s.core core
    match k.mtxWork id 3 with
    | some x =>
      match k.slot x.tc with
      | some v =>
        let k' := x.tc.cells.foldl (fun (a : Core) e =>
          a.wellPut (x.td.base + e.1 * x.td.stride + 32 * e.2) ((k.sumEl x.tc e.1 e.2).raw x.tc.eref)) k
        s.mtxDid core (k'.wellPut x.td.sbase v.record) x 0
      | none => s
    | none => s

/-! ### Load, R129, R132 -/

/-- A source value of an FP32 LOAD. -/
def Core.sourceEl (k : Core) (t : TileF) (i j : Nat) : Nat := if t.kdim then k.tileBits t j i else k.tileBits t i j

/-- A LOAD of FP32 values: the core and the flags. -/
def Core.loadFp (k : Core) (x : MtxOp) : Core × Nat :=
  let c := x.tc
  let r := c.cells.foldl (fun (a : Core × Nat) e =>
    let v := k.sourceEl x.ta e.1 e.2
    let r := if x.r.add then fadd 0 0 (k.fpEl c e.1 e.2) v else (v, 0)
    (a.1.setFpEl c e.1 e.2 r.1, a.2 ||| r.2)) (k, 0)
  (if x.r.add then r.1 else r.1.setSlot c c.opened, r.2)

/-- The fields of a tile status record: UFCNT, PCNT, TSET, OVF, TA, TB. -/
def statusFields (l : List Byte) : Nat × Nat × Bool × Bool × Nat × Nat :=
  (bytesAt l 0 4, bytesAt l 4 5, bit (bytesAt l 9 1) 0, bit (bytesAt l 9 1) 1, bytesAt l 12 4, bytesAt l 16 4)

/-- A LOAD of raw records: the core and the tile overflow status, which a record's OVP entering an
element raises (R107). -/
def Core.loadRaw (k : Core) (x : MtxOp) : Core × Bool :=
  let c := x.tc
  let (uf, pc, ts, ov, ta, tb) := statusFields (k.statusRec x.ta)
  if x.r.add then
    match k.slot c with
    | some v =>
      let full := decide (2 ^ 40 ≤ v.pcnt + pc)
      let (k', ovp) := c.cells.foldl (fun (a : Core × Bool) e =>
        let w := k.sumEl c e.1 e.2
        let z := ({ w with ovp := false } : ESum).combine (ESum.ofRaw (k.rawRec x.ta e.1 e.2))
        (a.1.setSumEl c e.1 e.2 { z with ovp := z.ovp || w.ovp || full }, a.2 || z.ovp)) (k, false)
      let take := ts && !v.tset
      (k'.setSlot c { v with
        ufcnt := satAdd 32 v.ufcnt uf
        pcnt := satAdd 40 v.pcnt pc
        ovf := v.ovf || ov || full
        tset := v.tset || ts
        ta := if take then ta else v.ta
        tb := if take then tb else v.tb }, ovp || full)
    | none => (k, false)
  else
    let k' := c.cells.foldl (fun (a : Core) e => a.storePut (c.at e.1 e.2) (k.rawRec x.ta e.1 e.2)) k
    (k'.setSlot c { c.opened with ufcnt := uf, pcnt := pc, tset := ts, ovf := ov, ta := ta, tb := tb },
      c.cells.any fun e => (ESum.ofRaw (k.rawRec x.ta e.1 e.2)).ovp)

def execLoad (core id : Nat) (s : State) : Out :=
  .next <|
    let k := s.core core
    match k.mtxWork id 4 with
    | some x =>
      if x.ta.kind = 4 then
        let (k, t) := k.loadRaw x
        s.mtxDid core k x (if t then stTOVF else 0)
      else
        let (k, fl) := k.loadFp x
        s.mtxDid core k x (stFlags fl)
    | none => s

/-! ### Completion, R106, and the limiter frame, R138, R470 -/

/-- An operation whose work is done leaves the queue, and its token becomes idle with its status word. -/
def execMtxOperationComplete (core id : Nat) (s : State) : Out :=
  .next <|
    let k := s.core core
    match k.mtx id with
    | some x =>
      if x.finished then
        s.setCore core ({ k with queue := dropFirst (fun e => e.id == id) k.queue }.setToken x.group x.kd ⟨false, x.status⟩)
      else s
    | none => s

/-- Cores of a half whose engines can issue a beat: present and not power-gated. -/
def State.halfCores (s : State) (half : Nat) : List Nat :=
  ((List.range 64).map (half * 64 + ·)).filter fun c => s.clThere (c / 8) && !s.pow.gated.contains c

/-- Clusters of a half that hold no slot and work: their engines issue filler alone. -/
def State.halfSpares (s : State) (half : Nat) : Nat :=
  (s.freeSpares 1 (half * 9) 9 fun u => (List.range 8).any fun i => s.clPhys (half * 8 + i) == u + 1).length

/-- The A-clocks of a frame in which the engines of a half, at most 72, may issue a beat (R470). -/
def State.halfCap (s : State) (half : Nat) : Nat :=
  ((s.halfCores half).map s.coreLevel).sum + 8 * s.halfSpares half * tabGet 64 s.pow.clLevel (128 + half)

/-- A limiter frame of a half (2 × die + half) ends with these compute beats: filler fills the fall beyond FALLSTEP as
far as permitted A-clocks go and no forced state acts, the counters count, the half takes the die level, and the level
moves (DEDUCED 45). -/
def execLimiterFrameBoundary (half beats : Nat) (s : State) : Out :=
  .next <|
    let n := half / 2
    let prev := tabGet 0 s.pow.halfBeats half
    let cap := s.halfCap half
    let b := min beats cap
    let want := if s.fallStep = 0 ∨ s.dieForced n = true then b else max b (min cap (prev - s.fallStep))
    if 16 ≤ half ∨ s.running = false ∨ s.clockStopped n = true then s
    else
      let s := if (s.halfCores half).any fun c => decide (s.coreLevel c < 64) then s.count (F.PW_THROTTLED_COUNT n) 1 else s
      let s := s.count (F.PW_FILLER_COUNT n) (want - b)
      let s := ({ s with pow := { s.pow with halfBeats := tabSet 0 s.pow.halfBeats half want } } : State).takeLevels half
      if half = s.leadHalf n then s.levelMove n else s

end Sys2Proof.Machine
end

