-- ==== Sys2Proof/Machine/Dispatch.lean ====
section
/-! DEFINITION. One arm per command: the meaning it has, by name. -/

namespace Sys2Proof.Machine

def exec (i : Instr) (s : State) : Host.Outcome State Fault Refusal :=
  match i with
  | .endOfReset samples => Sys2Proof.Machine.execEndOfReset samples s
  | .pllLocked ok => Sys2Proof.Machine.execPllLocked ok s
  | .romSelfTestDone ok0 ok1 => Sys2Proof.Machine.execRomSelfTestDone ok0 ok1 s
  | .leadDecision inTime => Sys2Proof.Machine.execLeadDecision inTime s
  | .firmwareVerified dev0 dev1 readA readB seed => Sys2Proof.Machine.execFirmwareVerified dev0 dev1 readA readB seed s
  | .ucieTrained mods => Sys2Proof.Machine.execUcieTrained mods s
  | .interconnectTestDone failed stitchOk => Sys2Proof.Machine.execInterconnectTestDone failed stitchOk s
  | .repairRecordRead read0 read1 => Sys2Proof.Machine.execRepairRecordRead read0 read1 s
  | .selfTestDone failed noPath complexOk => Sys2Proof.Machine.execSelfTestDone failed noPath complexOk s
  | .configurationApply => Sys2Proof.Machine.execConfigurationApply s
  | .memoryClearComplete => Sys2Proof.Machine.execMemoryClearComplete s
  | .deviceReady time => Sys2Proof.Machine.execDeviceReady time s
  | .pcieConfigRequest mod func word wr vfe => Sys2Proof.Machine.execPcieConfigRequest mod func word wr vfe s
  | .pwrGoodAssert samples => Sys2Proof.Machine.execPwrGoodAssert samples s
  | .pwrGoodDeassert samples => Sys2Proof.Machine.execPwrGoodDeassert samples s
  | .pkgResetAssert samples => Sys2Proof.Machine.execPkgResetAssert samples s
  | .coolantFaultAssert samples => Sys2Proof.Machine.execCoolantFaultAssert samples s
  | .coolantFaultDeassert samples => Sys2Proof.Machine.execCoolantFaultDeassert samples s
  | .vrAlertAssert samples => Sys2Proof.Machine.execVrAlertAssert samples s
  | .vrAlertDeassert samples => Sys2Proof.Machine.execVrAlertDeassert samples s
  | .vrAlertHoldEnd => Sys2Proof.Machine.execVrAlertHoldEnd s
  | .tapReset samples => Sys2Proof.Machine.execTapReset samples s
  | .inputChatterStart pin samples => Sys2Proof.Machine.execInputChatterStart pin samples s
  | .inputChatterEnd pin samples => Sys2Proof.Machine.execInputChatterEnd pin samples s
  | .inputStuck pin => Sys2Proof.Machine.execInputStuck pin s
  | .supplyOutOfRange supply mv => Sys2Proof.Machine.execSupplyOutOfRange supply mv s
  | .refclkLoss => Sys2Proof.Machine.execRefclkLoss s
  | .refclkRecovered => Sys2Proof.Machine.execRefclkRecovered s
  | .wearThresholdReached kind unit extra symbols => Sys2Proof.Machine.execWearThresholdReached kind unit extra symbols s
  | .wearWindowEnd => Sys2Proof.Machine.execWearWindowEnd s
  | .substitutionDrainComplete phys => Sys2Proof.Machine.execSubstitutionDrainComplete phys s
  | .substitutionTrainingResult phys ok => Sys2Proof.Machine.execSubstitutionTrainingResult phys ok s
  | .ucieModuleFailure mod => Sys2Proof.Machine.execUcieModuleFailure mod s
  | .registerWrite func off width v => Sys2Proof.Machine.execRegisterWrite func off width v s
  | .bar0UnsupportedAccess mod func off width write => Sys2Proof.Machine.execBar0UnsupportedAccess mod func off width write s
  | .doorbell func off width v => Sys2Proof.Machine.execDoorbell func off width v s
  | .bar4Read mod func off k link => Sys2Proof.Machine.execBar4Read mod func off k link s
  | .bar4Write func off data link => Sys2Proof.Machine.execBar4Write func off data link s
  | .hostWindowSync => Sys2Proof.Machine.execHostWindowSync s
  | .hostWindowSyncDone => Sys2Proof.Machine.execHostWindowSyncDone s
  | .hostReadCompletion id err data link => Sys2Proof.Machine.execHostReadCompletion id err data link s
  | .hostPostedWriteError by' => Sys2Proof.Machine.execHostPostedWriteError by' s
  | .hostCompletionTimeout id => Sys2Proof.Machine.execHostCompletionTimeout id s
  | .d3hotEntry => Sys2Proof.Machine.execD3hotEntry s
  | .d0Return => Sys2Proof.Machine.execD0Return s
  | .pageWalkEntryRead core va => Sys2Proof.Machine.execPageWalkEntryRead core va s
  | .faultLogClear func p v => Sys2Proof.Machine.execFaultLogClear func p v s
  | .xlatInvalidate func v => Sys2Proof.Machine.execXlatInvalidate func v s
  | .xlatInvalidateDone func => Sys2Proof.Machine.execXlatInvalidateDone func s
  | .mov at' w => Sys2Proof.Machine.execMov at' w s
  | .add at' w => Sys2Proof.Machine.execAdd at' w s
  | .sub at' w => Sys2Proof.Machine.execSub at' w s
  | .addc at' w => Sys2Proof.Machine.execAddc at' w s
  | .mul at' w => Sys2Proof.Machine.execMul at' w s
  | .mulhi at' w => Sys2Proof.Machine.execMulhi at' w s
  | .mad at' w => Sys2Proof.Machine.execMad at' w s
  | .and at' w => Sys2Proof.Machine.execAnd at' w s
  | .or at' w => Sys2Proof.Machine.execOr at' w s
  | .xor at' w => Sys2Proof.Machine.execXor at' w s
  | .not at' w => Sys2Proof.Machine.execNot at' w s
  | .shl at' w => Sys2Proof.Machine.execShl at' w s
  | .shr at' w => Sys2Proof.Machine.execShr at' w s
  | .min at' w => Sys2Proof.Machine.execMin at' w s
  | .max at' w => Sys2Proof.Machine.execMax at' w s
  | .setp at' w => Sys2Proof.Machine.execSetp at' w s
  | .sel at' w => Sys2Proof.Machine.execSel at' w s
  | .plop at' w => Sys2Proof.Machine.execPlop at' w s
  | .popc at' w => Sys2Proof.Machine.execPopc at' w s
  | .clz at' w => Sys2Proof.Machine.execClz at' w s
  | .shfl at' w => Sys2Proof.Machine.execShfl at' w s
  | .vote at' w => Sys2Proof.Machine.execVote at' w s
  | .lred at' w => Sys2Proof.Machine.execLred at' w s
  | .fadd at' w => Sys2Proof.Machine.execFadd at' w s
  | .fmul at' w => Sys2Proof.Machine.execFmul at' w s
  | .ffma at' w => Sys2Proof.Machine.execFfma at' w s
  | .fmin at' w => Sys2Proof.Machine.execFmin at' w s
  | .fmax at' w => Sys2Proof.Machine.execFmax at' w s
  | .fsetp at' w => Sys2Proof.Machine.execFsetp at' w s
  | .cvt at' w => Sys2Proof.Machine.execCvt at' w s
  | .sfu at' w => Sys2Proof.Machine.execSfu at' w s
  | .umov at' w => Sys2Proof.Machine.execUmov at' w s
  | .uadd at' w => Sys2Proof.Machine.execUadd at' w s
  | .usub at' w => Sys2Proof.Machine.execUsub at' w s
  | .uand at' w => Sys2Proof.Machine.execUand at' w s
  | .uor at' w => Sys2Proof.Machine.execUor at' w s
  | .uxor at' w => Sys2Proof.Machine.execUxor at' w s
  | .ushl at' w => Sys2Proof.Machine.execUshl at' w s
  | .ushr at' w => Sys2Proof.Machine.execUshr at' w s
  | .umul at' w => Sys2Proof.Machine.execUmul at' w s
  | .ufirst at' w => Sys2Proof.Machine.execUfirst at' w s
  | .ld8u at' w => Sys2Proof.Machine.execLd8u at' w s
  | .ld8s at' w => Sys2Proof.Machine.execLd8s at' w s
  | .ld16u at' w => Sys2Proof.Machine.execLd16u at' w s
  | .ld16s at' w => Sys2Proof.Machine.execLd16s at' w s
  | .ld32 at' w => Sys2Proof.Machine.execLd32 at' w s
  | .ld64 at' w => Sys2Proof.Machine.execLd64 at' w s
  | .ld128 at' w => Sys2Proof.Machine.execLd128 at' w s
  | .st8 at' w => Sys2Proof.Machine.execSt8 at' w s
  | .st16 at' w => Sys2Proof.Machine.execSt16 at' w s
  | .st32 at' w => Sys2Proof.Machine.execSt32 at' w s
  | .st64 at' w => Sys2Proof.Machine.execSt64 at' w s
  | .st128 at' w => Sys2Proof.Machine.execSt128 at' w s
  | .atom at' w => Sys2Proof.Machine.execAtom at' w s
  | .atoms at' w => Sys2Proof.Machine.execAtoms at' w s
  | .ldr at' w => Sys2Proof.Machine.execLdr at' w s
  | .stc at' w => Sys2Proof.Machine.execStc at' w s
  | .fence at' w => Sys2Proof.Machine.execFence at' w s
  | .releaseComplete at' => Sys2Proof.Machine.execReleaseComplete at' s
  | .ffence at' w => Sys2Proof.Machine.execFfence at' w s
  | .ffenceComplete at' => Sys2Proof.Machine.execFfenceComplete at' s
  | .bar at' w => Sys2Proof.Machine.execBar at' w s
  | .deviceBarrierArrival launch num block => Sys2Proof.Machine.execDeviceBarrierArrival launch num block s
  | .deviceBarrierRelease core num => Sys2Proof.Machine.execDeviceBarrierRelease core num s
  | .barrierWatchdogExpiry core scope num => Sys2Proof.Machine.execBarrierWatchdogExpiry core scope num s
  | .nop at' w => Sys2Proof.Machine.execNop at' w s
  | .bra at' w => Sys2Proof.Machine.execBra at' w s
  | .brx at' w => Sys2Proof.Machine.execBrx at' w s
  | .call at' w => Sys2Proof.Machine.execCall at' w s
  | .callx at' w => Sys2Proof.Machine.execCallx at' w s
  | .exit at' w => Sys2Proof.Machine.execExit at' w s
  | .trap at' w => Sys2Proof.Machine.execTrap at' w s
  | .exceptionDrainComplete core => Sys2Proof.Machine.execExceptionDrainComplete core s
  | .fstatrd at' w => Sys2Proof.Machine.execFstatrd at' w s
  | .fstatclr at' w => Sys2Proof.Machine.execFstatclr at' w s
  | .missue at' w => Sys2Proof.Machine.execMissue at' w s
  | .mwait at' w => Sys2Proof.Machine.execMwait at' w s
  | .mtxOperationStart core id => Sys2Proof.Machine.execMtxOperationStart core id s
  | .mma core id steps => Sys2Proof.Machine.execMma core id steps s
  | .read core id => Sys2Proof.Machine.execRead core id s
  | .readraw core id => Sys2Proof.Machine.execReadraw core id s
  | .load core id => Sys2Proof.Machine.execLoad core id s
  | .mtxOperationComplete core id => Sys2Proof.Machine.execMtxOperationComplete core id s
  | .limiterFrameBoundary half beats => Sys2Proof.Machine.execLimiterFrameBoundary half beats s
  | .ssend at' w => Sys2Proof.Machine.execSsend at' w s
  | .srecv at' w => Sys2Proof.Machine.execSrecv at' w s
  | .ssendm at' w => Sys2Proof.Machine.execSsendm at' w s
  | .srecvm at' w => Sys2Proof.Machine.execSrecvm at' w s
  | .bwait at' w => Sys2Proof.Machine.execBwait at' w s
  | .sluiceMessageArrival slot dst dport late bad => Sys2Proof.Machine.execSluiceMessageArrival slot dst dport late bad s
  | .sluiceCreditReturn slot dst dport => Sys2Proof.Machine.execSluiceCreditReturn slot dst dport s
  | .sluiceStallTimeout core group => Sys2Proof.Machine.execSluiceStallTimeout core group s
  | .pipeRecordClear slot v => Sys2Proof.Machine.execPipeRecordClear slot v s
  | .slShareWrite p v => Sys2Proof.Machine.execSlShareWrite p v s
  | .coreBlockDispatch launch core => Sys2Proof.Machine.execCoreBlockDispatch launch core s
  | .coreBlockComplete core => Sys2Proof.Machine.execCoreBlockComplete core s
  | .storeBufferEntryClose core serial => Sys2Proof.Machine.execStoreBufferEntryClose core serial s
  | .storeBufferEntryDrain core => Sys2Proof.Machine.execStoreBufferEntryDrain core s
  | .remoteWriteEntryClose core line => Sys2Proof.Machine.execRemoteWriteEntryClose core line s
  | .corePowerGate core => Sys2Proof.Machine.execCorePowerGate core s
  | .coreUngate core => Sys2Proof.Machine.execCoreUngate core s
  | .rdShared id err => Sys2Proof.Machine.execRdShared id err s
  | .directoryRebuildComplete slice set => Sys2Proof.Machine.execDirectoryRebuildComplete slice set s
  | .rdOwn id err => Sys2Proof.Machine.execRdOwn id err s
  | .upgrade id err => Sys2Proof.Machine.execUpgrade id err s
  | .wbDirty cluster line link => Sys2Proof.Machine.execWbDirty cluster line link s
  | .wbClean cluster line => Sys2Proof.Machine.execWbClean cluster line s
  | .rdOnce agent unit addr err => Sys2Proof.Machine.execRdOnce agent unit addr err s
  | .rdNarrow id err => Sys2Proof.Machine.execRdNarrow id err s
  | .wrLine agent unit line err data link => Sys2Proof.Machine.execWrLine agent unit line err data link s
  | .wrPart agent unit addr err data link => Sys2Proof.Machine.execWrPart agent unit addr err data link s
  | .atomic id err link => Sys2Proof.Machine.execAtomic id err link s
  | .red id waited err link => Sys2Proof.Machine.execRed id waited err link s
  | .reductionBufferApply line => Sys2Proof.Machine.execReductionBufferApply line s
  | .snpShare cluster line crossed => Sys2Proof.Machine.execSnpShare cluster line crossed s
  | .snpInv cluster line crossed => Sys2Proof.Machine.execSnpInv cluster line crossed s
  | .snpMove cluster line crossed => Sys2Proof.Machine.execSnpMove cluster line crossed s
  | .snpPeek cluster line crossed => Sys2Proof.Machine.execSnpPeek cluster line crossed s
  | .snpRecall cluster line crossed => Sys2Proof.Machine.execSnpRecall cluster line crossed s
  | .snoopReply cluster line link => Sys2Proof.Machine.execSnoopReply cluster line link s
  | .wbAck cluster line => Sys2Proof.Machine.execWbAck cluster line s
  | .clusterFillResponse cluster line victim link => Sys2Proof.Machine.execClusterFillResponse cluster line victim link s
  | .homeTransactionComplete line => Sys2Proof.Machine.execHomeTransactionComplete line s
  | .memoryReadResponse line errs recent link => Sys2Proof.Machine.execMemoryReadResponse line errs recent link s
  | .narrowReadResponse line err link => Sys2Proof.Machine.execNarrowReadResponse line err link s
  | .streamTrackerExpiry cluster last => Sys2Proof.Machine.execStreamTrackerExpiry cluster last s
  | .csPsliceWrite p w v => Sys2Proof.Machine.execCsPsliceWrite p w v s
  | .csHomemapWrite c v => Sys2Proof.Machine.execCsHomemapWrite c v s
  | .rehomeComplete => Sys2Proof.Machine.execRehomeComplete s
  | .pinwaysWrite p v => Sys2Proof.Machine.execPinwaysWrite p v s
  | .csFlush p => Sys2Proof.Machine.execCsFlush p s
  | .flushComplete p => Sys2Proof.Machine.execFlushComplete p s
  | .pin p => Sys2Proof.Machine.execPin p s
  | .unpinRange p => Sys2Proof.Machine.execUnpinRange p s
  | .unpinAll p => Sys2Proof.Machine.execUnpinAll p s
  | .pinOperationComplete p recent => Sys2Proof.Machine.execPinOperationComplete p recent s
  | .sliceCopyComplete slice => Sys2Proof.Machine.execSliceCopyComplete slice s
  | .rowIdleClose channel bank => Sys2Proof.Machine.execRowIdleClose channel bank s
  | .refresh channel bank => Sys2Proof.Machine.execRefresh channel bank s
  | .refreshBandFall stack => Sys2Proof.Machine.execRefreshBandFall stack s
  | .channelResponseTimeout channel retrain => Sys2Proof.Machine.execChannelResponseTimeout channel retrain s
  | .patrolScrubRead addr err => Sys2Proof.Machine.execPatrolScrubRead addr err s
  | .rowRemapComplete row bad => Sys2Proof.Machine.execRowRemapComplete row bad s
  | .mcEvacRequest ch => Sys2Proof.Machine.execMcEvacRequest ch s
  | .evacSpareTrained stack ok => Sys2Proof.Machine.execEvacSpareTrained stack ok s
  | .evacRowCopy stack bad => Sys2Proof.Machine.execEvacRowCopy stack bad s
  | .mcWindowBoundary channel => Sys2Proof.Machine.execMcWindowBoundary channel s
  | .mcRegWrite p v => Sys2Proof.Machine.execMcRegWrite p v s
  | .pumpBlockDecode cmd => Sys2Proof.Machine.execPumpBlockDecode cmd s
  | .pumpTargetDrop cmd entry => Sys2Proof.Machine.execPumpTargetDrop cmd entry s
  | .gatherListEntry cmd => Sys2Proof.Machine.execGatherListEntry cmd s
  | .accessTimeout cmd => Sys2Proof.Machine.execAccessTimeout cmd s
  | .pumpLighterCommandComplete cmd charge => Sys2Proof.Machine.execPumpLighterCommandComplete cmd charge s
  | .pumpLighterRestart cmd => Sys2Proof.Machine.execPumpLighterRestart cmd s
  | .commandFetch queue parent err cover data => Sys2Proof.Machine.execCommandFetch queue parent err cover data s
  | .cmdNop cmd => Sys2Proof.Machine.execCmdNop cmd s
  | .launch cmd => Sys2Proof.Machine.execLaunch cmd s
  | .launchGraph cmd => Sys2Proof.Machine.execLaunchGraph cmd s
  | .graphDefine cmd => Sys2Proof.Machine.execGraphDefine cmd s
  | .graphPatch cmd => Sys2Proof.Machine.execGraphPatch cmd s
  | .graphDelete cmd => Sys2Proof.Machine.execGraphDelete cmd s
  | .copy cmd => Sys2Proof.Machine.execCopy cmd s
  | .fill cmd => Sys2Proof.Machine.execFill cmd s
  | .pumpStream cmd => Sys2Proof.Machine.execPumpStream cmd s
  | .pumpGather cmd => Sys2Proof.Machine.execPumpGather cmd s
  | .waitMemory cmd => Sys2Proof.Machine.execWaitMemory cmd s
  | .waitQueue cmd => Sys2Proof.Machine.execWaitQueue cmd s
  | .waitReread cmd => Sys2Proof.Machine.execWaitReread cmd s
  | .signal cmd => Sys2Proof.Machine.execSignal cmd s
  | .cmdFence cmd => Sys2Proof.Machine.execCmdFence cmd s
  | .condBegin cmd => Sys2Proof.Machine.execCondBegin cmd s
  | .condElse cmd => Sys2Proof.Machine.execCondElse cmd s
  | .condEnd cmd => Sys2Proof.Machine.execCondEnd cmd s
  | .loopBegin cmd => Sys2Proof.Machine.execLoopBegin cmd s
  | .loopEnd cmd => Sys2Proof.Machine.execLoopEnd cmd s
  | .cmdCall cmd => Sys2Proof.Machine.execCmdCall cmd s
  | .berthPost cmd => Sys2Proof.Machine.execBerthPost cmd s
  | .snapshot cmd => Sys2Proof.Machine.execSnapshot cmd s
  | .fabricPut cmd => Sys2Proof.Machine.execFabricPut cmd s
  | .fabricGet cmd => Sys2Proof.Machine.execFabricGet cmd s
  | .regulateMcReg cmd => Sys2Proof.Machine.execRegulateMcReg cmd s
  | .regulateFabric cmd => Sys2Proof.Machine.execRegulateFabric cmd s
  | .regulatePowerLimit cmd => Sys2Proof.Machine.execRegulatePowerLimit cmd s
  | .regulateSlShare cmd => Sys2Proof.Machine.execRegulateSlShare cmd s
  | .configSelectCurrent cmd => Sys2Proof.Machine.execConfigSelectCurrent cmd s
  | .configSelectPrevious cmd => Sys2Proof.Machine.execConfigSelectPrevious cmd s
  | .configSelectFactory cmd => Sys2Proof.Machine.execConfigSelectFactory cmd s
  | .commandComplete cmd => Sys2Proof.Machine.execCommandComplete cmd s
  | .headShadowRead q err value => Sys2Proof.Machine.execHeadShadowRead q err value s
  | .commandWatchdogExpiry cmd => Sys2Proof.Machine.execCommandWatchdogExpiry cmd s
  | .guiltyResetComplete queue => Sys2Proof.Machine.execGuiltyResetComplete queue s
  | .npOverrunLimit ctx => Sys2Proof.Machine.execNpOverrunLimit ctx s
  | .queueEnable q => Sys2Proof.Machine.execQueueEnable q s
  | .queueDisable q => Sys2Proof.Machine.execQueueDisable q s
  | .queueReset q => Sys2Proof.Machine.execQueueReset q s
  | .queueOwnerWrite q v => Sys2Proof.Machine.execQueueOwnerWrite q v s
  | .berthConfigWrite b own v => Sys2Proof.Machine.execBerthConfigWrite b own v s
  | .gstoreWrite p size v => Sys2Proof.Machine.execGstoreWrite p size v s
  | .wholeDeviceReset => Sys2Proof.Machine.execWholeDeviceReset s
  | .cpWatchdogExpiry => Sys2Proof.Machine.execCpWatchdogExpiry s
  | .wholeDeviceResetComplete => Sys2Proof.Machine.execWholeDeviceResetComplete s
  | .partitionConfigWrite p reg v => Sys2Proof.Machine.execPartitionConfigWrite p reg v s
  | .contextCreate c v => Sys2Proof.Machine.execContextCreate c v s
  | .contextDestroy c v => Sys2Proof.Machine.execContextDestroy c v s
  | .contextTear c => Sys2Proof.Machine.execContextTear c s
  | .teardownComplete ctx run pump lighter sw np => Sys2Proof.Machine.execTeardownComplete ctx run pump lighter sw np s
  | .timeSliceEnd ctx clocks => Sys2Proof.Machine.execTimeSliceEnd ctx clocks s
  | .preemptionDrainComplete ctx run extra => Sys2Proof.Machine.execPreemptionDrainComplete ctx run extra s
  | .saveComplete ctx clocks => Sys2Proof.Machine.execSaveComplete ctx clocks s
  | .restoreComplete ctx clocks => Sys2Proof.Machine.execRestoreComplete ctx clocks s
  | .functionBindWrite v val => Sys2Proof.Machine.execFunctionBindWrite v val s
  | .vfFlr v => Sys2Proof.Machine.execVfFlr v s
  | .vfFlrComplete v => Sys2Proof.Machine.execVfFlrComplete v s
  | .pfFlr => Sys2Proof.Machine.execPfFlr s
  | .vfEnableClear => Sys2Proof.Machine.execVfEnableClear s
  | .migrationFreeze vf => Sys2Proof.Machine.execMigrationFreeze vf s
  | .migrationFreezeComplete vf => Sys2Proof.Machine.execMigrationFreezeComplete vf s
  | .migrationSave vf => Sys2Proof.Machine.execMigrationSave vf s
  | .migrationRestore vf => Sys2Proof.Machine.execMigrationRestore vf s
  | .migrationThaw vf => Sys2Proof.Machine.execMigrationThaw vf s
  | .dirtyLogSync v => Sys2Proof.Machine.execDirtyLogSync v s
  | .dirtyLogSyncDone => Sys2Proof.Machine.execDirtyLogSyncDone s
  | .dataFlit port fec lanes flit => Sys2Proof.Machine.execDataFlit port fec lanes flit s
  | .idleFlit port flit => Sys2Proof.Machine.execIdleFlit port flit s
  | .retryRequest port flit => Sys2Proof.Machine.execRetryRequest port flit s
  | .creditInitialisation port flit => Sys2Proof.Machine.execCreditInitialisation port flit s
  | .rd port link => Sys2Proof.Machine.execRd port link s
  | .wr port link => Sys2Proof.Machine.execWr port link s
  | .sig port link => Sys2Proof.Machine.execSig port link s
  | .rdr port link => Sys2Proof.Machine.execRdr port link s
  | .ack port => Sys2Proof.Machine.execAck port s
  | .nak port => Sys2Proof.Machine.execNak port s
  | .retransmitTimeout write chip n => Sys2Proof.Machine.execRetransmitTimeout write chip n s
  | .fabricGiveUp write chip n => Sys2Proof.Machine.execFabricGiveUp write chip n s
  | .gapCloseTimeout chip => Sys2Proof.Machine.execGapCloseTimeout chip s
  | .fabricWindowBoundary port => Sys2Proof.Machine.execFabricWindowBoundary port s
  | .portEnable port pmd => Sys2Proof.Machine.execPortEnable port pmd s
  | .portDisable port pmd => Sys2Proof.Machine.execPortDisable port pmd s
  | .portTrained port => Sys2Proof.Machine.execPortTrained port s
  | .trainingAttemptFailed port lanes spareOk => Sys2Proof.Machine.execTrainingAttemptFailed port lanes spareOk s
  | .portRetrained port => Sys2Proof.Machine.execPortRetrained port s
  | .recoveryTimeout port => Sys2Proof.Machine.execRecoveryTimeout port s
  | .fabricIdWrite conn v => Sys2Proof.Machine.execFabricIdWrite conn v s
  | .fabricRegWrite p v => Sys2Proof.Machine.execFabricRegWrite p v s
  | .controlInterval acts got => Sys2Proof.Machine.execControlInterval acts got s
  | .followerDecisionMissed => Sys2Proof.Machine.execFollowerDecisionMissed s
  | .railReading rail mv amps err => Sys2Proof.Machine.execRailReading rail mv amps err s
  | .voltageAck die => Sys2Proof.Machine.execVoltageAck die s
  | .voltageAckTimeout die => Sys2Proof.Machine.execVoltageAckTimeout die s
  | .dividerSwitch die => Sys2Proof.Machine.execDividerSwitch die s
  | .droopDetected die half mv => Sys2Proof.Machine.execDroopDetected die half mv s
  | .droopWindowClear die half skipped => Sys2Proof.Machine.execDroopWindowClear die half skipped s
  | .temperatureConversion point t => Sys2Proof.Machine.execTemperatureConversion point t s
  | .hotClear die => Sys2Proof.Machine.execHotClear die s
  | .sensorUpdateTimeout point => Sys2Proof.Machine.execSensorUpdateTimeout point s
  | .pkgLimitWrite v => Sys2Proof.Machine.execPkgLimitWrite v s
  | .vtabWrite v => Sys2Proof.Machine.execVtabWrite v s
  | .firmwareUpdate => Sys2Proof.Machine.execFirmwareUpdate s
  | .configurationUpdate => Sys2Proof.Machine.execConfigurationUpdate s
  | .ownerRecordUpdate => Sys2Proof.Machine.execOwnerRecordUpdate s
  | .otherFirmwareSlot => Sys2Proof.Machine.execOtherFirmwareSlot s
  | .flashUpdateComplete flashOk => Sys2Proof.Machine.execFlashUpdateComplete flashOk s
  | .bootLockSet => Sys2Proof.Machine.execBootLockSet s
  | .recoveryWrite off data wellFormed flashOk => Sys2Proof.Machine.execRecoveryWrite off data wellFormed flashOk s
  | .recoveryFinish wellFormed flashOk => Sys2Proof.Machine.execRecoveryFinish wellFormed flashOk s
  | .recoveryStatus wellFormed => Sys2Proof.Machine.execRecoveryStatus wellFormed s
  | .getVersion b req => Sys2Proof.Machine.execGetVersion b req s
  | .getCapabilities b req => Sys2Proof.Machine.execGetCapabilities b req s
  | .negotiateAlgorithms b req => Sys2Proof.Machine.execNegotiateAlgorithms b req s
  | .getDigests b req => Sys2Proof.Machine.execGetDigests b req s
  | .getCertificate b off len req => Sys2Proof.Machine.execGetCertificate b off len req s
  | .challenge b slot nonce req => Sys2Proof.Machine.execChallenge b slot nonce req s
  | .getMeasurements b op signed nonce req => Sys2Proof.Machine.execGetMeasurements b op signed nonce req s
  | .spdmUnsupportedRequest b malformed req => Sys2Proof.Machine.execSpdmUnsupportedRequest b malformed req s
  | .cvInit k => Sys2Proof.Machine.execCvInit k s
  | .cvRegionFeed k => Sys2Proof.Machine.execCvRegionFeed k s
  | .cvFeedComplete k => Sys2Proof.Machine.execCvFeedComplete k s
  | .cvData k wide v => Sys2Proof.Machine.execCvData k wide v s
  | .cvTail k v => Sys2Proof.Machine.execCvTail k v s
  | .cvStateWrite k v => Sys2Proof.Machine.execCvStateWrite k v s
  | .retireRequest v => Sys2Proof.Machine.execRetireRequest v s
  | .spareSelfTestDone cluster ok => Sys2Proof.Machine.execSpareSelfTestDone cluster ok s
  | .clusterCacheEvacuated cluster => Sys2Proof.Machine.execClusterCacheEvacuated cluster s
  | .repairRecordUpdate host => Sys2Proof.Machine.execRepairRecordUpdate host s
  | .repairRecordUpdateComplete follower ok0 ok1 => Sys2Proof.Machine.execRepairRecordUpdateComplete follower ok0 ok1 s
  | .eventRecordWrite => Sys2Proof.Machine.execEventRecordWrite s
  | .logEnableWrite func l v => Sys2Proof.Machine.execLogEnableWrite func l v s
  | .logReadPointerWrite func l v => Sys2Proof.Machine.execLogReadPointerWrite func l v s
  | .snapshotRequest => Sys2Proof.Machine.execSnapshotRequest s
  | .snapshotFreezeToken unit => Sys2Proof.Machine.execSnapshotFreezeToken unit s
  | .snapshotComplete => Sys2Proof.Machine.execSnapshotComplete s
  | .snapshotAckTimeout unit => Sys2Proof.Machine.execSnapshotAckTimeout unit s
  | .bypass tdi => Sys2Proof.Machine.execBypass tdi s
  | .idcode tdi => Sys2Proof.Machine.execIdcode tdi s
  | .samplePreload pins load => Sys2Proof.Machine.execSamplePreload pins load s
  | .extest pins load => Sys2Proof.Machine.execExtest pins load s
  | .clamp tdi => Sys2Proof.Machine.execClamp tdi s
  | .highz tdi => Sys2Proof.Machine.execHighz tdi s
  | .diesel sel => Sys2Proof.Machine.execDiesel sel s
  | .ijtag die instr write off v n => Sys2Proof.Machine.execIjtag die instr write off v n s
  | .attach ctx hold => Sys2Proof.Machine.execAttach ctx hold s
  | .detach ctx hold => Sys2Proof.Machine.execDetach ctx hold s
  | .halt ctx hold => Sys2Proof.Machine.execHalt ctx hold s
  | .resume ctx hold => Sys2Proof.Machine.execResume ctx hold s
  | .step ctx hold => Sys2Proof.Machine.execStep ctx hold s
  | .debugAccessRead mod => Sys2Proof.Machine.execDebugAccessRead mod s
  | .debugAccessWrite v => Sys2Proof.Machine.execDebugAccessWrite v s
  | .guiltyResetBoundMissed queue => Sys2Proof.Machine.execGuiltyResetBoundMissed queue s
  | .lossOfFecAlignment port => Sys2Proof.Machine.execLossOfFecAlignment port s
  | .partnerRetrainingRequest port => Sys2Proof.Machine.execPartnerRetrainingRequest port s
  | .railReadingTimeout rail => Sys2Proof.Machine.execRailReadingTimeout rail s
  | .commandParityError channel => Sys2Proof.Machine.execCommandParityError channel s
  | .mctpReassemblyTimeout => Sys2Proof.Machine.execMctpReassemblyTimeout s
  | .dynamicAddressAssignment addr => Sys2Proof.Machine.execDynamicAddressAssignment addr s
  | .supplyReturn supply => Sys2Proof.Machine.execSupplyReturn supply s
  | .clusterBarrierRelease cluster num => Sys2Proof.Machine.execClusterBarrierRelease cluster num s

end Sys2Proof.Machine
end

