-- ==== Sys2Proof/Safety.lean ====
section
/-! DEFINITION. What a safe step and a sound state are, in the terms that statements use. -/

namespace Sys2Proof.Machine

/-- The register file is in canonical form: offsets strictly rising, no entry equal to its register's reset value. -/
def Regs.wf (r : Tab (BitVec 64)) : Bool := tabWf regReset r

/-- Local memory and the register file are in canonical form, so that equal contents are equal data. -/
def State.Canonical (s : State) : Prop := Memory.wf s.mem = true ∧ Regs.wf s.regs = true

/-- The command has its effect, neither a fault nor a refusal, and `P` holds of the next state. -/
def After (c : Instr) (s : State) (P : State → Prop) : Prop := ∃ t, exec c s = .next t ∧ P t

/-! ### Board inputs -/

/-- The filter of an input on one more raw sample: the filtered value and whether chatter is in force (R555). -/
def State.pinNow (s : State) (p : Pin) (raw : Bool) : Bool × Bool :=
  pinNext ((raw :: s.pinSamples p).take 100) (s.pinFilt p) (s.pinChatter p)

/-- The machine that shows a sample in the input's registers and has not acted on it (R558). -/
def State.pinShown (s : State) (p : Pin) (raw : Bool) : State :=
  s.pinShow p ((raw :: s.pinSamples p).take 100) (s.pinNow p raw)

/-! ### Instructions of the cores -/

/-- The class, opcode and issue of a core instruction's command (R184 to R204). -/
def coreRow : Instr → Option (Nat × Nat × Issue × BitVec 128)
  | .mov at' w => some (1, 0x01, at', w)
  | .add at' w => some (1, 0x02, at', w)
  | .sub at' w => some (1, 0x03, at', w)
  | .addc at' w => some (1, 0x04, at', w)
  | .mul at' w => some (1, 0x05, at', w)
  | .mulhi at' w => some (1, 0x06, at', w)
  | .mad at' w => some (1, 0x07, at', w)
  | .and at' w => some (1, 0x08, at', w)
  | .or at' w => some (1, 0x09, at', w)
  | .xor at' w => some (1, 0x0A, at', w)
  | .not at' w => some (1, 0x0B, at', w)
  | .shl at' w => some (1, 0x0C, at', w)
  | .shr at' w => some (1, 0x0D, at', w)
  | .min at' w => some (1, 0x0E, at', w)
  | .max at' w => some (1, 0x0F, at', w)
  | .setp at' w => some (1, 0x10, at', w)
  | .sel at' w => some (1, 0x11, at', w)
  | .plop at' w => some (1, 0x12, at', w)
  | .popc at' w => some (1, 0x13, at', w)
  | .clz at' w => some (1, 0x14, at', w)
  | .shfl at' w => some (1, 0x15, at', w)
  | .vote at' w => some (1, 0x16, at', w)
  | .lred at' w => some (1, 0x17, at', w)
  | .fadd at' w => some (2, 0x01, at', w)
  | .fmul at' w => some (2, 0x02, at', w)
  | .ffma at' w => some (2, 0x03, at', w)
  | .fmin at' w => some (2, 0x04, at', w)
  | .fmax at' w => some (2, 0x05, at', w)
  | .fsetp at' w => some (2, 0x06, at', w)
  | .cvt at' w => some (3, 0x01, at', w)
  | .sfu at' w => some (3, 0x02, at', w)
  | .umov at' w => some (8, 0x01, at', w)
  | .uadd at' w => some (8, 0x02, at', w)
  | .usub at' w => some (8, 0x03, at', w)
  | .uand at' w => some (8, 0x04, at', w)
  | .uor at' w => some (8, 0x05, at', w)
  | .uxor at' w => some (8, 0x06, at', w)
  | .ushl at' w => some (8, 0x07, at', w)
  | .ushr at' w => some (8, 0x08, at', w)
  | .umul at' w => some (8, 0x09, at', w)
  | .ufirst at' w => some (8, 0x0A, at', w)
  | .ld8u at' w => some (4, 0x01, at', w)
  | .ld8s at' w => some (4, 0x02, at', w)
  | .ld16u at' w => some (4, 0x03, at', w)
  | .ld16s at' w => some (4, 0x04, at', w)
  | .ld32 at' w => some (4, 0x05, at', w)
  | .ld64 at' w => some (4, 0x06, at', w)
  | .ld128 at' w => some (4, 0x07, at', w)
  | .st8 at' w => some (4, 0x11, at', w)
  | .st16 at' w => some (4, 0x13, at', w)
  | .st32 at' w => some (4, 0x15, at', w)
  | .st64 at' w => some (4, 0x16, at', w)
  | .st128 at' w => some (4, 0x17, at', w)
  | .atom at' w => some (5, 0x01, at', w)
  | .atoms at' w => some (5, 0x02, at', w)
  | .ldr at' w => some (5, 0x03, at', w)
  | .stc at' w => some (5, 0x04, at', w)
  | .fence at' w => some (6, 0x01, at', w)
  | .ffence at' w => some (6, 0x02, at', w)
  | .bar at' w => some (6, 0x03, at', w)
  | .nop at' w => some (7, 0x01, at', w)
  | .bra at' w => some (7, 0x02, at', w)
  | .brx at' w => some (7, 0x03, at', w)
  | .call at' w => some (7, 0x04, at', w)
  | .callx at' w => some (7, 0x05, at', w)
  | .exit at' w => some (7, 0x06, at', w)
  | .trap at' w => some (7, 0x07, at', w)
  | .fstatrd at' w => some (7, 0x08, at', w)
  | .fstatclr at' w => some (7, 0x09, at', w)
  | .missue at' w => some (9, 0x01, at', w)
  | .mwait at' w => some (9, 0x02, at', w)
  | .ssend at' w => some (10, 0x01, at', w)
  | .srecv at' w => some (10, 0x02, at', w)
  | .ssendm at' w => some (10, 0x03, at', w)
  | .srecvm at' w => some (10, 0x04, at', w)
  | .bwait at' w => some (10, 0x05, at', w)
  | _ => none

/-- A legal word of row (class, opcode) issues as the operation `o`: the site names a fragment of a core block that may
issue and whose turn it is, its fetch translates, no breakpoint stands there, no error is found, and the guard lets some thread execute (R151, R177, R181, R183). -/
structure Issues (s : State) (cls op : Nat) (at' : Issue) (w : BitVec 128) (o : Op) : Prop where
  site : o.core = at'.core ∧ o.group = at'.group ∧ o.pc = at'.pc ∧ o.w = w.toNat
  good : at'.bad = none
  running : s.running = true
  block : (s.core o.core).blk = some o.blk
  free : (s.core o.core).canIssue = true
  turn : (s.core o.core).turn at' = true
  noBreak : s.dbg.target = some o.blk.ctx → s.breakHit o.pc = none
  all : (s.core o.core).fragment o.group o.pc = o.all
  ex : o.all.filter (guardOk (s.core o.core) o.w) = o.ex
  some : o.ex ≠ []
  fetched : ∃ p pa, s.xlate o.core o.blk.ctx o.pc .fetch = .ok p pa
  row : wClass o.w = cls ∧ wOp o.w = op
  legal : opDefined cls op o.w = true ∧ legal o.w = true

/-- The program counters of the issue's threads have moved on by 16, and no other thread's (R181). -/
def Moved (o : Op) (k k' : Core) : Prop :=
  ∀ th, k'.thPc th = if th ∈ o.all then (k.thPc th + 16) % 2 ^ 64 else k.thPc th

/-- The issue has been counted for its group and its threads, and nothing else of the counts has changed (R157). -/
def Counted (o : Op) (k k' : Core) : Prop :=
  k'.turns = (k.counted o.group o.all).turns ∧ k'.lastTurn = (k.counted o.group o.all).lastTurn

/-- Only the core of the operation has changed, and there, beside what `P` says, the program counters and the counts of issues
alone: `keep` puts back the parts that `P` speaks of. -/
def OnCore (o : Op) (s t : State) (keep : Core → Core → Core) (P : Core → Core → Prop) : Prop :=
  ∃ k', t = s.setCore o.core k' ∧ P (s.core o.core) k' ∧ Moved o (s.core o.core) k' ∧ Counted o (s.core o.core) k' ∧
    keep (s.core o.core) { k' with pc := (s.core o.core).pc, turns := (s.core o.core).turns, lastTurn := (s.core o.core).lastTurn } =
      s.core o.core

/-- Every executing thread's n registers from D hold `f` of it, and every other register is as it was (R150, R186). -/
def LaneRegs (o : Op) (n : Nat) (f : Nat → Nat) (k k' : Core) : Prop :=
  (∀ th ∈ o.ex, k'.regs th (wD o.w) n = f th % 2 ^ (32 * n)) ∧
  ∀ th r, r < 256 → ¬(th ∈ o.ex ∧ wD o.w ≤ r ∧ r < wD o.w + n) → k'.reg th r = k.reg th r

/-- Every executing thread's predicate i holds `f` of it, and every other predicate is as it was. -/
def LanePreds (o : Op) (i : Nat) (f : Nat → Bool) (k k' : Core) : Prop :=
  (∀ th ∈ o.ex, k'.pred th i = f th) ∧ ∀ th j, j < 8 → ¬(th ∈ o.ex ∧ j = i) → k'.pred th j = k.pred th j

/-- The flags that the executing threads raise join the group's FSTAT; other groups' stay (R79). -/
def LaneFlags (o : Op) (f : Nat → Nat) (k k' : Core) : Prop :=
  k'.flags o.group = o.ex.foldl (fun a th => a ||| f th) (k.flags o.group) ∧ ∀ g, g ≠ o.group → k'.flags g = k.flags g

/-- The n registers of every executing thread take `f` of it; nothing else changes but program counters. -/
def Writes (o : Op) (n : Nat) (f : Nat → Nat) (s t : State) : Prop :=
  OnCore o s t (fun k k' => { k' with t := k.t }) (LaneRegs o n f)

/-- Predicate D of every executing thread takes `f` of it; nothing else changes but program counters. -/
def WritesPred (o : Op) (f : Nat → Bool) (s t : State) : Prop :=
  OnCore o s t (fun k k' => { k' with p := k.p }) (LanePreds o (wD o.w) f)

/-- As `Writes`, with the flags that each thread raises. -/
def WritesFlags (o : Op) (n : Nat) (f : Nat → Nat × Nat) (s t : State) : Prop :=
  OnCore o s t (fun k k' => { k' with t := k.t, fstat := k.fstat }) fun k k' =>
    LaneRegs o n (fun th => (f th).1) k k' ∧ LaneFlags o (fun th => (f th).2) k k'

/-- Uniform register r of the group takes a value; nothing else changes but program counters (R193). -/
def WritesUniform (o : Op) (v : Word) (s t : State) : Prop :=
  OnCore o s t (fun k k' => { k' with u := k.u }) fun k k' =>
    k'.ureg o.group (wD o.w) = v ∧ ∀ g r, r < 64 → ¬(g = o.group ∧ r = wD o.w) → k'.ureg g r = k.ureg g r

/-- Nothing but the core of the operation has changed, and of it only program counters, the counts of issues and what `keep`
puts back. -/
def OnlyCore (o : Op) (s t : State) (keep : Core → Core → Core) : Prop :=
  t = { s with cores := t.cores } ∧ (∀ c, c ≠ o.core → t.core c = s.core c) ∧
  keep (s.core o.core) { t.core o.core with pc := (s.core o.core).pc, turns := (s.core o.core).turns, lastTurn := (s.core o.core).lastTurn } =
    s.core o.core

/-! ### Commands of the front end -/

/-- A command of the front end stands fetched and may start (R364, R365); between steps no read is stalled. -/
def Startable (s : State) (op : Nat) (c : Cmd) : Prop :=
  s.cmd c.id = some c ∧ c.op = op ∧ s.mayStart c = true ∧ s.coh.stalled = false

/-- The command has started, and is over with status 0 and a result. -/
def Done (c : Cmd) (r : Nat) (t : State) : Prop :=
  t.cmd c.id = some { c with started := true, ended := true, status := 0, source := 0, result := r }

/-- Nothing has changed but the front end's commands. -/
def OnlyCmds (s t : State) : Prop := t = { s with fe := { s.fe with cmds := t.fe.cmds } }

end Sys2Proof.Machine
end

