-- ==== Sys2Proof/WellFormed.lean ====
section
/-! DEFINITION. Well-formed commands: operands inside the ranges that the spec gives the device (cores, clusters,
partitions, contexts, queues, ports, dies, register offsets). A meaning does not rely on them: outside its range a command
finds nothing to act on. -/

namespace Sys2Proof

open Machine

/-- A fragment stands on a core of 1,024, in a group of 16, at a 52-bit program counter (R149, R152). -/
def issueOk (i : Machine.Issue) : Bool := decide (i.core < 1024) && decide (i.group < 16) && decide (i.pc < 2 ^ 52)

/-- Operands inside their ranges. -/
def Instr.wf : Instr → Bool
  | .endOfReset _ => true
  | .pllLocked _ => true
  | .romSelfTestDone _ _ => true
  | .leadDecision _ => true
  | .firmwareVerified _ _ _ _ _ => true
  | .ucieTrained mods => mods.all (· < 8)
  | .interconnectTestDone _ _ => true
  | .repairRecordRead _ _ => true
  | .selfTestDone _ noPath _ => noPath.all (· < 24)
  | .configurationApply => true
  | .memoryClearComplete => true
  | .deviceReady _ => true
  | .pcieConfigRequest mod func word _ _ => decide (mod < 8) && decide (func < 64) && decide (word < 1024)
  | .pwrGoodAssert _ => true
  | .pwrGoodDeassert _ => true
  | .pkgResetAssert _ => true
  | .coolantFaultAssert _ => true
  | .coolantFaultDeassert _ => true
  | .vrAlertAssert _ => true
  | .vrAlertDeassert _ => true
  | .vrAlertHoldEnd => true
  | .tapReset _ => true
  | .inputChatterStart _ _ => true
  | .inputChatterEnd _ _ => true
  | .inputStuck _ => true
  | .supplyOutOfRange supply _ => decide (supply < 17)
  | .refclkLoss => true
  | .refclkRecovered => true
  | .wearThresholdReached kind _ _ _ => decide (kind ≤ 6)
  | .wearWindowEnd => true
  | .substitutionDrainComplete phys => decide (phys < 2 ^ 32)
  | .substitutionTrainingResult phys _ => decide (phys < 2 ^ 32)
  | .ucieModuleFailure mod => decide (mod < 8)
  | .registerWrite func off width _ => decide (func < 64) && decide (off < 2 ^ 24) && decide (width = 4 ∨ width = 8)
  | .bar0UnsupportedAccess mod func off width _ => decide (mod < 8) && decide (func < 64) && decide (off < 2 ^ 24) && decide (width = 4 ∨ width = 8)
  | .doorbell func _ _ _ => decide (func < 64)
  | .bar4Read mod func _ _ _ => decide (mod < 8) && decide (func < 64)
  | .bar4Write func _ _ _ => decide (func < 64)
  | .hostWindowSync => true
  | .hostWindowSyncDone => true
  | .hostReadCompletion _ err _ _ => decide (err = 0 ∨ err = 0x13 ∨ err = 0x15)
  | .hostPostedWriteError _ => true
  | .hostCompletionTimeout _ => true
  | .d3hotEntry => true
  | .d0Return => true
  | .pageWalkEntryRead core _ => decide (core < 1024)
  | .faultLogClear func p _ => decide (func < 64) && decide (p < 16)
  | .xlatInvalidate func _ => decide (func < 64)
  | .xlatInvalidateDone func => decide (func < 64)
  | .mov at' _ => issueOk at'
  | .add at' _ => issueOk at'
  | .sub at' _ => issueOk at'
  | .addc at' _ => issueOk at'
  | .mul at' _ => issueOk at'
  | .mulhi at' _ => issueOk at'
  | .mad at' _ => issueOk at'
  | .and at' _ => issueOk at'
  | .or at' _ => issueOk at'
  | .xor at' _ => issueOk at'
  | .not at' _ => issueOk at'
  | .shl at' _ => issueOk at'
  | .shr at' _ => issueOk at'
  | .min at' _ => issueOk at'
  | .max at' _ => issueOk at'
  | .setp at' _ => issueOk at'
  | .sel at' _ => issueOk at'
  | .plop at' _ => issueOk at'
  | .popc at' _ => issueOk at'
  | .clz at' _ => issueOk at'
  | .shfl at' _ => issueOk at'
  | .vote at' _ => issueOk at'
  | .lred at' _ => issueOk at'
  | .fadd at' _ => issueOk at'
  | .fmul at' _ => issueOk at'
  | .ffma at' _ => issueOk at'
  | .fmin at' _ => issueOk at'
  | .fmax at' _ => issueOk at'
  | .fsetp at' _ => issueOk at'
  | .cvt at' _ => issueOk at'
  | .sfu at' _ => issueOk at'
  | .umov at' _ => issueOk at'
  | .uadd at' _ => issueOk at'
  | .usub at' _ => issueOk at'
  | .uand at' _ => issueOk at'
  | .uor at' _ => issueOk at'
  | .uxor at' _ => issueOk at'
  | .ushl at' _ => issueOk at'
  | .ushr at' _ => issueOk at'
  | .umul at' _ => issueOk at'
  | .ufirst at' _ => issueOk at'
  | .ld8u at' _ => issueOk at'
  | .ld8s at' _ => issueOk at'
  | .ld16u at' _ => issueOk at'
  | .ld16s at' _ => issueOk at'
  | .ld32 at' _ => issueOk at'
  | .ld64 at' _ => issueOk at'
  | .ld128 at' _ => issueOk at'
  | .st8 at' _ => issueOk at'
  | .st16 at' _ => issueOk at'
  | .st32 at' _ => issueOk at'
  | .st64 at' _ => issueOk at'
  | .st128 at' _ => issueOk at'
  | .atom at' _ => issueOk at'
  | .atoms at' _ => issueOk at'
  | .ldr at' _ => issueOk at'
  | .stc at' _ => issueOk at'
  | .fence at' _ => issueOk at'
  | .releaseComplete at' => issueOk at'
  | .ffence at' _ => issueOk at'
  | .ffenceComplete at' => issueOk at'
  | .bar at' _ => issueOk at'
  | .deviceBarrierArrival _ num _ => decide (num < 16)
  | .deviceBarrierRelease core num => decide (core < 1024) && decide (num < 16)
  | .barrierWatchdogExpiry core scope num => decide (core < 1024) && decide (scope < 3) && decide (num < 16)
  | .nop at' _ => issueOk at'
  | .bra at' _ => issueOk at'
  | .brx at' _ => issueOk at'
  | .call at' _ => issueOk at'
  | .callx at' _ => issueOk at'
  | .exit at' _ => issueOk at'
  | .trap at' _ => issueOk at'
  | .exceptionDrainComplete core => decide (core < 1024)
  | .fstatrd at' _ => issueOk at'
  | .fstatclr at' _ => issueOk at'
  | .missue at' _ => issueOk at'
  | .mwait at' _ => issueOk at'
  | .mtxOperationStart core _ => decide (core < 1024)
  | .mma core _ steps => decide (core < 1024) && decide (1 ≤ steps)
  | .read core _ => decide (core < 1024)
  | .readraw core _ => decide (core < 1024)
  | .load core _ => decide (core < 1024)
  | .mtxOperationComplete core _ => decide (core < 1024)
  | .limiterFrameBoundary half _ => decide (half < 16)
  | .ssend at' _ => issueOk at'
  | .srecv at' _ => issueOk at'
  | .ssendm at' _ => issueOk at'
  | .srecvm at' _ => issueOk at'
  | .bwait at' _ => issueOk at'
  | .sluiceMessageArrival slot dst dport _ _ => decide (slot < 64) && decide (dst < 1024) && decide (dport < 4)
  | .sluiceCreditReturn slot dst dport => decide (slot < 64) && decide (dst < 1024) && decide (dport < 4)
  | .sluiceStallTimeout core group => decide (core < 1024) && decide (group < 16)
  | .pipeRecordClear slot _ => decide (slot < 64)
  | .slShareWrite p _ => decide (p < 16)
  | .coreBlockDispatch _ core => decide (core < 1024)
  | .coreBlockComplete core => decide (core < 1024)
  | .storeBufferEntryClose core _ => decide (core < 1024)
  | .storeBufferEntryDrain core => decide (core < 1024)
  | .remoteWriteEntryClose core _ => decide (core < 1024)
  | .corePowerGate core => decide (core < 1024)
  | .coreUngate core => decide (core < 1024)
  | .rdShared _ _ => true
  | .directoryRebuildComplete slice set => decide (slice < 256) && decide (set < 2048)
  | .rdOwn _ _ => true
  | .upgrade _ _ => true
  | .wbDirty cluster line _ => decide (cluster < 128) && decide (line < localTop / 128)
  | .wbClean cluster line => decide (cluster < 128) && decide (line < localTop / 128)
  | .rdOnce agent _ addr _ => decide (1 ≤ agent ∧ agent ≤ 5) && decide (addr < localTop)
  | .rdNarrow _ _ => true
  | .wrLine agent _ line _ data _ => decide (1 ≤ agent ∧ agent ≤ 5) && decide (line < localTop / 128) && decide (data.length = 128)
  | .wrPart agent _ addr _ data _ => decide (1 ≤ agent ∧ agent ≤ 5) && decide (addr < localTop) && decide (data ≠ []) && decide (addr % 128 + data.length ≤ 128)
  | .atomic _ _ _ => true
  | .red _ _ _ _ => true
  | .reductionBufferApply line => decide (line < localTop / 128)
  | .snpShare cluster line _ => decide (cluster < 128) && decide (line < localTop / 128)
  | .snpInv cluster line _ => decide (cluster < 128) && decide (line < localTop / 128)
  | .snpMove cluster line _ => decide (cluster < 128) && decide (line < localTop / 128)
  | .snpPeek cluster line _ => decide (cluster < 128) && decide (line < localTop / 128)
  | .snpRecall cluster line _ => decide (cluster < 128) && decide (line < localTop / 128)
  | .snoopReply cluster line _ => decide (cluster < 128) && decide (line < localTop / 128)
  | .wbAck cluster line => decide (cluster < 128) && decide (line < localTop / 128)
  | .clusterFillResponse cluster line _ _ => decide (cluster < 128) && decide (line < localTop / 128)
  | .homeTransactionComplete line => decide (line < localTop / 128)
  | .memoryReadResponse line errs _ _ => decide (line < localTop / 128) && errs.all (fun e => decide (e.1 < 4))
  | .narrowReadResponse _ _ _ => true
  | .streamTrackerExpiry cluster _ => decide (cluster < 128)
  | .csPsliceWrite p w _ => decide (p < 16) && decide (w < 4)
  | .csHomemapWrite c _ => decide (c < 1024)
  | .rehomeComplete => true
  | .pinwaysWrite p _ => decide (p < 16)
  | .csFlush p => decide (p < 16)
  | .flushComplete p => decide (p < 16)
  | .pin p => decide (p < 16)
  | .unpinRange p => decide (p < 16)
  | .unpinAll p => decide (p < 16)
  | .pinOperationComplete p _ => decide (p < 16)
  | .sliceCopyComplete slice => decide (slice < 256)
  | .rowIdleClose channel bank => decide (channel < 1536) && decide (bank < 32)
  | .refresh channel bank => decide (channel < 1536) && decide (bank < 32)
  | .refreshBandFall stack => decide (stack < 12)
  | .channelResponseTimeout channel _ => decide (channel < 1536)
  | .patrolScrubRead addr err => decide (addr < localTop) && decide (err ≤ 20)
  | .rowRemapComplete _ _ => true
  | .mcEvacRequest ch => decide (ch < 1536)
  | .evacSpareTrained stack _ => decide (stack < 12)
  | .evacRowCopy stack _ => decide (stack < 12)
  | .mcWindowBoundary channel => decide (channel < 1536)
  | .mcRegWrite p _ => decide (p < 16)
  | .pumpBlockDecode _ => true
  | .pumpTargetDrop _ _ => true
  | .gatherListEntry _ => true
  | .accessTimeout _ => true
  | .pumpLighterCommandComplete _ _ => true
  | .pumpLighterRestart _ => true
  | .commandFetch queue _ _ _ data => decide (queue < 4096) && decide (data.length % 64 = 0)
  | .cmdNop _ => true
  | .launch _ => true
  | .launchGraph _ => true
  | .graphDefine _ => true
  | .graphPatch _ => true
  | .graphDelete _ => true
  | .copy _ => true
  | .fill _ => true
  | .pumpStream _ => true
  | .pumpGather _ => true
  | .waitMemory _ => true
  | .waitQueue _ => true
  | .waitReread _ => true
  | .signal _ => true
  | .cmdFence _ => true
  | .condBegin _ => true
  | .condElse _ => true
  | .condEnd _ => true
  | .loopBegin _ => true
  | .loopEnd _ => true
  | .cmdCall _ => true
  | .berthPost _ => true
  | .snapshot _ => true
  | .fabricPut _ => true
  | .fabricGet _ => true
  | .regulateMcReg _ => true
  | .regulateFabric _ => true
  | .regulatePowerLimit _ => true
  | .regulateSlShare _ => true
  | .configSelectCurrent _ => true
  | .configSelectPrevious _ => true
  | .configSelectFactory _ => true
  | .commandComplete _ => true
  | .headShadowRead q _ _ => decide (q < 4096)
  | .commandWatchdogExpiry _ => true
  | .guiltyResetComplete queue => decide (queue < 4096)
  | .npOverrunLimit ctx => decide (ctx < 1024)
  | .queueEnable q => decide (q < 4096)
  | .queueDisable q => decide (q < 4096)
  | .queueReset q => decide (q < 4096)
  | .queueOwnerWrite q _ => decide (q < 4096)
  | .berthConfigWrite b _ _ => decide (b < 4096)
  | .gstoreWrite p _ _ => decide (p < 16)
  | .wholeDeviceReset => true
  | .cpWatchdogExpiry => true
  | .wholeDeviceResetComplete => true
  | .partitionConfigWrite p reg _ => decide (p < 16) && decide (reg ≤ 6)
  | .contextCreate c _ => decide (c < 1024)
  | .contextDestroy c _ => decide (c < 1024)
  | .contextTear c => decide (c < 1024)
  | .teardownComplete ctx _ _ _ _ _ => decide (ctx < 1024)
  | .timeSliceEnd ctx _ => decide (ctx < 1024)
  | .preemptionDrainComplete ctx _ _ => decide (ctx < 1024)
  | .saveComplete ctx _ => decide (ctx < 1024)
  | .restoreComplete ctx _ => decide (ctx < 1024)
  | .functionBindWrite v _ => decide (0 < v ∧ v < 64)
  | .vfFlr v => decide (0 < v ∧ v < 64)
  | .vfFlrComplete v => decide (0 < v ∧ v < 64)
  | .pfFlr => true
  | .vfEnableClear => true
  | .migrationFreeze vf => decide (0 < vf ∧ vf < 64)
  | .migrationFreezeComplete vf => decide (0 < vf ∧ vf < 64)
  | .migrationSave vf => decide (0 < vf ∧ vf < 64)
  | .migrationRestore vf => decide (0 < vf ∧ vf < 64)
  | .migrationThaw vf => decide (0 < vf ∧ vf < 64)
  | .dirtyLogSync _ => true
  | .dirtyLogSyncDone => true
  | .dataFlit port fec _ flit => decide (port < 36) && decide (fec ≤ 2) && decide (flit.length = 256)
  | .idleFlit port flit => decide (port < 36) && decide (flit.length = 256)
  | .retryRequest port flit => decide (port < 36) && decide (flit.length = 256)
  | .creditInitialisation port flit => decide (port < 36) && decide (flit.length = 256)
  | .rd port _ => decide (port < 36)
  | .wr port _ => decide (port < 36)
  | .sig port _ => decide (port < 36)
  | .rdr port _ => decide (port < 36)
  | .ack port => decide (port < 36)
  | .nak port => decide (port < 36)
  | .retransmitTimeout _ chip _ => decide (chip < 512)
  | .fabricGiveUp _ chip _ => decide (chip < 512)
  | .gapCloseTimeout chip => decide (chip < 512)
  | .fabricWindowBoundary port => decide (port < 36)
  | .portEnable port pmd => decide (port < 36) && decide (pmd < 2)
  | .portDisable port pmd => decide (port < 36) && decide (pmd < 2)
  | .portTrained port => decide (port < 36)
  | .trainingAttemptFailed port lanes _ => decide (port < 36) && lanes.all (· < 4)
  | .portRetrained port => decide (port < 36)
  | .recoveryTimeout port => decide (port < 36)
  | .fabricIdWrite _ _ => true
  | .fabricRegWrite p _ => decide (p < 16)
  | .controlInterval acts _ => acts.all fun e => decide (e.1 < 1024)
  | .followerDecisionMissed => true
  | .railReading rail _ _ _ => decide (rail < 15)
  | .voltageAck die => decide (die < 8)
  | .voltageAckTimeout die => decide (die < 8)
  | .dividerSwitch die => decide (die < 8)
  | .droopDetected die half _ => decide (die < 8) && decide (half < 2)
  | .droopWindowClear die half _ => decide (die < 8) && decide (half < 2)
  | .temperatureConversion point _ => decide (point < 416)
  | .hotClear die => decide (die < 24)
  | .sensorUpdateTimeout point => decide (point < 416)
  | .pkgLimitWrite _ => true
  | .vtabWrite _ => true
  | .firmwareUpdate => true
  | .configurationUpdate => true
  | .ownerRecordUpdate => true
  | .otherFirmwareSlot => true
  | .flashUpdateComplete _ => true
  | .bootLockSet => true
  | .recoveryWrite off _ _ _ => decide (off < 2 ^ 24)
  | .recoveryFinish _ _ => true
  | .recoveryStatus _ => true
  | .getVersion _ _ => true
  | .getCapabilities _ _ => true
  | .negotiateAlgorithms _ _ => true
  | .getDigests _ _ => true
  | .getCertificate _ _ _ _ => true
  | .challenge _ slot nonce _ => decide (slot < 8) && decide (nonce.length = 32)
  | .getMeasurements _ _ _ nonce _ => decide (nonce.length = 32)
  | .spdmUnsupportedRequest _ _ _ => true
  | .cvInit k => decide (k < 4)
  | .cvRegionFeed k => decide (k < 4)
  | .cvFeedComplete k => decide (k < 4)
  | .cvData k _ _ => decide (k < 4)
  | .cvTail k _ => decide (k < 4)
  | .cvStateWrite k _ => decide (k < 4)
  | .retireRequest _ => true
  | .spareSelfTestDone cluster _ => decide (cluster < 128)
  | .clusterCacheEvacuated cluster => decide (cluster < 128)
  | .repairRecordUpdate _ => true
  | .repairRecordUpdateComplete _ _ _ => true
  | .eventRecordWrite => true
  | .logEnableWrite func l _ => decide (func < 64) && decide (l < 17)
  | .logReadPointerWrite func l _ => decide (func < 64) && decide (l < 17)
  | .snapshotRequest => true
  | .snapshotFreezeToken unit => decide (unit < 2 ^ 16)
  | .snapshotComplete => true
  | .snapshotAckTimeout unit => decide (unit < 2 ^ 16)
  | .bypass _ => true
  | .idcode _ => true
  | .samplePreload _ _ => true
  | .extest _ _ => true
  | .clamp _ => true
  | .highz _ => true
  | .diesel _ => true
  | .ijtag die _ _ _ _ _ => decide (die < 24)
  | .attach ctx _ => decide (ctx < 1024)
  | .detach ctx _ => decide (ctx < 1024)
  | .halt ctx _ => decide (ctx < 1024)
  | .resume ctx _ => decide (ctx < 1024)
  | .step ctx _ => decide (ctx < 1024)
  | .debugAccessRead mod => decide (mod < 8)
  | .debugAccessWrite _ => true
  | .guiltyResetBoundMissed queue => decide (queue < 4096)
  | .lossOfFecAlignment port => decide (port < 36)
  | .partnerRetrainingRequest port => decide (port < 36)
  | .railReadingTimeout rail => decide (rail < 15)
  | .commandParityError channel => decide (channel < 1536)
  | .mctpReassemblyTimeout => true
  | .dynamicAddressAssignment addr => decide (addr < 128)
  | .supplyReturn supply => decide (supply < 64)
  | .clusterBarrierRelease cluster num => decide (cluster < 128) && decide (num < 16)

end Sys2Proof
end

