-- ==== Sys2Proof/Certificates/Slice0/Obligations.lean ====
section
/-! DEFINITION. The statements about the Peold, one definition each. -/

open Sys2Proof Sys2Proof.Machine

/-- A step is `exec` of the oldest waiting command on the machine with the rest of the queue; with none waiting the
device idles (the model's choice, log entry 2). -/
def Obligations.StepRunsFrontCommand : Prop :=
  (∀ (c : Instr) (rest : List Instr) (s : State), step { s with pending := c :: rest } = exec c { s with pending := rest }) ∧
  (∀ s : State, s.pending = [] → step s = .next s)

/-- The state after reset is canonical, no command waits and no read is stalled. -/
def Obligations.CanonicalAfterReset : Prop :=
  State.reset.Canonical ∧ State.reset.pending = [] ∧ State.reset.coh.stalled = false

/-- Every step keeps the register file and local memory in canonical form, from every state that has it. -/
def Obligations.StepKeepsCanonicalForm : Prop :=
  ∀ s t : State, s.Canonical → step s = .next t → t.Canonical

/-- After a step the queue is what stood behind the front command, whatever that command did, and the mark of a stalled
read, which only a step in progress sets, is clear as before. -/
def Obligations.QueueIsFirstInFirstOut : Prop :=
  ∀ s t : State, step s = .next t → t.pending = s.pending.tail ∧ (s.coh.stalled = false → t.coh.stalled = false)

/-- The steps of R479: what starts them, where each result leads, and what steps 10 and 11 leave. -/
def Obligations.StartUpSteps : Prop :=
  ∀ s : State, s.Canonical →
  (∀ raw, s.pinFilt .pkgReset = true → s.boot.phase = .held → s.powerOk = true → s.boot.clockBad = false →
    pinNext ((raw :: s.pinSamples .pkgReset).take 100) true (s.pinChatter .pkgReset) = (false, false) →
    After (.endOfReset [raw]) s fun t => t.boot.phase = .running 1 ∧ t.pinFilt .pkgReset = false ∧ t.mem = s.mem) ∧
  (s.atStep 1 = true → s.pinFilt .coolant = false →
    exec (.pllLocked true) s = .next (s.phaseTo (.running 2)) ∧ exec (.pllLocked false) s = .next (s.phaseTo (.unready 1 1))) ∧
  (∀ ok0 ok1, s.atStep 2 = true →
    exec (.romSelfTestDone ok0 ok1) s = .next { s with boot := { s.boot with
      rom0 := ok0, rom1 := ok1, phase := if ok0 || ok1 then .running 3 else .unready 2 1 } }) ∧
  (∀ inTime, s.atStep 3 = true → After (.leadDecision inTime) s fun t =>
    if s.boot.rom0 && inTime then t = (s.set F.BT_STAT_LEAD 0).phaseTo (.running 4)
    else if s.boot.rom1 then t = (s.set F.BT_STAT_LEAD 1).phaseTo (.running 4) else t = s.phaseTo (.unready 3 1)) ∧
  (∀ mods, s.atStep 5 = true → After (.ucieTrained mods) s fun t => t.boot.phase = .running 6) ∧
  (∀ failed stitchOk, s.atStep 6 = true → After (.interconnectTestDone failed stitchOk) s fun t =>
    t.boot.phase = if stitchOk then .running 7 else .unready 6 1) ∧
  (∀ read0 read1, s.atStep 7 = true → After (.repairRecordRead read0 read1) s fun t => t.boot.phase = .running 8) ∧
  (∀ failed noPath complexOk, s.atStep 8 = true → After (.selfTestDone failed noPath complexOk) s fun t =>
    t.boot.phase = if !complexOk || (List.range 4).all (t.isRetired 6) then .unready 8 1 else .running 9) ∧
  (s.atStep 9 = true → After .configurationApply s fun t => t.boot.phase = .running 10 ∧ t = s.configure.phaseTo (.running 10)) ∧
  (s.atStep 10 = true → After .memoryClearComplete s fun t =>
    t.boot.phase = .running 11 ∧ t.mem = [] ∧ t.poison = [] ∧ t.regs = s.regs ∧ t.cores = s.cores ∧ t.fe = s.fe) ∧
  (∀ time, s.atStep 11 = true → After (.deviceReady time) s fun t =>
    t.boot.phase = .ready ∧ t.on F.BT_STAT_READY = true ∧ t.mem = s.mem ∧
    (s.boot.rerun = false → t.get F.BT_STAT_BOOTTIME = time % 2 ^ 32))

/-- Step 4 of R479 and the configuration requests of R480. -/
def Obligations.FirmwareAndConfigurationRequests : Prop :=
  ∀ s : State,
  (∀ dev0 dev1 readA readB seed, s.atStep 4 = true → After (.firmwareVerified dev0 dev1 readA readB seed) s fun t =>
    (t.boot.phase = .running 5 ∨ ∃ r, t.boot.phase = .recovery r) ∧ t.boot.seed = seed ∧
    t.boot.owner = s.ownerInForce dev0 dev1 ∧ t.mem = s.mem ∧ t.cores = s.cores) ∧
  (∀ mod func word wr vfe, s.linkUp = true → s.modules ≠ 0 → s.boot.stopped = false → s.boot.phase ≠ .ready → s.inRerun = false →
    exec (.pcieConfigRequest mod func word wr vfe) s = .next (s.complete mod .cplRRS)) ∧
  (∀ mod word vfe, s.linkUp = true → s.modules ≠ 0 → s.boot.stopped = false → s.boot.phase = .ready → word < 1024 →
    exec (.pcieConfigRequest mod 0 word none vfe) s =
      .next (s.complete mod (.cplData (toBytes 4 (s.cfgWord 0 word).toNat) false))) ∧
  (∀ (mod word : Nat) (v : BitVec 32), s.linkUp = true → s.modules ≠ 0 → s.boot.stopped = false → s.boot.phase = .ready → word < 1024 →
    exec (.pcieConfigRequest mod 0 word (some v) none) s =
      .next ({ s with host := { s.host with cfg := tabIns s.host.cfg word (s.cfgWrote 0 word v).toNat } }.complete mod .cplOk)) ∧
  (∀ q (m : Nat → Emit), s.moduleOut (4 * (q % 2)) = false → s.toHost (q % 2) m = s.emit (m (q % 2))) ∧
  s.cfgWord 0 0 = 0x48251F9E ∧ (tabGet 0 s.host.cfg 4 = 0xFFFFFFFF → s.cfgWord 0 4 = 0xFF000004)

/-- What a filtered change of each board input, a supply or the reference clock does. -/
def Obligations.BoardInputs : Prop :=
  ∀ s : State, s.Canonical →
  (∀ l, exec (.pwrGoodAssert l) s = .next (s.pinRun .pwrGood l) ∧ exec (.pwrGoodDeassert l) s = .next (s.pinRun .pwrGood l) ∧
    exec (.pkgResetAssert l) s = .next (s.pinRun .pkgReset l) ∧
    exec (.coolantFaultAssert l) s = .next (s.pinRun .coolant l) ∧ exec (.coolantFaultDeassert l) s = .next (s.pinRun .coolant l) ∧
    exec (.vrAlertAssert l) s = .next (s.pinRun .vrAlert l) ∧ exec (.vrAlertDeassert l) s = .next (s.pinRun .vrAlert l) ∧
    exec (.tapReset l) s = .next (s.pinRun .trst l)) ∧
  (∀ p l, exec (.inputChatterStart p l) s = .next (s.pinRun p l) ∧ exec (.inputChatterEnd p l) s = .next (s.pinRun p l)) ∧
  (∀ p raw l, s.pinRun p [] = s ∧ s.pinRun p (raw :: l) = (s.pinSample p raw).pinRun p l) ∧
  (∀ raw, s.pinFilt .pwrGood = false → s.pinNow .pwrGood raw = (true, false) →
    s.pinSample .pwrGood raw = s.endHold (s.pinShown .pwrGood raw).startBoot) ∧
  (∀ raw, s.pinFilt .pwrGood = true → s.pinChatter .pwrGood = false → s.pinNow .pwrGood raw = (false, false) →
    s.pinSample .pwrGood raw = s.endHold ((s.pinShown .pwrGood raw).goHeld true)) ∧
  (∀ raw, s.pinFilt .pkgReset = false → s.powerOk = true → s.pinNow .pkgReset raw = (true, false) →
    s.pinSample .pkgReset raw = s.endHold (s.pinShown .pkgReset raw).pkgReset ∧
    (s.pinSample .pkgReset raw).boot.phase = .held ∧ (s.pinSample .pkgReset raw).mem = [] ∧
    (s.pinSample .pkgReset raw).cores = [] ∧ (s.pinSample .pkgReset raw).pending = s.pending) ∧
  (∀ raw, s.powerOk = true → s.pinFilt .coolant = false → s.pinNow .coolant raw = (true, false) → s.boot.phase = .ready →
    s.boot.stopped = false →
    (s.pinSample .coolant raw).boot.stopped = true ∧ (s.pinSample .coolant raw).mem = s.mem) ∧
  (∀ raw, s.pinFilt .coolant = true → s.pinNow .coolant raw = (false, false) →
    s.pinSample .coolant raw = s.endHold (s.pinShown .coolant raw)) ∧
  (∀ raw, s.powerOk = true → s.pinFilt .vrAlert = false → s.pinNow .vrAlert raw = (true, false) → s.boot.phase = .ready →
    s.boot.stopped = false →
    s.pinSample .vrAlert raw = s.endHold (s.pinShown .vrAlert raw).vrAlert ∧ (s.pinSample .vrAlert raw).pow.vrHold = false ∧
    (s.pinSample .vrAlert raw).mem = s.mem) ∧
  (∀ raw, s.powerOk = true → s.pinFilt .vrAlert = true → s.pinNow .vrAlert raw = (false, false) →
    s.on F.PW_STAT_VRALERT = true → s.on F.PW_STAT_VRSTUCK = false → (s.pinSample .vrAlert raw).pow.vrHold = true) ∧
  (s.pow.vrHold = true →
    exec .vrAlertHoldEnd s = .next ({ s with pow := { s.pow with vrHold := false } }.set F.PW_STAT_VRALERT 0)) ∧
  (∀ raw, s.powerOk = true → s.pinFilt .trst = false → s.pinNow .trst raw = (true, false) →
    (s.pinSample .trst raw).tap = { Tap.reset with boundary := s.tap.boundary }) ∧
  (∀ p raw, p ≠ .pwrGood → s.pinFilt p = true → s.pinChatter p = false → s.pinNow p raw = (true, true) →
    s.pinSample p raw = s.endHold
      (if s.running = true ∧ s.powerOk = true then (s.pinShown p raw).event 7 11 0x10 none 0 0x3FF [p.index] else s.pinShown p raw)) ∧
  (∀ p raw, p ≠ .pwrGood → s.pinFilt p = true → s.pinChatter p = true → s.pinNow p raw = (true, false) →
    s.pinSample p raw = s.endHold (s.pinShown p raw)) ∧
  (s.powerOk = true → s.pinFilt .coolant = true → s.on (F.PW_PIN_STAT_STUCK 2) = false → s.running = true →
    exec (.inputStuck .coolant) s = .next ((s.set (F.PW_PIN_STAT_STUCK 2) 1).event 7 11 0x11 none 0 0x3FF [2])) ∧
  (∀ supply mv, supply < 17 → s.pinFilt .pwrGood = true → s.supplyOut supply mv = true →
    exec (.supplyOutOfRange supply mv) s =
      .next (s.endHold ({ s with boot := { s.boot with supplyBad := setIns s.boot.supplyBad supply } }.goHeld true))) ∧
  (∀ supply, exec (.supplyReturn supply) s =
    .next ({ s with boot := { s.boot with supplyBad := setDel s.boot.supplyBad supply } }.startBoot)) ∧
  (exec .refclkLoss s = .next ({ s with boot := { s.boot with clockBad := true } }.goHeld false)) ∧
  (exec .refclkRecovered s = .next ({ s with boot := { s.boot with clockBad := false } }.startBoot))

/-- What wear, sparing and repair-record commands do. -/
def Obligations.WearAndSparing : Prop :=
  ∀ s : State,
  (exec .wearWindowEnd s = .next { s with sp := { s.sp with wear := [], acted := [] } }) ∧
  (∀ kind unit symbols, s.wornOut kind unit symbols = true ↔ s.get (F.SP_THR_THR kind) ≠ 0 ∧
    if kind = 6 then 0 < symbols ∧ s.get (F.SP_THR_THR kind) * symbols ≤ s.wearOf kind unit * 2 ^ 32
    else s.get (F.SP_THR_THR kind) ≤ s.wearOf kind unit) ∧
  (∀ kind unit extra symbols, kind ≤ 6 → (s.wear kind unit extra).wornOut kind unit symbols = false →
    exec (.wearThresholdReached kind unit extra symbols) s = .next (s.wear kind unit extra)) ∧
  (∀ kind unit extra symbols, kind ≤ 6 → (s.wear kind unit extra).wornOut kind unit symbols = true → wearKey kind unit ∉ s.sp.acted →
    let w := s.wear kind unit extra
    let a : State := { w with sp := { w.sp with acted := setIns w.sp.acted (wearKey kind unit) } }
    exec (.wearThresholdReached kind unit extra symbols) s =
      .next ((a.spareEvent 1 (wearUnit kind unit).1 (wearUnit kind unit).2 (a.wearLogical kind unit)
        ⟨0, 1, 0xFFFFFFFF, w.wearOf kind unit⟩).wearAct kind unit)) ∧
  (∀ phys r, s.replFind 0 phys = some r → r.stage = 1 →
    exec (.substitutionDrainComplete phys) s = .next (s.replSet { r with stage := 2 })) ∧
  (∀ phys r, s.replFind 0 phys = some r → r.stage = 2 → After (.substitutionTrainingResult phys true) s fun t =>
    tabFind t.sp.wires phys = some r.spare ∧ t.mem = s.mem ∧ t.cores = s.cores) ∧
  (∀ mod, s.linkUp = true → s.running = true → mod < 8 → s.isRetired 8 mod = false → After (.ucieModuleFailure mod) s fun t =>
    t.isRetired 8 mod = true ∧ t.mem = s.mem) ∧
  (∀ cluster r, s.replFind 5 cluster = some r → r.stage = 1 →
    exec (.spareSelfTestDone cluster true) s = .next ((s.replSet { r with stage := 2 }).clSchedule cluster)) ∧
  (∀ cluster r, s.replFind 5 cluster = some r → r.stage = 2 → s.clusterHeld cluster = false →
    (s.clusterLines cluster).any s.busy = false → (s.coh.wb.filter fun w => w.cluster == cluster) = [] →
    (s.coh.pend.any fun q => q.cluster == cluster) = false →
    exec (.clusterCacheEvacuated cluster) s = .next ((s.evacuateCache cluster).clusterTake r)) ∧
  (∀ v : BitVec 64, s.barOk = true → bit v.toNat 32 = false →
    exec (.retireRequest v) s =
      .next ((s.set F.SP_RETIRE_KIND (bits v.toNat 1 0)).set F.SP_RETIRE_UNIT (bits v.toNat 27 16))) ∧
  (∀ v : BitVec 64, s.barOk = true → bit v.toNat 32 = true →
    let u := bits v.toNat 27 16
    let t := (s.set F.SP_RETIRE_KIND (bits v.toNat 1 0)).set F.SP_RETIRE_UNIT u
    (bits v.toNat 1 0 = 1 → t.clThere u = true → t.replFind 5 u = none →
      exec (.retireRequest v) s =
        .next ((t.set F.SP_RETIRE_STATUS (if t.spareClusters u = [] then 2 else 1)).clusterWant u 3)) ∧
    (bits v.toNat 1 0 = 2 → t.slThere u = true → t.replFind 4 u = none →
      exec (.retireRequest v) s =
        .next ((t.set F.SP_RETIRE_STATUS (if t.spareSlices u = [] then 2 else 1)).sliceWant u 3))) ∧
  (s.barOk = true → s.sp.recBusy = false → s.on F.BT_UPD_CTL_BUSY = false →
    After (.repairRecordUpdate true) s fun t => t.sp.recBusy = true ∧ t.mem = s.mem) ∧
  (∀ follower x, s.sp.recCap = some x → s.boot.dev0 = true → s.boot.dev1 = true → s.get F.SP_REC_STAT_SEQ + 1 ≤ 0xFFFFFFFE →
    After (.repairRecordUpdateComplete follower true true) s fun t =>
      t.sp.inForce = repairFit x ∧ t.sp.recBusy = false ∧ t.sp.recCap = none ∧
      t.sp.updates = satAdd 32 s.sp.updates 1 ∧ t.mem = s.mem)

/-- The recorder's logs and the snapshot machinery. -/
def Obligations.RecorderAndSnapshots : Prop :=
  ∀ s : State, s.Canonical →
  (∀ r q, s.evr.queue = r :: q → r.part = none → s.evr.adv = [] → s.on (F.EV_LOG_CFG_EN 16) = false → s.evr.held.length < 256 →
    exec .eventRecordWrite s = .next { s with evr := { s.evr with queue := q, held := s.evr.held ++ [r] } }) ∧
  (∀ r q, s.evr.queue = r :: q → r.part = none → s.evr.held = [] → s.evr.adv = [] → s.on (F.EV_LOG_CFG_EN 16) = true →
    s.logUsed 16 < s.logSize 16 →
    After .eventRecordWrite s fun t => (∃ l, t.evr.queue = q ++ l) ∧ t.evr.held = [] ∧
      (t.evr.adv = [] ∧ t.get (F.EV_LOG_WR_WR 16) = (s.get (F.EV_LOG_WR_WR 16) + 1) % 2 ^ 32 ∨
       t.evr.adv = [16] ∧ t.get (F.EV_LOG_WR_WR 16) = s.get (F.EV_LOG_WR_WR 16))) ∧
  (∀ func l (v : BitVec 64), l ≤ 15 → s.logAccess func l = true → s.on (F.EV_LOG_CFG_EN l) = false → bit v.toNat 8 = true →
    s.logPlaceOk l (bits v.toNat 4 0) = true → After (.logEnableWrite func l v) s fun t =>
      t.on (F.EV_LOG_CFG_EN l) = true ∧ t.get (F.EV_LOG_WR_WR l) = 0 ∧ t.get (F.EV_LOG_RD_RD l) = 0 ∧ t.mem = s.mem) ∧
  (∀ func l (v : BitVec 64), l ≤ 16 → s.logAccess func l = true →
    (s.get (F.EV_LOG_WR_WR l) + 2 ^ 32 - v.toNat % 2 ^ 32) % 2 ^ 32 ≤ s.logSize l →
    exec (.logReadPointerWrite func l v) s = .next ((s.set (F.EV_LOG_RD_RD l) (v.toNat % 2 ^ 32)).logFull l)) ∧
  (∀ func l (v : BitVec 64), l ≤ 16 → s.logAccess func l = true →
    (s.get (F.EV_LOG_WR_WR l) + 2 ^ 32 - v.toNat % 2 ^ 32) % 2 ^ 32 > s.logSize l →
    exec (.logReadPointerWrite func l v) s = .next (s.set (F.EV_LOG_STAT_ERR l) 1)) ∧
  (s.barOk = true → s.on F.EV_SNAP_BUSY = false → After .snapshotRequest s fun t =>
    t.on F.EV_SNAP_BUSY = true ∧ t.evr.snapAcks = some [] ∧
    t.evr.snapNum = (if s.evr.snapNum + 1 ≥ 2 ^ 32 then 1 else s.evr.snapNum + 1) ∧ t.mem = s.mem) ∧
  (∀ unit l, s.evr.snapAcks = some l → s.snapThere unit = true → l.contains unit = false → s.tokenWaits unit = false →
    exec (.snapshotFreezeToken unit) s =
      .next { s.shadowCopy (snapBlock unit) with evr := { s.evr with snapAcks := some (setIns l unit) } }) ∧
  (∀ unit, s.tokenWaits unit = true → exec (.snapshotFreezeToken unit) s = .next s) ∧
  (∀ l, s.evr.snapAcks = some l → s.snapAll l = true → l.any s.tokenWaits = false → s.evr.snapWait = [] → After .snapshotComplete s fun t =>
    t.evr.snapAcks = none ∧ t.on F.EV_SNAP_BUSY = false ∧ t.on F.EV_SNAP_INCOMPLETE = false ∧
    t.get F.EV_SNAP_NUM = s.evr.snapNum % 2 ^ 32 ∧ t.mem = s.mem) ∧
  (∀ unit l, s.evr.snapAcks = some l → s.snapThere unit = true → l.contains unit = false → s.evr.snapWait = [] →
    After (.snapshotAckTimeout unit) s fun t =>
      t.evr.snapAcks = none ∧ t.on F.EV_SNAP_BUSY = false ∧ t.on F.EV_SNAP_INCOMPLETE = true ∧ t.mem = s.mem)

/-- The steps of a compute die's performance state, and its droop windows. -/
def Obligations.VoltageAndDroopSteps : Prop :=
  ∀ s : State,
  (∀ die half mv, die < 8 → half < 2 → s.running = true → mv + s.droopMv < s.vtab (s.get (F.PW_DIE_STAT_PSTATE die)) →
    exec (.droopDetected die half mv) s = .next { s with pow := { s.pow with droop := setIns s.pow.droop (2 * die + half) } }) ∧
  (∀ die half mv, s.vtab (s.get (F.PW_DIE_STAT_PSTATE die)) ≤ mv + s.droopMv → exec (.droopDetected die half mv) s = .next s) ∧
  (∀ die half skipped, s.pow.droop.contains (2 * die + half) = true →
    exec (.droopWindowClear die half skipped) s =
      .next ({ s with pow := { s.pow with droop := setDel s.pow.droop (2 * die + half) } }.count (F.PW_SKIP_COUNT die) skipped)) ∧
  (∀ die, s.pow.droop.contains (2 * die) = true → exec (.dividerSwitch die) s = .next s) ∧
  (∀ die, s.pow.droop = [] → s.clockStopped die = false → tabGet 0 s.pow.step die = 2 →
    exec (.dividerSwitch die) s = .next ((s.stepTo die 0).set (F.PW_DIE_STAT_PSTATE die) (s.get (F.PW_DIE_STAT_PSTATE die) - 1))) ∧
  (∀ die, s.clockStopped die = true → exec (.dividerSwitch die) s = .next s) ∧
  (∀ die, s.pow.droop = [] → s.clockStopped die = false → tabGet 0 s.pow.step die = 3 →
    let ps := s.get (F.PW_DIE_STAT_PSTATE die)
    let t := (s.stepTo die 4).set (F.PW_DIE_STAT_PSTATE die) (ps + 1)
    exec (.dividerSwitch die) s = .next ((t.count (F.PW_PSDOWN_COUNT die) 1).avsWrite die
      ((t.count (F.PW_PSDOWN_COUNT die) 1).vtab (ps + 1)))) ∧
  (∀ die, tabGet 0 s.pow.step die = 1 → exec (.voltageAck die) s = .next ((s.avsDone die true).stepTo die 2)) ∧
  (∀ die, tabGet 0 s.pow.step die = 4 →
    exec (.voltageAck die) s = .next (((s.avsDone die true).stepTo die 0).towardsCap die)) ∧
  (∀ die mv, 0 < mv → tabGet 0 s.pow.newMv die = mv → tabGet 750 (s.avsDone die true).pow.setMv die = mv) ∧
  (∀ die, (s.avsDone die false).pow.setMv = s.pow.setMv) ∧
  (∀ die, tabGet 0 s.pow.step die = 1 →
    exec (.voltageAckTimeout die) s = .next (((s.avsDone die false).stepTo die 0).event 7 11 5 none die 0x3FF [die, 1]))

/-- The control interval, rail readings, temperature points and the limit registers. -/
def Obligations.PowerControlAndHeat : Prop :=
  ∀ s : State, s.Canonical →
  (∀ acts got, s.running = true → After (.controlInterval acts got) s fun t =>
    t.pow.missed = (s.pow.missed && !got) ∧ t.mem = s.mem ∧ t.cores = s.cores ∧ t.fe = s.fe ∧
    ∀ n, n < 8 → tabGet 0 t.pow.est n = s.dieEst acts n * s.get (F.PW_RAIL_STAT_GAIN n) / 256) ∧
  (s.running = true → After .followerDecisionMissed s fun t =>
    t.pow.missed = true ∧ (s.alertForced = false → ∀ n ∈ s.followerDies, tabGet 64 t.pow.tgt n = 16) ∧ t.mem = s.mem) ∧
  (∀ rail (mv : Nat) amps, rail < 15 → s.running = true → exec (.railReading rail mv amps true) s = .next (s.railInvalid rail)) ∧
  (∀ rail (mv : Nat) (amps : Int), 8 ≤ rail → rail < 15 → s.running = true → ((mv : Int) - s.railMv rail).natAbs * 5 ≤ s.railMv rail →
    0 < amps * mv → amps * mv ≤ 2 * (railBudget rail : Int) → After (.railReading rail mv amps false) s fun t =>
      tabGet 0 t.pow.railMw rail = (amps * mv).toNat ∧ (mv < 1024 → t.get (F.PW_RAIL_STAT_VMEAS rail) = mv) ∧ t.mem = s.mem) ∧
  (∀ rail, rail < 15 → s.running = true → exec (.railReadingTimeout rail) s = .next (s.railInvalid rail)) ∧
  (∀ point (t : Int), point < 416 → s.boot.phase ≠ .held → -40 ≤ t → t ≤ 150 → After (.temperatureConversion point t) s fun u =>
    u.get (F.PW_TEMP_TEMP point) = wrap 8 t ∧ u.on (F.PW_TEMP_VALID point) = true ∧ u.mem = s.mem ∧
    (110 ≤ t → 1 ≤ tabGet 0 s.pow.tripRun point → u.pow.trip = true)) ∧
  (∀ point, point < 416 → s.running = true →
    exec (.sensorUpdateTimeout point) s = .next (s.pointInvalid point (tabGet 0 s.pow.temps point))) ∧
  (∀ die, die < 8 → (s.hottest die).any (· ≥ 102) = false →
    exec (.hotClear die) s = .next ({ s with pow := { s.pow with ownHot := setDel s.pow.ownHot die } }.hotRefresh die)) ∧
  (∀ v : BitVec 64, s.barOk = true → 1200 ≤ v.toNat % 4096 → v.toNat % 4096 ≤ 2700 →
    exec (.pkgLimitWrite v) s = .next (s.set F.PW_PKG_LIMIT_LIMIT (v.toNat % 4096))) ∧
  (∀ v : BitVec 64, s.barOk = true → v.toNat % 4096 < 1200 → exec (.pkgLimitWrite v) s = .next (s.set F.PW_ERR_RANGE 1)) ∧
  (∀ v : BitVec 64, s.barOk = true → bits v.toNat 9 0 ≤ 900 → bits v.toNat 19 10 ≤ bits v.toNat 9 0 →
    bits v.toNat 29 20 ≤ bits v.toNat 19 10 → bits v.toNat 39 30 ≤ bits v.toNat 29 20 → 600 ≤ bits v.toNat 39 30 →
    exec (.vtabWrite v) s = .next (s.setRaw A.PW_VTAB (BitVec.ofNat 64 (v.toNat % 2 ^ 40))))

/-- The four operations of R489 with their OP codes. -/
def updateOps : List (Instr × Nat) :=
  [(.firmwareUpdate, 1), (.configurationUpdate, 2), (.ownerRecordUpdate, 3), (.otherFirmwareSlot, 4)]

/-- Flash updates, the boot lock, ROM recovery and the I3C bus. -/
def Obligations.FlashUpdatesAndRecovery : Prop :=
  ∀ s : State, s.Canonical →
  (∀ c ∈ updateOps, s.barOk = true → s.on F.BT_UPD_CTL_BUSY = true → exec c.1 s = .next ((s.set F.BT_UPD_CTL_OP c.2).set F.BT_UPD_CTL_STATUS 7)) ∧
  (∀ c ∈ updateOps, s.barOk = true → s.on F.BT_UPD_CTL_BUSY = false → s.boot.upd = none →
    (s.on F.BT_STAT_LOCK = true → s.on F.BT_POLICY_UPDEN = true) → After c.1 s fun t =>
      t.on F.BT_UPD_CTL_BUSY = true ∧ t.get F.BT_UPD_CTL_OP = c.2 ∧ (t.boot.upd.map (·.op)) = some c.2 ∧ t.mem = s.mem ∧
      t.cores = s.cores) ∧
  (∀ o, s.boot.upd = some o → o.op ≠ 8 → o.status = 0 → (o.staged = [] ∨ s.staged = o.staged) →
    After (.flashUpdateComplete true) s fun t =>
      t.boot.upd = none ∧ t.on F.BT_UPD_CTL_BUSY = false ∧ t.get F.BT_UPD_CTL_STATUS = 0 ∧ t.mem = s.mem) ∧
  (s.barOk = true → After .bootLockSet s fun t => t = s.lockBoot ∧ t.on F.BT_STAT_LOCK = true ∧ t.on F.BT_LOCK_SET = true) ∧
  (∀ off data, s.inRecovery = true → s.boot.dev0 = true → data ≠ [] → data.length ≤ 48 → off + data.length ≤ fwSlotSize →
    After (.recoveryWrite off data true true) s fun t =>
      t.boot.recErased = true ∧ t.out = s.out ++ [.i3c [0]] ∧ t.mem = s.mem) ∧
  (s.inRecovery = true → s.boot.dev0 = true → After (.recoveryFinish true true) s fun t =>
    t.boot.recHdr = [] ∧ t.out = s.out ++ [.i3c [0]] ∧ t.mem = s.mem) ∧
  (∀ r, s.boot.phase = .recovery r → exec (.recoveryStatus true) s = .next (s.emit (.i3c [0, 4, BitVec.ofNat 8 r]))) ∧
  (∀ n r, s.boot.phase = .unready n r →
    exec (.recoveryStatus true) s = .next (s.emit (.i3c [0, BitVec.ofNat 8 n, BitVec.ofNat 8 r]))) ∧
  (exec .mctpReassemblyTimeout s = .next { s with mgmt := { s.mgmt with mctp := [] } }) ∧
  (∀ addr, addr < 128 → s.running = true →
    exec (.dynamicAddressAssignment addr) s = .next { s with mgmt := { s.mgmt with i3cAddr := some addr } })

/-- The responses of the SPDM responder. -/
def Obligations.SpdmAnswers : Prop :=
  ∀ (s : State) (b : SpdmBind) (req : List Byte), s.spdmOn b = true →
  (exec (.getVersion b req) s = .next (s.spdm b 0x04 0 0 [0, 1, 0, 0x13])) ∧
  (exec (.getCapabilities b req) s = .next (s.spdm b 0x61 0 0 [0, 20, 0, 0, 0x16, 0, 0, 0])) ∧
  (s.on F.BT_STAT_IDFAIL = true → ∀ off len, exec (.getCertificate b off len req) s = .next (s.spdm b 0x7F 5 0 [])) ∧
  (s.on F.BT_STAT_IDFAIL = false →
    (exec (.negotiateAlgorithms b req) s = .next (s.spdm b 0x63 0 0 ([1, 0] ++ toBytes 4 4 ++ toBytes 4 0x80 ++ toBytes 4 2))) ∧
    (exec (.getDigests b req) s = .next (s.spdm b 0x01 0 1 (Config.sha384 s.certChain))) ∧
    (∀ off len, exec (.getCertificate b off len req) s =
      .next (s.spdm b 0x02 0 0 (toBytes 2 (slice s.certChain off len).length ++
        toBytes 2 (s.certChain.length - off - (slice s.certChain off len).length) ++ slice s.certChain off len))) ∧
    (∀ nonce, exec (.challenge b 0 nonce req) s =
      .next (({ s with boot := { s.boot with sigCount := s.boot.sigCount + 1 } } : State).spdm b 0x03 0 1
        (Config.sha384 s.certChain ++ nonce ++ Config.ecdsaSign s.aliasKey s.boot.sigCount
          (Config.sha384 (req ++ (Config.sha384 s.certChain ++ nonce)))))) ∧
    (∀ op nonce, 1 ≤ op → op ≤ 6 → exec (.getMeasurements b op false nonce req) s =
      .next (s.spdm b 0x60 0 0 (toBytes 1 op ++ toBytes 2 (s.measurement op).length ++ s.measurement op ++ nonce))) ∧
    (∀ malformed, exec (.spdmUnsupportedRequest b malformed req) s =
      .next (s.spdm b 0x7F (if malformed then 1 else 7) 0 [])))

/-- The instructions of the test access port. -/
def Obligations.TestAccessPort : Prop :=
  ∀ (s : State) (tdi pins load : List Bool), s.powerOk = true → s.pinFilt .trst = false →
  (exec (.bypass tdi) s = .next ({ s with tap := { s.tap with ir := 0xFF, drive := false } }.emit
    (.tdo ((false :: tdi).take tdi.length)))) ∧
  (exec (.idcode tdi) s = .next ({ s with tap := { s.tap with ir := 0x01, drive := false } }.emit
    (.tdo ((idcodeBits ++ tdi).take tdi.length)))) ∧
  (exec (.samplePreload pins load) s =
    .next ({ s with tap := { s.tap with ir := 0x02, boundary := load, drive := false } }.emit (.tdo pins))) ∧
  (∀ sel : BitVec 24, After (.diesel sel) s fun t => t.tap.ir = 0x10 ∧ t.mem = s.mem ∧
    (s.sp.retired = [] → s.boot.noPath = [] → t.tap.sel = sel)) ∧
  (s.pinFilt .pkgReset = true →
    exec (.extest pins load) s = .next (({ s with tap := { s.tap with ir := 0x03, boundary := load, drive := true } }.emit
      (.tdo pins)).emit (.boundary 0x03 load)) ∧
    exec (.clamp tdi) s = .next (({ s with tap := { s.tap with ir := 0x04, drive := true } }.emit
      (.boundary 0x04 s.tap.boundary)).emit (.tdo ((false :: tdi).take tdi.length))) ∧
    exec (.highz tdi) s = .next (({ s with tap := { s.tap with ir := 0x05, drive := false } }.emit
      (.boundary 0x05 [])).emit (.tdo ((false :: tdi).take tdi.length)))) ∧
  (s.pinFilt .pkgReset = false →
    exec (.extest pins load) s = exec (.bypass load) s ∧ exec (.clamp tdi) s = exec (.bypass tdi) s ∧
    exec (.highz tdi) s = exec (.bypass tdi) s)

/-- The check-value unit: INIT, data, tail, state and region feeds. -/
def Obligations.CheckValueUnit : Prop :=
  (∀ st a b, crcFeed (crcFeed st a) b = crcFeed st (a ++ b)) ∧
  ∀ (s : State) (k : Nat), s.Canonical → k < 4 →
  (s.barOk = true → After (.cvInit k) s fun t =>
    t.get (F.CV_STATE_STATE k) = 0xFFFFFFFF ∧ t.get (F.CV_COUNT_COUNT k) = 0 ∧ t.mem = s.mem) ∧
  (∀ wide (v : BitVec 64), s.barOk = true → s.on (F.CV_CTL_BUSY k) = false → After (.cvData k wide v) s fun t =>
    t.get (F.CV_STATE_STATE k) = crcFeed (s.get (F.CV_STATE_STATE k)) (toBytes (if wide then 8 else 4) v.toNat) % 2 ^ 32 ∧
    t.get (F.CV_COUNT_COUNT k) = (s.get (F.CV_COUNT_COUNT k) + if wide then 8 else 4) % 2 ^ 48 ∧ t.mem = s.mem) ∧
  (∀ v : BitVec 64, s.barOk = true → s.on (F.CV_CTL_BUSY k) = false → After (.cvTail k v) s fun t =>
    t.get (F.CV_STATE_STATE k) = crcFeed (s.get (F.CV_STATE_STATE k)) (toBytes (bits v.toNat 25 24) v.toNat) % 2 ^ 32 ∧
    t.mem = s.mem) ∧
  (∀ v : BitVec 32, s.barOk = true → s.on (F.CV_CTL_BUSY k) = false → After (.cvStateWrite k v) s fun t =>
    t.get (F.CV_STATE_STATE k) = v.toNat ∧ t.mem = s.mem) ∧
  (s.barOk = true → s.on (F.CV_CTL_BUSY k) = false → s.get (F.CV_ADDR_ADDR k) + s.get (F.CV_LEN_LEN k) ≤ localTop →
    After (.cvRegionFeed k) s fun t => t.on (F.CV_CTL_BUSY k) = true ∧ t.get (F.CV_CTL_STATUS k) = 0 ∧ t.mem = s.mem) ∧
  (s.on (F.CV_CTL_BUSY k) = true → s.spanReady (s.get (F.CV_ADDR_ADDR k)) (s.get (F.CV_LEN_LEN k)) = true → After (.cvFeedComplete k) s fun t =>
    t.on (F.CV_CTL_BUSY k) = false ∧ t.mem = s.mem ∧
    t.get (F.CV_STATE_STATE k) = crcFeed (s.get (F.CV_STATE_STATE k))
      (s.beforePoison (s.get (F.CV_ADDR_ADDR k)) (s.get (F.CV_LEN_LEN k))).1 % 2 ^ 32)

/-- A plain write follows the access codes of R7; reserved bits keep their value (R8). -/
def Obligations.PlainWritesRespectAccessCodes : Prop :=
  ∀ (s : State) (off v : Nat) (d : RegDesc), s.Canonical → regDesc? off = some d →
  (∀ i, i < 64 → (∀ f ∈ d.fields, f.acc = .ro ∨ f.acc = .wo ∨ i < f.lo ∨ f.hi < i) →
    ((s.plainWrite off v).1.raw off).getLsbD i = (s.raw off).getLsbD i) ∧
  (∀ f ∈ d.fields, f.acc = .rw → bits ((s.plainWrite off v).1.raw off).toNat f.hi f.lo = bits v f.hi f.lo) ∧
  (∀ f ∈ d.fields, f.acc = .rwl → s.on F.BT_STAT_LOCK = true →
    bits ((s.plainWrite off v).1.raw off).toNat f.hi f.lo = bits (s.raw off).toNat f.hi f.lo) ∧
  (∀ f ∈ d.fields, ∀ i, f.lo ≤ i → i ≤ f.hi → f.acc = .w1c →
    ((s.plainWrite off v).1.raw off).getLsbD i = ((s.raw off).getLsbD i && !v.testBit i)) ∧
  (∀ f ∈ d.fields, ∀ i, f.lo ≤ i → i ≤ f.hi → f.acc = .w1s →
    ((s.plainWrite off v).1.raw off).getLsbD i = ((s.raw off).getLsbD i || v.testBit i)) ∧
  (∀ off', off' ≠ off → (s.plainWrite off v).1.raw off' = s.raw off') ∧
  (∀ w : BitVec 64, w.toNat = v → s.barOk = true → 0x800000 ≤ off → off < 0x900000 → off % 8 = 0 → off ≠ A.PW_PKG_LIMIT → off ≠ A.PW_VTAB →
    exec (.registerWrite 0 off 8 w) s = .next (s.plainWrite off v).1)

/-- Accesses of the host through the three BARs. -/
def Obligations.HostAccessesOfTheBars : Prop :=
  ∀ s : State, s.Canonical →
  (∀ mod func off k link a, s.boot.stopped = false → s.funcOk func = true → s.bar4In func off k = true →
    s.bar4Addr func off k = some a →
    let r := s.readAs (bar4Reader func) 6 false a k
    (r.1.coh.stalled = true → exec (.bar4Read mod func off k link) s = .next (r.1.coh.asked.foldl State.arriveNew s)) ∧
    (r.1.coh.stalled = false → After (.bar4Read mod func off k link) s fun t => t.mem = s.mem ∧ t.cores = s.cores ∧
      ∀ q, s.exitQuay (mod / 4 % 2) = some q → t.out = s.out ++ [.cplData r.2.1 (r.2.2 || (link.filter wireReal).isSome) q]) ∧
    (s.coh.got = [] → r.2 = (s.peek a k, s.poisonIn a k))) ∧
  (∀ mod func off k link, s.boot.stopped = false → s.funcOk func = true → s.bar4In func off k = true → s.bar4Addr func off k = none →
    exec (.bar4Read mod func off k link) s = .next ((s.hostErr func false).complete mod .cplUR)) ∧
  (∀ func off data link a, s.funcOk func = true → s.bar4In func off data.length = true → s.bar4Addr func off data.length = some a →
    exec (.bar4Write func off data link) s = .next (s.pokeLink 4 0 a data link)) ∧
  (∀ func off data link, s.funcOk func = true → s.bar4In func off data.length = true → s.bar4Addr func off data.length = none →
    exec (.bar4Write func off data link) s = .next (s.hostErr func true)) ∧
  (∀ a data, s.pokeLink 4 0 a data none = s.pokeAs 4 0 a data) ∧
  (∀ mod func off width, s.boot.stopped = false → s.funcOk func = true → bar0Fits off width = false →
    exec (.bar0UnsupportedAccess mod func off width false) s = .next (s.complete mod .cplUR)) ∧
  (∀ mod func off width, exec (.bar0UnsupportedAccess mod func off width true) s = .next s) ∧
  (∀ q (v : BitVec 64), q < 4096 → s.barOk = true → s.qFunc q = 0 → s.qState q = 1 → bits v.toNat 59 56 = 0 → bits v.toNat 63 60 = 0 →
    bits v.toNat 47 32 = s.genOf (s.qFunc q) → bits v.toNat 55 48 = s.get (F.FE_Q_STAT_EPOCH q) →
    (bits v.toNat 31 0 + 2 ^ 32 - s.get (F.FE_Q_PTR_TAIL q)) % 2 ^ 32 ≤ 2 ^ s.get (F.FE_Q_CFG_SIZE q) →
    (bits v.toNat 31 0 + 2 ^ 32 - s.get (F.FE_Q_PTR_HEAD q)) % 2 ^ 32 ≤ 2 ^ s.get (F.FE_Q_CFG_SIZE q) →
    exec (.doorbell 0 (4096 * q) 8 v) s = .next ((s.set (F.FE_Q_PTR_TAIL q) (bits v.toNat 31 0)).resched (s.qPart q))) ∧
  (∀ q (v : BitVec 64), q < 4096 → s.barOk = true → s.qFunc q = 0 → s.qState q = 1 → bits v.toNat 59 56 = 0 → bits v.toNat 63 60 = 0 →
    bits v.toNat 47 32 ≠ s.genOf (s.qFunc q) → exec (.doorbell 0 (4096 * q) 8 v) s = .next (s.dbDrop (some q) 4)) ∧
  (s.barOk = true → exec .hostWindowSync s = .next ({ s with host := { s.host with
    sync := (s.host.reads.map HRead.id).foldl setIns s.host.sync, syncTo := s.coh.serial } }.set F.PT_HWIN_SYNC_DONE 0)) ∧
  (let synced := (∀ i ∈ s.host.sync, ∀ r ∈ s.host.reads, r.id ≠ i) ∧
     ∀ e ∈ s.cores, ∀ b ∈ e.2.sb, ¬(region (b.line * 128) = .hostWin ∧ b.serial < s.host.syncTo)
   let may := s.get F.PT_HWIN_SYNC_DONE = 0 ∧ synced ∧ s.running = true
   (¬may → exec .hostWindowSyncDone s = .next s) ∧
   (may → exec .hostWindowSyncDone s = .next ({ s with host := { s.host with sync := [], syncTo := 0 } }.set F.PT_HWIN_SYNC_DONE 1)))

/-- Page walks, invalidations, the fault log, gating and D3hot. -/
def Obligations.TranslationAndPowerCommands : Prop :=
  ∀ s : State, s.Canonical →
  (∀ core va w n, s.host.walks.find? (sameWalk core va) = some w →
    s.walkLevel w.level w.table w.va w.setup w.access = .next n → exec (.pageWalkEntryRead core va) s =
      .next (s.setWalks (updFirst (sameWalk w.unit w.va) (fun w => { w with level := w.level - 1, table := n }) s.host.walks))) ∧
  (∀ core va w p, s.host.walks.find? (sameWalk core va) = some w →
    s.walkLevel w.level w.table w.va w.setup w.access = .leaf p → exec (.pageWalkEntryRead core va) s =
      .next ((s.setWalks (dropFirst (sameWalk w.unit w.va) s.host.walks)).tlbAdd 0 w.unit w.ctx p)) ∧
  (∀ core va w c pa, s.host.walks.find? (sameWalk core va) = some w →
    s.walkLevel w.level w.table w.va w.setup w.access = .fault c pa → exec (.pageWalkEntryRead core va) s =
      .next ((s.setWalks (dropFirst (sameWalk w.unit w.va) s.host.walks)).walkFault w c pa)) ∧
  (∀ func p (v : BitVec 64), s.fnSees func p = true → p < 16 → bit v.toNat 0 = true → After (.faultLogClear func p v) s fun t =>
    t.get (F.PT_FAULT_STAT_COUNT p) = 0 ∧ t.get (F.PT_FAULT_STAT_LOST p) = 0 ∧ t.mem = s.mem) ∧
  (∀ v : BitVec 64, s.barOk = true → bit v.toNat 31 = true → s.on (F.PT_XLAT_INV_BUSY 0) = false → After (.xlatInvalidate 0 v) s fun t =>
    t.on (F.PT_XLAT_INV_BUSY 0) = true ∧ t.host.invs.length = s.host.invs.length + 1 ∧ t.host.tlb = s.host.tlb ∧ t.mem = s.mem) ∧
  (∀ func i, s.host.invs.find? (fun x => x.func == func) = some i → s.allLanded i = true → After (.xlatInvalidateDone func) s fun t =>
    t.on (F.PT_XLAT_INV_BUSY func) = false ∧ (∀ e ∈ t.host.tlb, s.inScope i e.ctx e.va (2 ^ e.lg) = false) ∧
    (∀ e ∈ s.host.tlb, s.inScope i e.ctx e.va (2 ^ e.lg) = false → e ∈ t.host.tlb)) ∧
  (∀ core, s.running = true → s.canGate core = true → exec (.corePowerGate core) s = .next (s.gate core)) ∧
  (∀ core, s.running = true → (s.ungating (core / 64)).contains core = true →
    exec (.coreUngate core) s = .next { s with pow := { s.pow with gated := setDel s.pow.gated core } }) ∧
  (s.running = true → s.boot.phase = .ready → After .d3hotEntry s fun t => t.pow.d3 = true ∧ t.mem = s.mem ∧ t.fe = s.fe) ∧
  (exec .d0Return s = .next { s with pow := { s.pow with d3 := false } })

/-- R188: the arithmetic, logic, shift and extreme operations, on bit vectors of the operand width. -/
def Obligations.IntegerLaneResults : Prop :=
  ∀ (s : State) (at' : Issue) (w : BitVec 128) (o : Op),
  let n := aluN o.w
  let k := s.core o.core
  let A := fun th => BitVec.ofNat (32 * n) (srcA o.w n k th)
  let B := fun th => BitVec.ofNat (32 * n) (srcB o.w n k th)
  let C := fun th => BitVec.ofNat (32 * n) (srcC o.w n k th)
  (Issues s 1 0x01 at' w o → After (.mov at' w) s (Writes o n (fun th => (A th).toNat) s)) ∧
  (Issues s 1 0x02 at' w o → After (.add at' w) s (Writes o n (fun th => (A th + B th).toNat) s)) ∧
  (Issues s 1 0x03 at' w o → After (.sub at' w) s (Writes o n (fun th => (A th - B th).toNat) s)) ∧
  (Issues s 1 0x05 at' w o → After (.mul at' w) s (Writes o n (fun th => (A th * B th).toNat) s)) ∧
  (Issues s 1 0x06 at' w o → After (.mulhi at' w) s (Writes o n (fun th =>
    if wU o.w then (A th).toNat * (B th).toNat / 2 ^ (32 * n)
    else (BitVec.ofInt (32 * n) ((A th).toInt * (B th).toInt / (2 ^ (32 * n) : Nat))).toNat) s)) ∧
  (Issues s 1 0x07 at' w o → After (.mad at' w) s (Writes o n (fun th => (A th * B th + C th).toNat) s)) ∧
  (Issues s 1 0x08 at' w o → After (.and at' w) s (Writes o n (fun th => (A th &&& B th).toNat) s)) ∧
  (Issues s 1 0x09 at' w o → After (.or at' w) s (Writes o n (fun th => (A th ||| B th).toNat) s)) ∧
  (Issues s 1 0x0A at' w o → After (.xor at' w) s (Writes o n (fun th => (A th ^^^ B th).toNat) s)) ∧
  (Issues s 1 0x0B at' w o → After (.not at' w) s (Writes o n (fun th => (~~~A th).toNat) s)) ∧
  (Issues s 1 0x0C at' w o → After (.shl at' w) s (Writes o n (fun th => (A th <<< ((B th).toNat % (32 * n))).toNat) s)) ∧
  (Issues s 1 0x0D at' w o → After (.shr at' w) s (Writes o n (fun th =>
    (if wU o.w then A th >>> ((B th).toNat % (32 * n)) else (A th).sshiftRight ((B th).toNat % (32 * n))).toNat) s)) ∧
  (Issues s 1 0x0E at' w o → After (.min at' w) s (Writes o n (fun th =>
    (if (if wU o.w then (B th).ult (A th) else (B th).slt (A th)) then B th else A th).toNat) s)) ∧
  (Issues s 1 0x0F at' w o → After (.max at' w) s (Writes o n (fun th =>
    (if (if wU o.w then (A th).ult (B th) else (A th).slt (B th)) then B th else A th).toNat) s))

/-- R188, R189: carries, comparisons, selections, counts and the cross-lane operations. -/
def Obligations.ComparisonAndCrossLaneResults : Prop :=
  ∀ (s : State) (at' : Issue) (w : BitVec 128) (o : Op),
  let n := aluN o.w
  let m := 32 * n
  let k := s.core o.core
  let A := fun th => BitVec.ofNat m (srcA o.w n k th)
  let B := fun th => BitVec.ofNat m (srcB o.w n k th)
  let num := fun (x : BitVec m) => if wU o.w then (x.toNat : Int) else x.toInt
  (Issues s 1 0x04 at' w o → After (.addc at' w) s fun t =>
    OnCore o s t (fun k k' => { k' with t := k.t, p := k.p }) fun k k' =>
      LaneRegs o n (fun th => (A th).toNat + (B th).toNat + b2n (k.pred th (wC o.w))) k k' ∧
      LanePreds o (wC o.w) (fun th => decide (2 ^ m ≤ (A th).toNat + (B th).toNat + b2n (k.pred th (wC o.w)))) k k') ∧
  (Issues s 1 0x10 at' w o → After (.setp at' w) s (WritesPred o (fun th =>
    let a := num (A th)
    let b := num (B th)
    match wCmp o.w with
    | 0 => decide (a = b) | 1 => decide (a ≠ b) | 2 => decide (a < b) | 3 => decide (a ≤ b) | 4 => decide (a > b) | _ => decide (a ≥ b)) s)) ∧
  (Issues s 1 0x11 at' w o → After (.sel at' w) s (Writes o n (fun th =>
    (if k.pred th (wC o.w) then A th else B th).toNat) s)) ∧
  (Issues s 1 0x12 at' w o → After (.plop at' w) s (WritesPred o (fun th =>
    (bits (wImm o.w) 7 0).testBit
      (4 * b2n (k.pred th (wA o.w)) + 2 * b2n (k.pred th (wB o.w)) + b2n (k.pred th (wC o.w)))) s)) ∧
  (Issues s 1 0x13 at' w o → After (.popc at' w) s (Writes o n (fun th => (A th).cpop.toNat) s)) ∧
  (Issues s 1 0x14 at' w o → After (.clz at' w) s (Writes o n (fun th => (A th).clz.toNat) s)) ∧
  (Issues s 1 0x15 at' w o → After (.shfl at' w) s (Writes o n (fun th =>
    let l := th % 32
    let b := srcB o.w 1 k th
    let from' := match wFunc o.w with
      | 0 => b % 32
      | 1 => if b ≤ l then l - b else l
      | 2 => if l + b ≤ 31 then l + b else l
      | _ => l ^^^ (b % 32)
    (A (th / 32 * 32 + from')).toNat) s)) ∧
  (Issues s 1 0x16 at' w o → wFunc o.w = 0 → After (.vote at' w) s (WritesPred o (fun _ => o.ex.any fun th => k.pred th (wA o.w)) s)) ∧
  (Issues s 1 0x16 at' w o → wFunc o.w = 1 → After (.vote at' w) s (WritesPred o (fun _ => o.ex.all fun th => k.pred th (wA o.w)) s)) ∧
  (Issues s 1 0x16 at' w o → wFunc o.w = 2 → After (.vote at' w) s fun t => ∃ x, Writes o 1 (fun _ => x) s t ∧
    ∀ l, l < 32 → x.testBit l = (o.ex.any fun th => th % 32 == l && k.pred th (wA o.w))) ∧
  (Issues s 1 0x17 at' w o → After (.lred at' w) s fun t => ∃ x, Writes o n (fun _ => x) s t ∧
    match wFunc o.w with
    | 0 => x = (o.ex.map fun th => (A th).toNat).sum % 2 ^ m
    | 1 => x ∈ (o.ex.map fun th => (A th).toNat) ∧ ∀ th ∈ o.ex, num (BitVec.ofNat m x) ≤ num (A th)
    | 2 => x ∈ (o.ex.map fun th => (A th).toNat) ∧ ∀ th ∈ o.ex, num (A th) ≤ num (BitVec.ofNat m x)
    | 3 => ∀ i, i < m → x.testBit i = o.ex.all fun th => (A th).getLsbD i
    | 4 => ∀ i, i < m → x.testBit i = o.ex.any fun th => (A th).getLsbD i
    | _ => x = o.ex.foldl (fun a th => a ^^^ (A th).toNat) 0)

/-- R191, R192: results, sticky flags and frame of the FPU and CVT classes. -/
def Obligations.FloatingPointLaneResults : Prop :=
  ∀ (s : State) (at' : Issue) (w : BitVec 128) (o : Op),
  let k := s.core o.core
  let c := wType o.w
  let a := fun th => fpA o.w k th
  let b := fun th => fpB o.w k th
  let base := (k.ureg o.group (wC o.w)).toNat % 2 ^ 32
  (Issues s 2 0x01 at' w o → After (.fadd at' w) s (WritesFlags o (fpN o.w) (fun th => fadd c (wRM o.w) (a th) (b th)) s)) ∧
  (Issues s 2 0x02 at' w o → After (.fmul at' w) s (WritesFlags o (fpN o.w) (fun th => fmul c (wRM o.w) (a th) (b th)) s)) ∧
  (Issues s 2 0x03 at' w o → After (.ffma at' w) s (WritesFlags o (fpN o.w) (fun th => ffma c (wRM o.w) (a th) (b th) (fpC o.w k th)) s)) ∧
  (Issues s 2 0x04 at' w o → After (.fmin at' w) s (WritesFlags o (fpN o.w) (fun th => fminmax false c (a th) (b th)) s)) ∧
  (Issues s 2 0x05 at' w o → After (.fmax at' w) s (WritesFlags o (fpN o.w) (fun th => fminmax true c (a th) (b th)) s)) ∧
  (Issues s 2 0x06 at' w o → After (.fsetp at' w) s fun t =>
    OnCore o s t (fun k k' => { k' with p := k.p, fstat := k.fstat }) fun k k' =>
      LanePreds o (wD o.w) (fun th => fcompare (wCmp o.w) (decodeEl c (a th)) (decodeEl c (b th))) k k' ∧
      LaneFlags o (fun th => readFlag (decodeEl c (a th)) ||| readFlag (decodeEl c (b th))) k k') ∧
  (Issues s 3 0x01 at' w o → isCodebook (wType2 o.w) = false → After (.cvt at' w) s (WritesFlags o (if c = 1 then 2 else 1)
    (fun th => let r := convert (wType2 o.w) c (wRM o.w) (wSat o.w) (cvtSrc o.w k th); (spread c r.1, r.2)) s)) ∧
  (Issues s 3 0x01 at' w o → isCodebook (wType2 o.w) = true → tableFault k (wType2 o.w) base = 0 → After (.cvt at' w) s
    (WritesFlags o (if c = 1 then 2 else 1) (fun th =>
      let r := convTo c (wRM o.w) (wSat o.w) (decodeEl 4 (k.wellByte (base + cvtSrc o.w k th)).toNat)
      (spread c r.1, r.2)) s)) ∧
  (Issues s 3 0x01 at' w o → isCodebook (wType2 o.w) = true →
    let size := if wType2 o.w = 11 then 16 else 64
    (base % size ≠ 0 → exec (.cvt at' w) s = .next (s.raiseOp o 0x31 { va := base })) ∧
    (base % size = 0 → k.P < base + size → exec (.cvt at' w) s = .next (s.raiseOp o 0x32 { va := base }))) ∧
  (Issues s 3 0x02 at' w o → After (.sfu at' w) s (WritesFlags o 1 (fun th => sfuResult (wFunc o.w) (srcA o.w 1 k th)) s))

/-- Rules of R71, R77, R78, R81 and R190 over all operands. -/
def Obligations.FloatingPointRules : Prop :=
  (∀ c mode a b, c ≤ 3 → (decodeEl c a).isNaN = true ∨ (decodeEl c b).isNaN = true → (fadd c mode a b).1 = canonNaN c ∧
    (fmul c mode a b).1 = canonNaN c ∧ ∀ d, (ffma c mode a b d).1 = canonNaN c) ∧
  (∀ c mode a b d, c ≤ 3 → (decodeEl c d).isNaN = true → (ffma c mode a b d).1 = canonNaN c) ∧
  (∀ c mode a b, c ≤ 3 → fadd c mode a b = fadd c mode b a ∧ fmul c mode a b = fmul c mode b a ∧
    ∀ d, ffma c mode a b d = ffma c mode b a d) ∧
  (∀ m c a b, (decodeEl c a).isNaN = true → (decodeEl c b).isNaN = false →
    (fminmax m c a b).1 = b ∧ (fminmax m c b a).1 = b) ∧
  (∀ m c a b, (decodeEl c a).isNaN = true → (decodeEl c b).isNaN = true → (fminmax m c a b).1 = canonNaN c) ∧
  (∀ cond x y, x.isNaN = true ∨ y.isNaN = true → (cond < 6 → fcompare cond x y = false) ∧ fcompare 6 x y = false ∧
    (7 ≤ cond → fcompare cond x y = true)) ∧
  (∀ x y, x.isNaN = false → y.isNaN = false → fcompare 4 x y = fcompare 2 y x ∧ fcompare 3 x y = !fcompare 2 y x ∧
    fcompare 1 x y = !fcompare 0 x y ∧ fcompare 7 x y = false ∧ fcompare 6 x y = true) ∧
  (∀ w mode q, convInt w mode (.nan q) = (0, flNV)) ∧
  (∀ w mode m, 0 < w → 2 ^ (w - 1) ≤ m → convInt w mode (.fin false m 0) = (2 ^ (w - 1) - 1, flOF + flNX + flSA)) ∧
  (∀ mode m e, 0 < m → Val.add mode (.fin false m e) (.fin true m e) = (.fin (mode == 2) 0 e, 0))

/-- R193: the UNIF class on 64-bit words. -/
def Obligations.UniformResults : Prop :=
  ∀ (s : State) (at' : Issue) (w : BitVec 128) (o : Op),
  let k := s.core o.core
  let A := BitVec.ofNat 64 (uniA o.w o.group k)
  let B := BitVec.ofNat 64 (uniB o.w o.group k)
  (Issues s 8 0x01 at' w o → After (.umov at' w) s (WritesUniform o A s)) ∧
  (Issues s 8 0x02 at' w o → After (.uadd at' w) s (WritesUniform o (A + B) s)) ∧
  (Issues s 8 0x03 at' w o → After (.usub at' w) s (WritesUniform o (A - B) s)) ∧
  (Issues s 8 0x04 at' w o → After (.uand at' w) s (WritesUniform o (A &&& B) s)) ∧
  (Issues s 8 0x05 at' w o → After (.uor at' w) s (WritesUniform o (A ||| B) s)) ∧
  (Issues s 8 0x06 at' w o → After (.uxor at' w) s (WritesUniform o (A ^^^ B) s)) ∧
  (Issues s 8 0x07 at' w o → After (.ushl at' w) s (WritesUniform o (A <<< (B.toNat % 64)) s)) ∧
  (Issues s 8 0x08 at' w o → After (.ushr at' w) s
    (WritesUniform o (if wU o.w then A >>> (B.toNat % 64) else A.sshiftRight (B.toNat % 64)) s)) ∧
  (Issues s 8 0x09 at' w o → After (.umul at' w) s (WritesUniform o (A * B) s)) ∧
  (Issues s 8 0x0A at' w o → ∀ th l, o.ex = th :: l → After (.ufirst at' w) s
    (WritesUniform o (BitVec.ofNat 64 (k.regs th (wA o.w) (if wSz64 o.w then 2 else 1))) s))

/-- R201: the CTRL class. -/
def Obligations.ControlFlowOfTheCores : Prop :=
  ∀ (s : State) (at' : Issue) (w : BitVec 128) (o : Op),
  let k := s.core o.core
  let next := fun th => (k.thPc th + 16) % 2 ^ 64
  let rel := ((o.pc : Int) + 16 * (BitVec.ofNat 32 (wImm o.w)).toInt) % (2 ^ 64 : Nat)
  let goes := fun (target : Nat → Nat) (k' : Core) => ∀ th, k'.thPc th =
    if th ∈ o.ex then target th else if th ∈ o.all then next th else k.thPc th
  let A := fun th => srcA o.w 2 k th
  let links := fun (k' : Core) => LaneRegs o 2 (fun _ => (o.pc + 16) % 2 ^ 64) k k'
  let onlyPc := fun (t : State) (target : Nat → Nat) => ∃ k', t = s.setCore o.core k' ∧ goes target k' ∧ Counted o k k' ∧
    { k' with pc := k.pc, turns := k.turns, lastTurn := k.lastTurn } = k
  let called := fun (t : State) (target : Nat → Nat) => ∃ k', t = s.setCore o.core k' ∧ goes target k' ∧ links k' ∧ Counted o k k' ∧
    { k' with pc := k.pc, t := k.t, turns := k.turns, lastTurn := k.lastTurn } = k
  (Issues s 7 0x01 at' w o → After (.nop at' w) s fun t => onlyPc t next) ∧
  (Issues s 7 0x02 at' w o → After (.bra at' w) s fun t => onlyPc t fun _ => rel.toNat) ∧
  (Issues s 7 0x03 at' w o → (∀ th ∈ o.ex, A th % 16 = 0) → After (.brx at' w) s fun t => onlyPc t A) ∧
  (Issues s 7 0x04 at' w o → After (.call at' w) s fun t => called t fun _ => rel.toNat) ∧
  (Issues s 7 0x05 at' w o → (∀ th ∈ o.ex, A th % 16 = 0) → After (.callx at' w) s fun t => called t A) ∧
  (Issues s 7 0x03 at' w o → (∃ th ∈ o.ex, A th % 16 ≠ 0) → exec (.brx at' w) s = .next (s.raiseOp o 0x3C)) ∧
  (Issues s 7 0x05 at' w o → (∃ th ∈ o.ex, A th % 16 ≠ 0) → exec (.callx at' w) s = .next (s.raiseOp o 0x3C)) ∧
  (Issues s 7 0x07 at' w o → exec (.trap at' w) s = .next (s.setCore o.core
    { k with exc := some ⟨0x37, o.group, o.pc, o.all, o.w, 0, 0, 7, false, false, [wImm o.w]⟩ })) ∧
  (Issues s 7 0x08 at' w o → After (.fstatrd at' w) s (WritesUniform o (BitVec.ofNat 64 (k.flags o.group)) s)) ∧
  (Issues s 7 0x09 at' w o → After (.fstatclr at' w) s fun t =>
    OnCore o s t (fun k k' => { k' with fstat := k.fstat }) fun k k' => (∀ g, g ≠ o.group → k'.flags g = k.flags g) ∧
      ∀ i, (k'.flags o.group).testBit i = ((k.flags o.group).testBit i && !(decide (i < 7) && (wImm o.w).testBit i) && decide (i < 7))) ∧
  (Issues s 7 0x06 at' w o → o.blk.cluster = false → o.blk.resident = false → (∀ th, tabFind k.wait th = none) →
    After (.exit at' w) s fun t => ∃ k', t = s.setCore o.core k' ∧ (∀ th, th ∈ k'.live ↔ th ∈ k.live ∧ th ∉ o.ex) ∧ Counted o k k' ∧ k'.t = k.t ∧
      k'.p = k.p ∧ k'.u = k.u ∧ (∀ th, k'.thPc th = if th ∈ o.all ∧ th ∉ o.ex then next th else k.thPc th))

/-- The issue of R181, R183 and R206, for every row of the cores. -/
def Obligations.IssueOutcomes : Prop :=
  ∀ (i : Instr) (cls op : Nat) (at' : Issue) (w : BitVec 128) (s : State), coreRow i = some (cls, op, at', w) →
  let k := s.core at'.core
  let all := k.fragment at'.group at'.pc
  (k.blk = none ∨ all = [] ∨ k.exc.isSome = true ∨ s.running = false → exec i s = .next s) ∧
  (k.canIssue = true → k.turn at' = false → exec i s = .next s) ∧
  (k.stopped = true → s.dbg.step ≠ some (at'.core, at'.group, at'.pc) → exec i s = .next s) ∧
  (∀ core group pc x lanes code info, (s.core core).exc = none → s.raise core group pc x lanes code info =
    s.setCore core { s.core core with exc := some (Exc.mk code group pc lanes x
      info.va info.pa info.level info.write info.fetch info.extra) }) ∧
  ∀ b, k.blk = some b → all ≠ [] → s.running = true → k.canIssue = true → k.turn at' = true →
    (∀ j, s.dbg.target = some b.ctx → s.breakHit at'.pc = some j → exec i s = .next (s.halt b.ctx 1 at'.core at'.group j)) ∧
    ((s.dbg.target = some b.ctx → s.breakHit at'.pc = none) →
      (s.xlate at'.core b.ctx at'.pc .fetch = .miss →
        exec i s = .next (s.walkStart at'.core at'.group at'.pc all w.toNat b.ctx b.part at'.pc .fetch)) ∧
      (∀ c l pa, s.xlate at'.core b.ctx at'.pc .fetch = .fault c l pa →
        exec i s = .next (s.raise at'.core at'.group at'.pc 0 all c { va := at'.pc, pa := pa, level := l, fetch := true })) ∧
      ∀ p pa, s.xlate at'.core b.ctx at'.pc .fetch = .ok p pa →
        (opDefined (wClass w.toNat) (wOp w.toNat) w.toNat = false →
          exec i s = .next (s.raise at'.core at'.group at'.pc w.toNat all 0x30)) ∧
        (opDefined (wClass w.toNat) (wOp w.toNat) w.toNat = true → wClass w.toNat ≠ cls ∨ wOp w.toNat ≠ op → exec i s = .next s) ∧
        (opDefined cls op w.toNat = true → wClass w.toNat = cls → wOp w.toNat = op →
          (legal w.toNat = false → exec i s = .next (s.raise at'.core at'.group at'.pc w.toNat all 0x30)) ∧
          (∀ lane, legal w.toNat = true → at'.bad = some lane → k.flight at'.group at'.pc = none →
            (∃ t ∈ all.filter (guardOk k w.toNat), t % 32 = lane) →
            let worn := s.wear 5 (s.clPhys (at'.core / 8) - 1) 256
            (cls ≤ 3 → exec i s = .next (worn.raise at'.core at'.group at'.pc w.toNat all 0x36)) ∧
            After i s fun t => t = worn.raise at'.core at'.group at'.pc w.toNat all 0x36 ∨
              (t.core at'.core).exc.isSome = true ∨ t.host.walks.length ≠ s.host.walks.length) ∧
          (legal w.toNat = true → all.filter (guardOk k w.toNat) = [] → After i s fun t => ∃ k', t = s.setCore at'.core k' ∧
            (∀ th, k'.thPc th = if th ∈ all then (k.thPc th + 16) % 2 ^ 64 else k.thPc th) ∧
            k'.turns = (k.counted at'.group all).turns ∧ k'.lastTurn = (k.counted at'.group all).lastTurn ∧
            { k' with pc := k.pc, turns := k.turns, lastTurn := k.lastTurn } = k)))

/-- R164, for every row of the MEM class. -/
def Obligations.ScratchpadAccessChecks : Prop :=
  ∀ (i : Instr) (op : Nat) (at' : Issue) (w : BitVec 128) (s : State) (o : Op), coreRow i = some (4, op, at', w) →
  Issues s 4 op at' w o → wSpace o.w = true →
  let k := s.core o.core
  let n := memWidth op
  let off := fun th => laneOff o k th
  let beyond := fun th => off th < 0 ∨ (k.P : Int) < off th + n
  let bad := fun th => off th % n ≠ 0 ∨ beyond th
  let raised := fun th (code : Nat) => Host.Outcome.next (s.raiseOp o code { va := wrap 64 (off th), write := !isLoadOp op })
  (n = 1 ∨ n = 2 ∨ n = 4 ∨ n = 8 ∨ n = 16) ∧
  (∀ l th r, o.ex = l ++ th :: r → (∀ x ∈ l, ¬bad x) →
    (off th % n ≠ 0 → exec i s = raised th 0x31) ∧ (off th % n = 0 → beyond th → exec i s = raised th 0x32)) ∧
  ((∀ th ∈ o.ex, ¬bad th) → wSem o.w = 0 → After i s fun t => (t.core o.core).exc = none)

/-- R195, R196, R240: loads and stores that complete at once. -/
def Obligations.LoadsAndStoresOfTheCores : Prop :=
  ∀ (i : Instr) (op : Nat) (at' : Issue) (w : BitVec 128) (s : State) (o : Op), coreRow i = some (4, op, at', w) →
  Issues s 4 op at' w o →
  let k := s.core o.core
  let n := memWidth op
  let regs := max 1 (n / 4)
  let off := fun th => laneOff o k th
  let good := ∀ th ∈ o.ex, 0 ≤ off th ∧ off th % n = 0 ∧ off th + n ≤ k.P
  let ext := fun (x : Nat) => if op = 2 ∨ op = 4 then ((BitVec.ofNat (8 * n) x).signExtend 32).toNat else x
  let moved := fun (t : State) => Moved o k (t.core o.core)
  (isLoadOp op = true → wSpace o.w = true → good → After i s fun t =>
    OnlyCore o s t (fun k k' => { k' with t := k.t, lines := if wSem o.w = 1 ∧ wScope o.w ≠ 0 then k.lines else k'.lines }) ∧ moved t ∧
    LaneRegs o regs (fun th => ext (ofBytes (k.wellGet (off th).toNat n))) k (t.core o.core) ∧
    (wSem o.w = 1 → wScope o.w ≠ 0 → (t.core o.core).lines = [])) ∧
  (isLoadOp op = false → wSpace o.w = true → good → wSem o.w = 0 → After i s fun t =>
    OnlyCore o s t (fun k k' => { k' with well := k.well }) ∧ moved t ∧
    (∀ th ∈ o.ex, ∀ j, j < n → (∀ x ∈ o.ex, th < x → ¬((off x).toNat ≤ (off th).toNat + j ∧ (off th).toNat + j < (off x).toNat + n)) →
      (t.core o.core).wellByte ((off th).toNat + j) = BitVec.ofNat 8 (k.regs th (wD o.w) regs / 2 ^ (8 * j))) ∧
    ∀ a, (∀ x ∈ o.ex, ¬((off x).toNat ≤ a ∧ a < (off x).toNat + n)) → (t.core o.core).wellByte a = k.wellByte a) ∧
  (∀ val : Nat → List Byte, isLoadOp op = true → wSpace o.w = false → (∀ th ∈ o.ex, ∃ pa p,
      s.laneCheck o false false (laneVa o k th) n = .ok (laneVa o k th) pa p ∧ region pa = .localMem ∧
      (listed (k.sbLine (lineOf pa)) (pa % 128) n = some (val th) ∨
       (anyListed (k.sbLine (lineOf pa)) (pa % 128) n = false ∧ s.lineOut o.core (lineOf pa) = false ∧ beyondWell o.w = false ∧ loadClass p (wCQ o.w) ≠ 2 ∧
        ∃ d, k.lines.find? (fun e => e.1 == lineOf pa) = some d ∧ val th = (List.range n).map fun j => tabGet 0 d.2 (pa % 128 + j)))) →
    After i s fun t => OnlyCore o s t (fun k k' => { k' with t := k.t, resps := k.resps, sent := k.sent, lines := k.lines }) ∧
      moved t ∧ LaneRegs o regs (fun th => ext (ofBytes (val th))) k (t.core o.core)) ∧
  (isLoadOp op = false → wSpace o.w = false → wSem o.w = 0 → k.sb.length + o.ex.length ≤ 64 → (∀ th ∈ o.ex, ∃ pa p,
      s.laneCheck o true false (laneVa o k th) n = .ok (laneVa o k th) pa p ∧ region pa = .localMem) →
    After i s fun t => t.mem = s.mem ∧ t.regs = s.regs ∧ t.out = s.out ∧ (t.core o.core).t = k.t ∧ moved t ∧
      ∀ th pa p, o.ex = [th] → s.laneCheck o true false (laneVa o k th) n = .ok (laneVa o k th) pa p →
        (∀ e ∈ k.sb, e.line = lineOf pa → e.setup = true) →
        listed ((t.core o.core).sbLine (lineOf pa)) (pa % 128) n =
          some ((List.range n).map fun j => BitVec.ofNat 8 (k.regs th (wD o.w) regs / 2 ^ (8 * j))))

/-- R172, R198, R199: the ATOM class. -/
def Obligations.AtomicsOfTheCores : Prop :=
  ∀ (i : Instr) (op : Nat) (at' : Issue) (w : BitVec 128) (s : State) (o : Op), coreRow i = some (5, op, at', w) →
  Issues s 5 op at' w o →
  let k := s.core o.core
  let n := atomN o.w
  let m := 32 * n
  let wr := op != 3
  let drop := fun (k : Core) => dropFirst (fun (x : Flight) => x.group == o.group && x.pc == o.pc) k.flights
  (∀ th, wSpace o.w = true → wSem o.w = 0 → wAtop o.w ≠ 1 → wAtop o.w ≠ 4 → wAtop o.w ≠ 7 → o.ex = [th] →
    let a := laneOff o k th
    0 ≤ a → a % (4 * n : Nat) = 0 → a + (4 * n : Nat) ≤ k.P →
    let old := BitVec.ofNat m (ofBytes (k.wellGet a.toNat (4 * n)))
    let x := BitVec.ofNat m (k.regs th (wB o.w) n)
    let y := BitVec.ofNat m (k.regs th (wC o.w) n)
    let new := match wAtop o.w with
      | 0 => old + x | 2 => if x.slt old then x else old | 3 => if x.ult old then x else old
      | 5 => if old.slt x then x else old | 6 => if old.ult x then x else old
      | 8 => old &&& x | 9 => old ||| x | 10 => old ^^^ x | 11 => x | _ => if old = x then y else old
    After i s fun t => t = { s with cores := t.cores } ∧ Moved o k (t.core o.core) ∧
      BitVec.ofNat m (ofBytes ((t.core o.core).wellGet a.toNat (4 * n))) = new ∧
      (∀ b, b < a.toNat ∨ a.toNat + 4 * n ≤ b → (t.core o.core).wellByte b = k.wellByte b) ∧
      (if op = 1 then LaneRegs o n (fun _ => old.toNat) k (t.core o.core) else (t.core o.core).t = k.t)) ∧
  (∀ l, wSpace o.w = false → wSem o.w < 2 → k.flight o.group o.pc = none → s.lanesCheck o wr true (4 * n) o.ex = (l, none) →
    (∀ e ∈ l, ∀ x ∈ k.sb, x.line ≠ lineOf e.2.2.1) →
    (∀ e ∈ l, ∀ q ∈ s.coh.pend, q.cluster = o.core / 8 → q.line ≠ lineOf e.2.2.1) →
    let kinds := atomKinds o k (l.map fun e => (e.1, e.2.2.1))
    After i s fun t => t.mem = s.mem ∧ t.regs = s.regs ∧ (t.core o.core).t = k.t ∧ (t.core o.core).p = k.p ∧
      (∃ rs, t.coh.reqs = s.coh.reqs ++ rs ∧ rs.map (fun r => (r.kind, r.addr)) = kinds ∧ ∀ r ∈ rs, r.agent = 0 ∧ r.unit = o.core) ∧
      (if op = 2 ∧ wSem o.w % 2 = 0 then Moved o k (t.core o.core) ∧ (t.core o.core).flights = k.flights
       else (t.core o.core).pc = k.pc ∧ ∃ f, (t.core o.core).flights = k.flights ++ [f] ∧ f.group = o.group ∧ f.pc = o.pc ∧
         f.lanes = o.all ∧ f.wait.length = kinds.length)) ∧
  (∀ f, wSpace o.w = false → k.flight o.group o.pc = some f → f.wait = [] → f.poison = false → After i s fun t =>
    OnlyCore o s t (fun k k' => { k' with t := k.t, p := k.p, flights := k.flights, lines := k.lines }) ∧ Moved o k (t.core o.core) ∧
    (t.core o.core).flights = drop k ∧
    (if op = 1 ∨ op = 3 then LaneRegs o n (fun th => tabGet 0 f.got th) k (t.core o.core) ∧ (t.core o.core).p = k.p
     else if op = 4 then LanePreds o (wD o.w) (fun th => tabGet 0 f.got th != 0) k (t.core o.core) ∧ (t.core o.core).t = k.t
     else (t.core o.core).t = k.t ∧ (t.core o.core).p = k.p)) ∧
  (∀ f, wSpace o.w = false → k.flight o.group o.pc = some f → f.wait = [] → f.poison = true → After i s fun t =>
    (t.core o.core).t = k.t ∧ (t.core o.core).p = k.p ∧ (t.core o.core).pc = k.pc ∧ ((t.core o.core).exc.map (·.code)) = some 0x36) ∧
  (∀ f, wSpace o.w = false → k.flight o.group o.pc = some f → f.wait ≠ [] → exec i s = .next s)

/-- R245 to R247, R254: releases, acquires and the fabric fence. -/
def Obligations.FencesAndReleases : Prop :=
  ∀ (s : State) (at' : Issue) (w : BitVec 128) (o : Op),
  let k := s.core o.core
  let mine := fun (r : Rel) => r.group == o.group && r.pc == o.pc
  let acquired := fun (k' : Core) => k'.lines = if wSem o.w % 2 = 1 ∧ wScope o.w ≠ 0 then [] else k.lines
  (Issues s 6 0x01 at' w o → wSem o.w = 1 → After (.fence at' w) s fun t =>
    OnlyCore o s t (fun k k' => { k' with lines := k.lines }) ∧ Moved o k (t.core o.core) ∧ acquired (t.core o.core)) ∧
  (Issues s 6 0x01 at' w o → 2 ≤ wSem o.w → k.rels.find? mine = none → k.sb = [] → k.rq = [] → s.atomsOut o.core = false →
    (∀ q ∈ s.coh.pend, q.cluster ≠ o.core / 8) → After (.fence at' w) s fun t =>
      t.mem = s.mem ∧ t.regs = s.regs ∧ (t.core o.core).t = k.t ∧ Moved o k (t.core o.core) ∧ acquired (t.core o.core)) ∧
  (∀ e ∈ k.sb, Issues s 6 0x01 at' w o → 2 ≤ wSem o.w → wScope o.w ≠ 0 → k.rels.find? mine = none → k.rq = [] →
    e.serial < s.coh.serial → After (.fence at' w) s fun t => t.mem = s.mem ∧ (t.core o.core).t = k.t ∧ (t.core o.core).pc = k.pc ∧
      (∀ x ∈ (t.core o.core).sb, x.closed = true) ∧
      (t.core o.core).rels = k.rels ++ [⟨o.group, o.pc, o.all, wScope o.w, s.coh.serial, false⟩]) ∧
  (∀ r, Issues s 6 0x01 at' w o → 2 ≤ wSem o.w → k.rels.find? mine = some r →
    (r.done = false → exec (.fence at' w) s = .next s) ∧
    (r.done = true → After (.fence at' w) s fun t => OnlyCore o s t (fun k k' => { k' with lines := k.lines, rels := k.rels }) ∧
      Moved o k (t.core o.core) ∧ acquired (t.core o.core) ∧ (t.core o.core).rels = dropFirst mine k.rels)) ∧
  (∀ r, let k := s.core at'.core
    let waits := fun (r : Rel) => r.group == at'.group && r.pc == at'.pc && r.scope < 3 && !r.done
    k.rels.find? waits = some r → exec (.releaseComplete at') s = .next (if s.relOk at'.core r.scope r.serial then
      s.setCore at'.core { k with rels := updFirst waits (fun r => { r with done := true }) k.rels } else s)) ∧
  (Issues s 6 0x02 at' w o → k.rels.any mine = false → After (.ffence at' w) s fun t => t.mem = s.mem ∧ (t.core o.core).t = k.t ∧
    (t.core o.core).pc = k.pc ∧ (t.core o.core).rq = [] ∧ (t.core o.core).sb = k.sb ∧
    ∃ n, (t.core o.core).rels = k.rels ++ [⟨o.group, o.pc, o.all, 3, n, false⟩]) ∧
  (Issues s 6 0x02 at' w o → k.rels.any mine = true → exec (.ffence at' w) s = .next s) ∧
  (∀ r, let k := s.core at'.core
    let waits := fun (r : Rel) => r.group == at'.group && r.pc == at'.pc && r.scope == 3
    k.rels.find? waits = some r → k.stopped = false → r.lanes.Nodup →
    (s.fabPending at'.core r.serial = true → exec (.ffenceComplete at') s = .next s) ∧
    (s.fabPending at'.core r.serial = false → After (.ffenceComplete at') s fun t =>
      ∃ k', t = s.setCore at'.core k' ∧ k'.lines = [] ∧ k'.rels = dropFirst waits k.rels ∧
        (∀ th, k'.thPc th = if th ∈ r.lanes then (k.thPc th + 16) % 2 ^ 64 else k.thPc th) ∧
        k'.turns = (k.counted at'.group r.lanes).turns ∧ k'.lastTurn = (k.counted at'.group r.lanes).lastTurn ∧
        { k' with pc := k.pc, lines := k.lines, rels := k.rels, turns := k.turns, lastTurn := k.lastTurn } = k))

/-- R167 to R171: barriers at the three scopes. -/
def Obligations.BarriersOfTheCores : Prop :=
  ∀ (s : State) (at' : Issue) (w : BitVec 128) (o : Op),
  let k := s.core o.core
  let sc := wBScope o.w
  let n := wBNum o.w
  let mine := fun (r : Rel) => r.group == o.group && r.pc == o.pc
  let there := fun th => th ∈ o.ex ∨ ∃ x, tabFind k.wait th = some (.bar 0 n x)
  let goOn := fun (k k' : Core) (l : List Nat) => (∀ th ∈ l, tabFind k'.wait th = none ∧ k'.thPc th = (k.thPc th + 16) % 2 ^ 64) ∧
    (∀ th, th ∉ l → k'.thPc th = k.thPc th) ∧ k'.t = k.t ∧ k'.live = k.live
  (Issues s 6 0x03 at' w o → (sc = 1 ∧ o.blk.cluster = false) ∨ (sc = 2 ∧ o.blk.resident = false) →
    exec (.bar at' w) s = .next (s.raiseOp o 0x35)) ∧
  (Issues s 6 0x03 at' w o → sc = 0 → k.rels.find? mine = none → k.rq = [] → (∃ th ∈ k.live, ¬there th) → After (.bar at' w) s fun t =>
    (∀ th ∈ o.ex, tabFind (t.core o.core).wait th = some (.bar 0 n o.w) ∧ (t.core o.core).thPc th = k.thPc th) ∧
    (∀ th ∈ o.all, th ∉ o.ex → (t.core o.core).thPc th = (k.thPc th + 16) % 2 ^ 64) ∧ (t.core o.core).t = k.t ∧ t.mem = s.mem) ∧
  (Issues s 6 0x03 at' w o → sc = 0 → k.rels.find? mine = none → k.rq = [] → k.live.Nodup → (∀ th ∈ k.live, there th) →
    After (.bar at' w) s fun t => t.mem = s.mem ∧ (t.core o.core).t = k.t ∧
      ∀ th ∈ k.live, (t.core o.core).thPc th = (k.thPc th + 16) % 2 ^ 64) ∧
  (∀ launch num block l, s.launch launch = some l →
    let cs := s.blockCores l block
    let s' := s.setLaunch { l with arrived := l.arrived ++ [(num, block)] }
    ((∀ c ∈ cs, (s.core c).allAt 2 num = true) → (∃ c ∈ cs, (s.core c).live ≠ []) → (num, block) ∉ l.arrived →
      exec (.deviceBarrierArrival launch num block) s = .next (s'.deviceBar launch num)) ∧
    ((∃ c ∈ cs, (s.core c).allAt 2 num = false) ∨ (num, block) ∈ l.arrived →
      exec (.deviceBarrierArrival launch num block) s = .next s)) ∧
  (∀ core num, (s.core core).live.Nodup →
    let l := (s.core core).live.filter fun th => tabFind (s.core core).wait th == some (.barDone 2 num)
    After (.deviceBarrierRelease core num) s fun t => goOn (s.core core) (t.core core) l ∧ (l ≠ [] → (t.core core).lines = []) ∧
      t = { s with cores := t.cores } ∧ ∀ c, c ≠ core → t.core c = s.core c) ∧
  (∀ cluster num, After (.clusterBarrierRelease cluster num) s fun t => t = { s with cores := t.cores } ∧
    ∀ c, t.core c = if c / 8 = cluster then (s.released c 1 num).core c else s.core c) ∧
  (∀ core scope num b th l, (s.core core).blk = some b → (s.core core).exc = none → (s.core core).stopped = false →
    (s.core core).live.filter ((s.core core).waitsAt scope num) = th :: l →
    (s.barRaised core scope num b = true ∨ s.berthHolds core scope num b = true → exec (.barrierWatchdogExpiry core scope num) s = .next s) ∧
    (s.barRaised core scope num b = false → s.berthHolds core scope num b = false → After (.barrierWatchdogExpiry core scope num) s fun t =>
      ∃ x, (t.core core).exc = some x ∧ x.code = 0x34 ∧ x.group = th / 32 ∧ x.pc = (s.core core).thPc th ∧
        x.extra.take 3 = [scope + num * 4, s.arrivedAt core scope num b,
          ((s.core core).live.filter fun y => !(s.core core).waitsAt scope num y).length] ∧
        { t.core core with exc := none } = s.core core ∧ t = { s with cores := t.cores }))

/-- R178, steps 3 to 5. -/
def Obligations.ExceptionsAreTakenAfterTheirDrain : Prop :=
  ∀ (s : State) (core : Nat),
  ((s.core core).exc = none → exec (.exceptionDrainComplete core) s = .next s) ∧
  ∀ x b, (s.core core).exc = some x → (s.core core).blk = some b →
  let d := s.flushCore core
  ((d.core core).sb ≠ [] ∨ d.dbg.held = some core → exec (.exceptionDrainComplete core) s = .next d) ∧
  ((d.core core).sb = [] → d.dbg.held ≠ some core → d.dbg.target = some b.ctx → d.on F.TD_DBG_CTL_HOLD = true →
    exec (.exceptionDrainComplete core) s = .next ({ d with dbg := { d.dbg with held := some core } }.halt b.ctx 3 core x.group 0)) ∧
  ((d.core core).exc = some x → (d.core core).blk = some b → (d.core core).sb = [] → d.dbg.held ≠ some core →
    d.dbg.target ≠ some b.ctx ∨ d.on F.TD_DBG_CTL_HOLD = false → After (.exceptionDrainComplete core) s fun t =>
      let src := if 0x20 ≤ x.code ∧ x.code ≤ 0x29 then 2 else if 0x38 ≤ x.code ∧ x.code ≤ 0x3B then 3 else 1
      let f := d.faultAs src 3 (FaultRec.mk x.code x.level x.write x.fetch 0 core b.ctx b.part x.va x.pa)
        ([x.pc, x.group, laneMask x.lanes, x.word % 2 ^ 64, x.word / 2 ^ 64] ++ x.extra)
      let cause := if src = 2 then 2 else 1
      t = (f.setCore core { f.core core with exc := none, stopped := true }).tear b.ctx cause x.code cause)

/-- R102 to R108: the life of an operation in the queue. -/
def Obligations.MatrixIssueAndCompletion : Prop :=
  ∀ (s : State) (at' : Issue) (w : BitVec 128) (o : Op),
  (let k := s.core o.core
   let off := (k.ureg o.group (wA o.w)).toNat % 2 ^ 20
   let tok := k.token o.group (wD o.w)
   (Issues s 9 0x01 at' w o →
     (tok.inFlight = true → exec (.missue at' w) s = .next s) ∧
     (∀ c, tok.inFlight = false → issueCode k off = some c → exec (.missue at' w) s = .next (s.raiseOp o c { extra := [o.core, off] })) ∧
     (tok.inFlight = false → issueCode k off = none → 32 ≤ k.queue.length → exec (.missue at' w) s = .next s) ∧
     (tok.inFlight = false → issueCode k off = none → k.queue.length < 32 → After (.missue at' w) s fun t =>
       t.mem = s.mem ∧ t.regs = s.regs ∧ Moved o k (t.core o.core) ∧ (t.core o.core).t = k.t ∧ (t.core o.core).well = k.well ∧
       (t.core o.core).token o.group (wD o.w) = ⟨true, 0⟩ ∧
       (∀ g r, r < 16 → ¬(g = o.group ∧ r = wD o.w) → (t.core o.core).token g r = k.token g r) ∧
       ∃ x, (t.core o.core).queue = k.queue ++ [x] ∧ x.group = o.group ∧ x.kd = wD o.w ∧ x.off = off ∧ x.started = false ∧
         x.recd = k.wellGet off 32 ∧ x.c = k.wellGet ((recF x.recd).c * 32) 32)) ∧
   (Issues s 9 0x02 at' w o →
     let toks := ((List.range 16).filter fun i => (wImm o.w).testBit i).map fun i => k.token o.group i
     ((∃ t ∈ toks, t.inFlight = true) → exec (.mwait at' w) s = .next s) ∧
     ((∀ t ∈ toks, t.inFlight = false) → After (.mwait at' w) s
       (WritesUniform o (BitVec.ofNat 64 (toks.foldl (fun a t => a ||| t.status) 0)) s)))) ∧
  ∀ core id x, (s.core core).mtx id = some x →
    let k := s.core core
    let before := (k.queue.takeWhile fun e => e.id != id).reverse
    (k.stopped = true ∨ x.started = true ∨ before.any (fun e => !e.started) = true ∨ x.mayStart before = false →
      exec (.mtxOperationStart core id) s = .next s) ∧
    (k.stopped = false → x.started = false → before.any (fun e => !e.started) = false → x.mayStart before = true →
      (∀ c, lowest (k.startCodes x) = some c → exec (.mtxOperationStart core id) s = .next (s.mtxFault core x c)) ∧
      (lowest (k.startCodes x) = none → After (.mtxOperationStart core id) s fun t => ∃ k', t = s.setCore core k' ∧
        k'.queue = updFirst (fun x => x.id == id) (fun x => { x with started := true }) k.queue ∧ k'.t = k.t ∧ k'.well = k.well ∧
        k'.tok = k.tok ∧ (x.r.op ≠ 1 → k'.acc = k.acc ∧ k'.slots = k.slots) ∧
        (x.r.op = 1 → x.r.clear = true → ∃ v, k'.slot x.tc = some v ∧ v.tset = true ∧ v.ufcnt = 0 ∧ v.pcnt = 0 ∧
          ∀ a, x.tile.1 ≤ a → a < x.tile.1 + x.tile.2 → tabGet 0 k'.acc a = 0))) ∧
    (x.finished = true → After (.mtxOperationComplete core id) s fun t => ∃ k', t = s.setCore core k' ∧
      k'.queue = dropFirst (fun e => e.id == id) k.queue ∧ k'.token x.group x.kd = ⟨false, x.status⟩ ∧
      { k' with queue := k.queue, tok := k.tok } = k) ∧
    (x.finished = false → exec (.mtxOperationComplete core id) s = .next s)

/-- R127 to R132, R138: what the engine's operations and the limiter do. -/
def Obligations.MatrixWork : Prop :=
  ∀ (s : State) (core id : Nat),
  let k := s.core core
  let lane := fun (t : State) => t = { s with cores := t.cores } ∧ (∀ c, c ≠ core → t.core c = s.core c) ∧
    (t.core core).t = k.t ∧ (t.core core).p = k.p ∧ (t.core core).u = k.u ∧ (t.core core).pc = k.pc ∧ (t.core core).tok = k.tok
  let did := fun (t : State) (x : MtxOp) (n : Nat) => (t.core core).queue.map (fun y => (y.id, y.steps)) =
    (updFirst (fun y => y.id == id) (fun y => { y with steps := n }) k.queue).map (fun y => (y.id, y.steps)) ∧ x.id = id
  (∀ x steps, k.mtx id = some x → x.r.op = 1 → x.started = true → k.stopped = false → x.finished = false → After (.mma core id steps) s fun t =>
    lane t ∧ did t x (x.steps + min steps (x.total - x.steps)) ∧ (t.core core).well = k.well ∧
    (x.tc.mode ≠ 1 → steps = 1 → (∀ i j, i < x.tc.m → j < x.tc.n →
      (t.core core).fpEl x.tc i j = (kStep (k.fpEl x.tc i j) (k.products x i j x.steps)).1 % 2 ^ 32) ∧
      (∀ a, a < x.tile.1 ∨ x.tile.1 + x.tile.2 ≤ a → tabGet 0 (t.core core).acc a = tabGet 0 k.acc a))) ∧
  (∀ x steps, k.mtx id = some x → x.r.op ≠ 1 ∨ x.started = false ∨ k.stopped = true ∨ x.finished = true →
    exec (.mma core id steps) s = .next s) ∧
  (∀ x v, k.mtx id = some x → x.r.op = 2 → x.started = true → x.steps = 0 → k.slot x.tc = some v → After (.read core id) s fun t =>
    lane t ∧ did t x 1 ∧ (t.core core).acc = k.acc ∧ (t.core core).well = (k.readTile x v).1.well ∧
    (t.core core).slot x.tc = some { v with ovf := v.ovf || (k.readTile x v).2.2 }) ∧
  (∀ x v, k.mtx id = some x → x.r.op = 3 → x.started = true → x.steps = 0 → k.slot x.tc = some v → After (.readraw core id) s fun t =>
    lane t ∧ did t x 1 ∧ (t.core core).acc = k.acc ∧ (t.core core).slots = k.slots ∧
    (t.core core).wellGet x.td.sbase 32 = v.record) ∧
  (∀ x, k.mtx id = some x → x.r.op = 4 → x.started = true → x.steps = 0 → After (.load core id) s fun t =>
    lane t ∧ did t x 1 ∧ (t.core core).well = k.well ∧
    (x.ta.kind ≠ 4 → x.tc.mode ≠ 1 → x.r.add = false → (t.core core).slot x.tc = some x.tc.opened ∧ x.tc.opened.tset = false ∧
      ∀ i j, i < x.tc.m → j < x.tc.n → (t.core core).fpEl x.tc i j = k.sourceEl x.ta i j % 2 ^ 32)) ∧
  (∀ half beats, half < 16 → s.running = true → s.clockStopped (half / 2) = false →
    let n := half / 2
    let b := min beats (s.halfCap half)
    let fall := s.get F.PW_CTL_FALLSTEP
    After (.limiterFrameBoundary half beats) s fun t => t.mem = s.mem ∧ t.cores = s.cores ∧
      (∀ i, i < 8 → ∀ c, c / 8 = 8 * half + i → t.coreLevel c = s.levelOf (8 * half + i)) ∧
      (fall = 0 → tabGet 0 t.pow.halfBeats half = b) ∧
      (b ≤ tabGet 0 t.pow.halfBeats half ∧ tabGet 0 t.pow.halfBeats half ≤ s.halfCap half) ∧
      (s.dieForced n = true → tabGet 0 t.pow.halfBeats half = b) ∧
      (half ≠ s.leadHalf n → t.get (F.PW_DIE_STAT_LEVEL n) = s.get (F.PW_DIE_STAT_LEVEL n)) ∧
      (half = s.leadHalf n → s.dieForced n = false → tabGet 64 s.pow.tgt n ≤ 64 →
        t.get (F.PW_DIE_STAT_LEVEL n) ≤ s.get (F.PW_DIE_STAT_LEVEL n) + 8 ∧ s.get (F.PW_DIE_STAT_LEVEL n) ≤ t.get (F.PW_DIE_STAT_LEVEL n) + 8))

/-- R277 to R280, R284: the arrival of requests. -/
def Obligations.HomeRequests : Prop :=
  ∀ s : State,
  let row := fun (k : ReqKind) (id err : Nat) => match k with
    | .rdShared _ => some (Instr.rdShared id err) | .rdOwn => some (.rdOwn id err) | .upgrade => some (.upgrade id err)
    | .rdNarrow => some (.rdNarrow id err) | .atomic _ => some (.atomic id err none) | _ => none
  let turn := fun (r : Req) => s.coh.reqs.find? (fun x => x.id == r.id) = some r ∧ s.heldLine (r.addr / 128) = false ∧ s.outOfTurn r = false
  let took := fun (id : Nat) => { s with coh := { s.coh with reqs := s.coh.reqs.filter fun q => q.id != id } }
  (∀ r i, turn r → row r.kind r.id 0 = some i →
    let line := r.addr / 128
    let waits := { took r.id with coh := { (took r.id).coh with waitq := s.coh.waitq ++ [r] } }
    (s.lineOpen line = true → s.trackersFull (s.homeSlice line) = false →
      exec i s = .next (((took r.id).startTxn r).dirRoom line) ∧
      (s.dirVictim line r.kind = none → exec i s = .next ((took r.id).startTxn r))) ∧
    (s.txn line = none → s.lineOpen line = false ∨ s.trackersFull (s.homeSlice line) = true → exec i s = .next waits) ∧
    ∀ t, s.txn line = some t → (t.joins r.kind = false ∨ s.hasReds line = true → exec i s = .next (waits.dirRoom line) ∧
        (t.served = true ∨ s.dirFull line t = false → exec i s = .next waits)) ∧
      (t.joins r.kind = true → s.hasReds line = false → exec i s = .next ((((took r.id).setTxn line
        { t with joiners := t.joiners ++ [r] }).countCs (F.CS_HIT_COUNT · r.cls) line 1).dirRoom line))) ∧
  (∀ id err w, exec (.atomic id err (some w)) s = exec (.atomic id err none) (s.opPoison id (some w) ReqKind.isAtomic)) ∧
  (∀ r i, turn r → row r.kind r.id 1 = some i → let home := s.homeSlice (r.addr / 128)
    exec i s = .next ((s.wear 4 (s.slPhys home - 1) 256).dirError (r.addr / 128))) ∧
  (∀ r i err, s.coh.reqs.find? (fun x => x.id == r.id) = some r → row r.kind r.id err = some i → s.heldLine (r.addr / 128) = true →
    exec i s = .next s) ∧
  (∀ id e, s.coh.reqs.find? (fun x => x.id == id) = none → exec (.rdOwn id e) s = .next s ∧ exec (.upgrade id e) s = .next s ∧
    exec (.rdNarrow id e) s = .next s ∧ exec (.atomic id e none) s = .next s ∧ exec (.rdShared id e) s = .next s) ∧
  (∀ agent unit addr err data, 1 ≤ agent → agent ≤ 5 → addr < localTop →
    let req := fun k => Req.mk s.coh.serial k addr agent unit 0 0x3FF 0 0 (agentClass agent) s.coh.serial
    let s' := s.tick.2
    let part := ReqKind.wrPart (data.mapIdx fun i b => (addr % 128 + i, b)) 0
    let whole := ReqKind.wrLine (data.mapIdx fun i b => (i, b)) 0
    let gives := fun (err : Nat) (f : ReqKind → State) => exec (.rdOnce agent unit addr err) s = .next (f .rdOnce) ∧
      (data ≠ [] → addr % 128 + data.length ≤ 128 → exec (.wrPart agent unit addr err data none) s = .next (f part)) ∧
      (data.length = 128 → addr % 128 = 0 → exec (.wrLine agent unit (addr / 128) err data none) s = .next (f whole))
    (s.lineOpen (addr / 128) = true → s.trackersFull (s.homeSlice (addr / 128)) = false → gives 0 fun k => s'.startTxn (req k)) ∧
    (s.heldLine (addr / 128) = true → gives err fun k => { s' with coh := { s'.coh with waitq := s.coh.waitq ++ [req k] } })) ∧
  (∀ r, let plan := snoopPlan r.kind r.cluster (s.dirOf (r.addr / 128))
    plan.2 ≠ [] → (s.startTxn r).txn (r.addr / 128) = some ⟨r, plan.2, [], false, 0, [], false, false, s.opensEntry r, none⟩ ∧
      (s.startTxn r).coh.snoops = s.coh.snoops ++ plan.2.map fun c => ⟨r.addr / 128, c, plan.1, r.cluster⟩) ∧
  (∀ r c, let line := r.addr / 128
    s.dirOf line = none → s.dirVictim line .rdOwn = none → s.cisFind line = some c → c.sv % 16 = 15 →
    (∀ na, r.kind = .rdShared na → (s.startTxn r).dirOf line = some (.owner r.cluster) ∧
      (s.startTxn r).coh.grants = s.coh.grants ++ [⟨line, r.cluster, .E, some (s.lineNow line)⟩]) ∧
    (r.kind = .rdOwn → (s.startTxn r).dirOf line = some (.owner r.cluster) ∧
      (s.startTxn r).coh.grants = s.coh.grants ++ [⟨line, r.cluster, .M, some (s.lineNow line)⟩] ∧
      ∀ x ∈ (s.startTxn r).coh.resv, x.granule ≠ line / 2))

/-- R275, R279, R280, R283: the cluster's side and the end of transactions. -/
def Obligations.SnoopsWritebacksAndFills : Prop :=
  ∀ (s : State) (cl line : Nat),
  let rows : List (Nat × Instr) := [(0, .snpShare cl line false), (1, .snpInv cl line false), (2, .snpMove cl line false),
    (3, .snpPeek cl line false), (4, .snpRecall cl line false)]
  (∀ e ∈ rows, ∀ x c, s.coh.snoops.find? (fun x => x.kind == e.1 && x.target == cl && x.line == line) = some x → s.ccFind cl line = some c →
    After e.2 s fun t => t.mem = s.mem ∧ t.cores = s.cores ∧ t.coh.snoops = dropFirst (· == x) s.coh.snoops ∧
      (e.1 = 0 → t.ccFind cl line = some { c with st := .S }) ∧ (e.1 = 3 → t.ccFind cl line = some c) ∧
      (e.1 = 1 ∨ e.1 = 2 ∨ e.1 = 4 → t.ccFind cl line = none) ∧
      t.coh.replies = s.coh.replies ++ [⟨line, cl, true,
        if c.st = .M ∧ (e.1 = 0 ∨ e.1 = 3 ∨ e.1 = 4) then some (c.data, c.poison) else none, e.1 == 0 || e.1 == 2, false⟩] ∧
      t.coh.grants = s.coh.grants ++ (if e.1 = 0 then [⟨line, x.dest, .S, some (c.data, c.poison)⟩]
        else if e.1 = 2 then [⟨line, x.dest, .M, some (c.data, c.poison)⟩] else [])) ∧
  (∀ e ∈ rows, ∀ x, s.coh.snoops.find? (fun x => x.kind == e.1 && x.target == cl && x.line == line) = some x → s.snoopFind cl line = none →
    exec e.2 s = .next ({ s with coh := { s.coh with snoops := dropFirst (· == x) s.coh.snoops } }.addReply
      ⟨line, cl, false, none, false, false⟩)) ∧
  (∀ e ∈ rows, s.coh.snoops.find? (fun x => x.kind == e.1 && x.target == cl && x.line == line) = none → exec e.2 s = .next s) ∧
  (∀ r t, s.coh.replies.find? (fun r => r.cluster == cl && r.line == line) = some r → s.txn line = some t → r.data = none → r.wbp = false →
    s.wbFind cl line = none →
    exec (.snoopReply cl line none) s = .next (({ s with coh := { s.coh with replies := dropFirst (· == r) s.coh.replies } }.setTxn line
      { t with await := setDel t.await cl, forwarded := t.forwarded || r.forwarded }).progress line)) ∧
  (∀ dirty c, s.wbFind cl line = none → s.ccFind cl line = some c → c.st = (if dirty then CState.M else .E) →
    (s.coh.wb.filter fun w => w.cluster == cl).length < 16 → s.txn line = none → s.dirOf line = some (.owner cl) →
    s.heldLine line = false → (dirty = true → (s.cisAlloc line).isSome = true) →
    (∀ q ∈ s.coh.reqs, q.agent = 0 → q.kind.ofCache = true → q.cluster = cl → s.homeSlice (q.addr / 128) ≠ s.homeSlice line ∨ s.heldLine (q.addr / 128) = true) →
    (∀ x ∈ s.coh.wb, x.cluster = cl → x.noticed = true ∨ s.homeSlice x.line ≠ s.homeSlice line) →
    After (if dirty then .wbDirty cl line none else .wbClean cl line) s fun t => t.ccFind cl line = none ∧ t.dirOf line = none ∧
      ∃ w ∈ t.coh.wb, w.cluster = cl ∧ w.line = line ∧ w.dirty = dirty ∧ w.noticed = true ∧ w.acked = true) ∧
  (exec (.wbAck cl line) s = .next (s.setWb (dropFirst (fun w => w.cluster == cl && w.line == line && w.acked) s.coh.wb))) ∧
  (∀ g, s.coh.grants.find? (fun g => g.cluster == cl && g.line == line) = some g →
    (∀ q ∈ s.coh.pend, ¬(q.cluster = cl ∧ q.line = line)) →
    (s.ccFind cl line).isSome = true ∨ (s.coh.cc.filter fun e => e.1 % 128 == cl).length < ccLines →
    After (.clusterFillResponse cl line none none) s fun t =>
      (t.ccFind cl line).map (·.st) = some g.st ∧ (∀ d, g.data = some d → t.ccFind cl line = some ⟨g.st, d.1, d.2⟩) ∧
      t.coh.grants = dropFirst (· == g) s.coh.grants ∧ t.mem = s.mem ∧ t.coh.dir = s.coh.dir) ∧
  (∀ t, s.txn line = some t →
    (t.served = false → s.dirFull line t = false → exec (.homeTransactionComplete line) s = .next (s.progress line)) ∧
    (∀ v, t.served = false → s.dirFull line t = true → t.await = [] → t.wbs = [] → s.dirVictim line .rdOwn = some v → s.txn v = none →
      exec (.homeTransactionComplete line) s =
        .next (s.tick.2.startTxn ⟨s.coh.serial, .dirEvict, v * 128, 9, 0, 0, 0x3FF, 0, 0, 0, s.coh.serial⟩)) ∧
    (t.served = true → (∃ g ∈ s.coh.grants, g.line = line) → exec (.homeTransactionComplete line) s = .next s) ∧
    (t.served = true → (∀ g ∈ s.coh.grants, g.line ≠ line) → exec (.homeTransactionComplete line) s =
      .next ({ s with coh := { s.coh with txns := tabDel s.coh.txns line } }.startNext line)))

/-- R285, R291, R292, R294. -/
def Obligations.ReductionsAndDirectoryUpkeep : Prop :=
  ∀ s : State,
  (∀ id waited r a, s.takeRed id = some r → r.kind = .red a →
    let line := r.addr / 128
    let slice := s.homeSlice line
    let t := { s with coh := { s.coh with reqs := s.coh.reqs.filter fun q => q.id != id
                                          redWait := s.coh.redWait.filter fun q => q.id != id } }
    let first := ∀ q ∈ s.coh.redWait.takeWhile (fun q => q.id != id), s.homeSlice (q.addr / 128) ≠ slice
    let full := exec (.red id waited 0 none) s = .next (State.count
      (if ∃ q ∈ s.coh.redWait, q.id = id then s else { t with coh := { t.coh with redWait := t.coh.redWait ++ [r] } })
      (F.CS_RBFULL_COUNT (s.chunkPart r.addr)) waited)
    (first → s.lineOpen line = true → s.trackersFull slice = false → (s.cisAlloc line).isSome = true →
      (s.onlyMem line (2 ^ (a.addr % 128 / 32)) = 0 → s.dirOf line = none → exec (.red id waited 0 none) s =
        .next (((t.applyRed line a).atomAnswer r.unit r.id [] false).countCs (F.CS_HIT_COUNT · 5) line 1)) ∧
      (s.onlyMem line (2 ^ (a.addr % 128 / 32)) ≠ 0 ∨ s.dirOf line ≠ none → exec (.red id waited 0 none) s = .next (t.startTxn r))) ∧
    (first → s.busy line = true → s.bufferUse slice < 64 → After (.red id waited 0 none) s fun u => u.mem = s.mem ∧
      ∃ e ∈ u.coh.reds, e.a.op = a.op ∧ e.a.addr = a.addr ∧ ∀ l ∈ a.lanes, l ∈ e.a.lanes) ∧
    (first → s.busy line = true → 64 ≤ s.bufferUse slice → s.redMate a = none → full) ∧ (¬first → full)) ∧
  (∀ id waited err, s.takeRed id = none → exec (.red id waited err none) s = .next s) ∧
  (∀ id waited err w, exec (.red id waited err (some w)) s = exec (.red id waited err none) (s.opPoison id (some w) ReqKind.isRed)) ∧
  (∀ line, s.hasReds line = true → s.busy line = false → s.heldLine line = false → s.queued line = false → s.redsWait line = false →
    (s.cisAlloc line).isSome = true → After (.reductionBufferApply line) s fun t =>
    t.hasReds line = false ∧ (∀ c, t.ccFind c line = none ∨ 128 ≤ c) ∧ t.dirOf line = none) ∧
  (∀ line, s.busy line = true ∨ s.hasReds line = false ∨ s.redsWait line = true → exec (.reductionBufferApply line) s = .next s) ∧
  (∀ cl last, exec (.streamTrackerExpiry cl last) s = .next { s with coh := { s.coh with
    trackers := dropFirst (fun t => t.cluster == cl && t.last == last) s.coh.trackers } }) ∧
  (∀ slice set, (slice, set) ∉ s.coh.rebuild → exec (.directoryRebuildComplete slice set) s = .next s) ∧
  (∀ slice set, (slice, set) ∈ s.coh.rebuild → s.coh.txns = [] → After (.directoryRebuildComplete slice set) s fun t =>
    (t = s ∧ ∃ l, s.homeSlice l = slice ∧ dirSet l = set ∧ (s.ownedData l).isSome = true) ∨
      (slice, set) ∉ t.coh.rebuild) ∧
  (∀ slice set, (slice, set) ∈ s.coh.rebuild → s.coh.txns = [] → (∀ l, s.homeSlice l = slice → dirSet l = set → s.ownedData l = none) →
    After (.directoryRebuildComplete slice set) s fun t => (slice, set) ∉ t.coh.rebuild ∧ t.evr.seq = (s.evr.seq + 1) % 2 ^ 32)

/-- R204, R205, R214 to R218, R371: the STREAM class. -/
def Obligations.StreamsOfTheCores : Prop :=
  ∀ (s : State) (at' : Issue) (w : BitVec 128) (o : Op),
  let k := s.core o.core
  let m := 4 * 2 ^ wWidth o.w
  let others := k.stalls.filter fun x => !(x.group == o.group && x.pc == o.pc)
  -- the instruction ends: predicates of a non-blocking form, registers and scratchpad as `r` and `l` give them
  let ends := fun (s1 : State) (ok : Bool) (P : Core → Prop) (t : State) =>
    OnCore o s1 t (fun k k' => { k' with p := k.p, t := k.t, well := k.well, stalls := k.stalls }) fun k k' =>
      k'.stalls = others ∧ P k' ∧
      ∀ th i, i < 8 → k'.pred th i = if wNB o.w = true ∧ th ∈ o.ex ∧ i = wC o.w then ok else k.pred th i
  let same := fun (k' : Core) => k'.t = k.t ∧ k'.well = k.well
  let stays := fun (send : Bool) (c : Instr) => (wNB o.w = true → After c s (ends s false same)) ∧
    (wNB o.w = false → exec c s = .next (s.setCore o.core { k with stalls := others ++ [⟨o.group, o.pc, send, wPort o.w, o.w⟩] }))
  let sends := fun (c : Instr) (x : Sluice) (n : Nat) (msg : List Byte) =>
    (x.units < n ∨ x.msgs = 0 → stays true c) ∧
    (n ≤ x.units → 0 < x.msgs → After c s (ends
      (s.setSluice { x with units := x.units - n, msgs := x.msgs - 1, fly := x.fly ++ [msg] }) true same))
  let takes := fun (c : Instr) (x : Sluice) (n : Nat) (P : Core → Prop) =>
    (x.lens = [] → stays false c) ∧
    (∀ u bad l, x.lens = (u, bad) :: l →
      (bad = true → exec c s = .next (s.raiseOp o 0x36)) ∧
      (bad = false → u ≠ n → exec c s = .next (s.raiseOp o 0x3A)) ∧
      (bad = false → u = n → After c s (ends
        (s.setSluice { x with rptr := (x.rptr + n) % x.fsize, lens := l, back := x.back ++ [n] }) true P)))
  (Issues s 10 0x01 at' w o →
    (s.sluiceAt o.blk.launch o.core (wPort o.w) true = none → exec (.ssend at' w) s = .next (s.raiseOp o 0x38)) ∧
    (∀ x, s.sluiceAt o.blk.launch o.core (wPort o.w) true = some x →
      (x.maxlen < m → exec (.ssend at' w) s = .next (s.raiseOp o 0x39)) ∧
      (m ≤ x.maxlen → sends (.ssend at' w) x m ((List.range 32).flatMap fun l => toBytes m
        (if o.ex.contains (o.group * 32 + l) then k.regs (o.group * 32 + l) (wA o.w) (2 ^ wWidth o.w) else 0))))) ∧
  (Issues s 10 0x02 at' w o →
    (s.sluiceAt o.blk.launch o.core (wPort o.w) false = none → exec (.srecv at' w) s = .next (s.raiseOp o 0x38)) ∧
    (∀ x, s.sluiceAt o.blk.launch o.core (wPort o.w) false = some x → takes (.srecv at' w) x m fun k' =>
      k'.well = k.well ∧
      LaneRegs o (2 ^ wWidth o.w) (fun th => bytesAt (k.fifoGet x m) (th % 32 * m) m) k k')) ∧
  (∀ x, (streamFault o k (some x) true = none ↔ streamOff o k % 32 = 0 ∧ streamOff o k + 32 * streamLen o k ≤ k.P ∧
      streamBad o k = false ∧ streamLen o k ≤ x.maxlen) ∧
    (streamFault o k (some x) false = none ↔ streamOff o k % 32 = 0 ∧ streamOff o k + 32 * streamLen o k ≤ k.P ∧
      streamBad o k = false)) ∧
  (Issues s 10 0x03 at' w o →
    (∀ c, streamFault o k (s.sluiceAt o.blk.launch o.core (wPort o.w) true) true = some c →
      exec (.ssendm at' w) s = .next (s.raiseOp o c { va := streamOff o k })) ∧
    (∀ x, s.sluiceAt o.blk.launch o.core (wPort o.w) true = some x → streamFault o k (some x) true = none →
      sends (.ssendm at' w) x (streamLen o k)
        (k.wellGet (streamOff o k) (32 * streamLen o k)))) ∧
  (Issues s 10 0x04 at' w o →
    (∀ c, streamFault o k (s.sluiceAt o.blk.launch o.core (wPort o.w) false) false = some c →
      exec (.srecvm at' w) s = .next (s.raiseOp o c { va := streamOff o k, write := true })) ∧
    (∀ x, s.sluiceAt o.blk.launch o.core (wPort o.w) false = some x → streamFault o k (some x) false = none →
      takes (.srecvm at' w) x (streamLen o k) fun k' => k'.t = k.t ∧
        k'.wellGet (streamOff o k) (32 * streamLen o k) = k.fifoGet x (streamLen o k) ∧
        ∀ a, a < streamOff o k ∨ streamOff o k + 32 * streamLen o k ≤ a → tabGet 0 k'.well a = tabGet 0 k.well a)) ∧
  (Issues s 10 0x05 at' w o →
    let b := (k.ureg o.group (wA o.w)).toNat % 65536
    let mine := fun (x : BWaiter) => x.core == o.core && x.group == o.group && x.pc == o.pc
    let ahead := (s.fe.waiters.filter fun x => x.berth == b).takeWhile fun x => !mine x
    let ready := 0 < s.get (F.FE_BERTH_OWN_COUNT b) ∧ ahead = []
    (s.berthOf b o.blk.ctx = false → exec (.bwait at' w) s = .next (s.raiseOp o 0x3D)) ∧
    (s.berthOf b o.blk.ctx = true → ready → After (.bwait at' w) s fun t => t.mem = s.mem ∧ Moved o k (t.core o.core) ∧
      t.get (F.FE_BERTH_OWN_COUNT b) = s.get (F.FE_BERTH_OWN_COUNT b) - 1 ∧ (t.core o.core).t = k.t ∧ (t.core o.core).lines = [] ∧
      t.fe.waiters = s.fe.waiters.filter (fun x => !mine x) ∧
      (∀ i, i < 8 → (t.core o.core).ureg o.group (wD o.w + i) =
        BitVec.ofNat 64 (bytesAt (s.peek (s.berthItem b (tabGet 0 s.fe.taken b)) 64) (8 * i) 8)) ∧
      ∀ th i, i < 8 → (t.core o.core).pred th i = if wNB o.w = true ∧ th ∈ o.ex ∧ i = wC o.w then true else k.pred th i) ∧
    (s.berthOf b o.blk.ctx = true → ¬ready → wNB o.w = true → After (.bwait at' w) s (ends s false same)) ∧
    (s.berthOf b o.blk.ctx = true → ¬ready → wNB o.w = false → exec (.bwait at' w) s = .next (if s.fe.waiters.any mine then s
      else { s with fe := { s.fe with waiters := s.fe.waiters ++ [⟨b, o.core, o.group, o.pc⟩] } })))

/-- R214, R225, R227, R230. -/
def Obligations.SluiceRowsAndShares : Prop :=
  ∀ (s : State) (slot dst dport : Nat),
  (s.sluiceIn slot dst dport = none → (∀ late bad, exec (.sluiceMessageArrival slot dst dport late bad) s = .next s) ∧
    exec (.sluiceCreditReturn slot dst dport) s = .next s) ∧
  (∀ x late bad, s.sluiceIn slot dst dport = some x → x.fly = [] ∨ (s.core dst).blk.any (fun b => b.launch == x.launch) = false →
    exec (.sluiceMessageArrival slot dst dport late bad) s = .next s) ∧
  (∀ x late bad msg r, s.sluiceIn slot dst dport = some x → x.fly = msg :: r → (s.core dst).blk.any (fun b => b.launch == x.launch) = true →
    (∀ w, bad = some w → wireReal w = true ∧ s.usesUnit x (windowUnit (wireWindow w)).1 (windowUnit (wireWindow w)).2 = true) →
    After (.sluiceMessageArrival slot dst dport late bad) s fun t => t.mem = s.mem ∧
      t.sluices = updFirst (sameSluice x) (fun _ => { x with
        fly := r, wptr := (x.wptr + msg.length / 32) % x.fsize, lens := x.lens ++ [(msg.length / 32, bad.isSome)] }) s.sluices ∧
      (∀ w, bad = some w → t.wearOf 0 w = s.wearOf 0 w + 256 ∧ t.evr.seq = (s.evr.seq + 1) % 2 ^ 32) ∧
      (∀ c, c ≠ dst → t.core c = s.core c) ∧ (t.core dst).t = (s.core dst).t ∧
      (0 < x.fsize → msg.length ≤ 32 * x.fsize → ∀ i b, msg[i]? = some b →
        tabGet 0 (t.core dst).well (x.fbase + (32 * x.wptr + i) % (32 * x.fsize)) = b) ∧
      t.get (F.SL_PIPE_EXCESS_MAXEXC slot) = max (s.get (F.SL_PIPE_EXCESS_MAXEXC slot)) (min late (2 ^ 32 - 1)) ∧
      t.get (F.SL_PIPE_EXCESS_LATE slot) = (if late = 0 then s.get (F.SL_PIPE_EXCESS_LATE slot)
        else min (2 ^ 32 - 1) (s.get (F.SL_PIPE_EXCESS_LATE slot) + 1))) ∧
  (∀ x late w, s.sluiceIn slot dst dport = some x →
    (wireReal w && s.usesUnit x (windowUnit (wireWindow w)).1 (windowUnit (wireWindow w)).2) = false →
    exec (.sluiceMessageArrival slot dst dport late (some w)) s = exec (.sluiceMessageArrival slot dst dport late none) s) ∧
  (∀ x n r, s.sluiceIn slot dst dport = some x → x.back = n :: r → exec (.sluiceCreditReturn slot dst dport) s =
    .next { s with sluices := updFirst (sameSluice x) (fun _ => { x with back := r, units := x.units + n, msgs := x.msgs + 1 }) s.sluices }) ∧
  (∀ core group x, (s.core core).stalls.find? (fun x => x.group == group) = some x → (s.core core).canIssue = true →
    After (.sluiceStallTimeout core group) s fun t => t = { s with cores := t.cores } ∧ (∀ c, c ≠ core → t.core c = s.core c) ∧
      t.core core = { s.core core with
        stalls := (s.core core).stalls.filter (· != x)
        exc := some (Exc.mk 0x3B x.group x.pc ((s.core core).fragment x.group x.pc) x.word 0 0 7 false false []) }) ∧
  (∀ core group, (∀ x ∈ (s.core core).stalls, x.group ≠ group) ∨ (s.core core).canIssue = false →
    exec (.sluiceStallTimeout core group) s = .next s) ∧
  (∀ v : BitVec 64, slot < 64 → s.barOk = true → bit v.toNat 0 = true → After (.pipeRecordClear slot v) s fun t =>
    t.get (F.SL_PIPE_STAT_SVC slot) = 0 ∧ t.get (F.SL_PIPE_EXCESS_MAXEXC slot) = 0 ∧ t.get (F.SL_PIPE_EXCESS_LATE slot) = 0 ∧
    t.on (F.SL_PIPE_STAT_BOUND slot) = s.on (F.SL_PIPE_STAT_BOUND slot) ∧ t.on (F.SL_PIPE_STAT_DEGRADED slot) = s.on (F.SL_PIPE_STAT_DEGRADED slot) ∧
    t.get (F.SL_PIPE_STAT_PART slot) = s.get (F.SL_PIPE_STAT_PART slot) ∧ { t with regs := s.regs } = s ∧
    ∀ off, off ≠ A.SL_PIPE_STAT slot → off ≠ A.SL_PIPE_EXCESS slot → t.raw off = s.raw off) ∧
  (∀ v : BitVec 64, s.barOk = false ∨ bit v.toNat 0 = false → exec (.pipeRecordClear slot v) s = .next s) ∧
  (∀ p, ∀ v : BitVec 64, p < 16 → s.barOk = true →
    let seam := bits v.toNat 6 0
    let bridge := bits v.toNat 14 8
    let rest := fun (f : Nat → Fld) => (((List.range 16).filter (· ≠ p)).map fun q => s.get (f q)).foldl (· + ·) 0
    let sum := 64 < seam ∨ 64 < bridge ∨ 64 < seam + rest F.SL_SHARE_SEAM ∨ 64 < bridge + rest F.SL_SHARE_BRIDGE
    let busy := ∃ n, n < 64 ∧ s.on (F.SL_PIPE_STAT_BOUND n) = true ∧ s.get (F.SL_PIPE_STAT_PART n) = p
    After (.slShareWrite p v) s fun t => { t with regs := s.regs } = s ∧
      (sum ∨ busy → t.raw (A.SL_SHARE p) = s.raw (A.SL_SHARE p)) ∧
      (¬(sum ∨ busy) → t.get (F.SL_SHARE_SEAM p) = seam ∧ t.get (F.SL_SHARE_BRIDGE p) = bridge) ∧
      (t.on F.SL_ERR_SUM = true ↔ s.on F.SL_ERR_SUM = true ∨ sum) ∧ (t.on F.SL_ERR_BUSY = true ↔ s.on F.SL_ERR_BUSY = true ∨ busy) ∧
      ∀ off, off ≠ A.SL_SHARE p → off ≠ A.SL_ERR → t.raw off = s.raw off)

/-- R154, R155, R256: core blocks start and complete. -/
def Obligations.CoreBlocksStartAndEnd : Prop :=
  ∀ (s : State) (id core : Nat),
  (s.launch id = none → exec (.coreBlockDispatch id core) s = .next s) ∧
  (∀ l, s.launch id = some l → s.dispatchOk l core = false → exec (.coreBlockDispatch id core) s = .next s) ∧
  (∀ l, s.launch id = some l → l.next < l.grid → s.ctxState l.ctx = 2 → l.cluster = false ∨ core % 8 = 0 →
    l.slot = none ∨ l.cores[l.next]? = some core →
    (∀ c ∈ l.takes core, c ∈ l.cores ∧ s.coreFree c = true ∧ s.firstFor l c = true) →
    After (.coreBlockDispatch id core) s fun t =>
      t.mem = s.mem ∧ t.regs = s.regs ∧ t.coh = s.coh ∧ t.launch id = some { l with next := l.next + (l.takes core).length } ∧
      (∀ c, c ∉ l.takes core → t.core c = s.core c) ∧
      ∀ i c, (l.takes core)[i]? = some c →
        let k := t.core c
        k.blk = some ⟨l.id, l.ctx, l.part, l.next + i, l.threads, l.cluster, l.resident, l.wdog⟩ ∧ k.live = List.range l.threads ∧
        k.p = [] ∧ k.tok = [] ∧ k.fstat = [] ∧ k.acc = [] ∧ k.slots = [] ∧ k.lines = [] ∧ k.sb = [] ∧ k.exc = none ∧
        k.stopped = s.haltedCtx l.ctx ∧ k.well = (if (s.core c).keeps l then (s.core c).well else []) ∧
        (∀ th, th < l.threads → k.thPc th = l.entry) ∧
        (∀ th, th < 512 → k.reg th 0 = BitVec.ofNat 32 th ∧ k.reg th 1 = BitVec.ofNat 32 (l.next + i)) ∧
        (∀ th r, 2 ≤ r → r < 256 → k.reg th r = 0) ∧
        ∀ g r, g < 16 → r < 64 →
          k.ureg g r = if r < 16 then BitVec.ofNat 64 (bytesAt l.args (8 * r) 8) else 0) ∧
  (let k := s.core core
   (k.blk = none ∨ k.live ≠ [] ∨ k.stopped = true ∨ k.exc.isSome = true → exec (.coreBlockComplete core) s = .next s) ∧
   (∀ b l, k.blk = some b → k.live = [] → k.stopped = false → k.exc = none → k.sb = [] → k.rq = [] → k.queue = [] → k.flights = [] →
     s.atomsOut core = false → s.fabPending core (2 ^ 64) = false → s.written 0 core = true → (∀ q ∈ s.coh.pend, q.cluster ≠ core / 8) →
     s.launch b.launch = some l → After (.coreBlockComplete core) s fun t =>
       t.mem = s.mem ∧ (∀ c, c ≠ core → t.core c = s.core c) ∧ (t.core core).blk = none ∧ (t.core core).well = k.well ∧
       (t.core core).last = k.last ∧ (t.core core).t = [] ∧
       (l.doneBlocks + 1 ≠ l.grid → t.regs = s.regs ∧ t.sluices = s.sluices ∧ t.launch b.launch = some { l with doneBlocks := l.doneBlocks + 1 }) ∧
       (l.doneBlocks + 1 = l.grid → t.launch b.launch = none ∧ t.sluices = s.sluices.filter (fun x => x.launch != b.launch) ∧
         ∀ c, s.cmd l.cmd = some c → c.ended = false →
           t.cmd l.cmd = some { c with ended := true, status := 0, source := 0, result := 0 })))

/-- R53, R241, R243, R244. -/
def Obligations.StoreBuffersAndHostAnswers : Prop :=
  ∀ (s : State) (core : Nat),
  let k := s.core core
  (∀ serial, exec (.storeBufferEntryClose core serial) s = .next (s.setCore core { k with sb := (k.sb.filter fun e => e.closed) ++
    ((k.sb.filter fun e => !e.closed && e.serial == serial).map fun e => { e with closed := true }) ++
    (k.sb.filter fun e => !e.closed && !(e.serial == serial)) })) ∧
  (∀ b line, k.blk = some b → After (.remoteWriteEntryClose core line) s fun t => t.mem = s.mem ∧
    (t.core core).rq = k.rq.filter (fun e => !(e.line == line)) ∧ (t.core core).sb = k.sb ∧ (t.core core).t = k.t) ∧
  (k.sb = [] ∨ k.blk = none ∨ (∃ e r, k.sb = e :: r ∧ e.closed = false) → exec (.storeBufferEntryDrain core) s = .next s) ∧
  (∀ b e r, k.blk = some b → k.sb = e :: r → e.closed = true → region (e.line * 128) = .localMem → s.lineOut core e.line = true →
    exec (.storeBufferEntryDrain core) s = .next s) ∧
  (∀ b e r, k.blk = some b → k.sb = e :: r → e.closed = true → (region (e.line * 128) = .localMem → s.lineOut core e.line = false) →
    let s' := s.setCore core { k with sb := r }
    (∀ c, region (e.line * 128) = .localMem → s.ccFind (core / 8) e.line = some c → c.st ≠ .S →
      (∀ q ∈ s.coh.pend, ¬(q.cluster = core / 8 ∧ q.line = e.line)) → After (.storeBufferEntryDrain core) s fun t =>
        t.ccFind (core / 8) e.line = some ⟨.M, overlay c.data e.bytes, c.poison &&& (15 ^^^ covered e.bytes)⟩ ∧
        t.core core = { k with sb := r } ∧ t.mem = s.mem ∧ ∀ x ∈ t.coh.resv, x.granule ≠ e.line / 2) ∧
    (region (e.line * 128) = .localMem → s.ccFind (core / 8) e.line = none →
      exec (.storeBufferEntryDrain core) s = .next ((s'.pendAdd core e).sampleTime 3 core)) ∧
    (region (e.line * 128) = .hostWin → exec (.storeBufferEntryDrain core) s = .next ((s'.hostRuns core e).sampleTime 3 core)) ∧
    (∀ o v l, region (e.line * 128) = .setup0 → region (e.line * 128 + o) = .setup0 → e.bytes = (o, v) :: l →
      exec (.storeBufferEntryDrain core) s =
        .next ((s'.bar0Write 0 ((e.line * 128 + o) % 2 ^ 24) e.bytes.length (ofBytes (e.bytes.map (·.2)))).1.sampleTime 3 core))) ∧
  (∀ id, let row := fun (err : Nat) (d : List Byte) => if err = 0x14 then Instr.hostCompletionTimeout id else .hostReadCompletion id err d none
    let held := fun (r : HRead) (x : Sent) => x.id == 2 ^ 64 + r.id
    (s.host.reads.find? (fun r => r.id == id) = none → ∀ err d, exec (row err d) s = .next s) ∧
    (∀ err d, err ≠ 0 → err ≠ 0x13 → err ≠ 0x14 → err ≠ 0x15 → exec (row err d) s = .next s) ∧
    (∀ d, (∀ r ∈ s.host.reads, r.id = id → r.len ≠ d.length) → exec (row 0 d) s = .next s) ∧
    (∀ r d, s.host.reads.find? (fun r => r.id == id) = some r → r.len = d.length → r.agent ≠ 2 → (s.core r.unit).sent.any (held r) = true →
      After (row 0 d) s fun t => t.mem = s.mem ∧ t.host.reads = s.host.reads.filter (fun x => x.id != id) ∧
        t.core r.unit = { s.core r.unit with resps := (s.core r.unit).resps ++ [⟨r.group, r.pc, (s.core r.unit).sentBy (2 ^ 64 + r.id), r.pa, d, false, 0⟩]
                                             sent := (s.core r.unit).sent.filter fun x => !held r x }) ∧
    (∀ r err, err = 0x13 ∨ err = 0x14 ∨ err = 0x15 → s.host.reads.find? (fun r => r.id == id) = some r →
      (r.agent ≠ 2 → (s.core r.unit).sent.any (held r) = true → (s.core r.unit).exc = none → s.ctxState r.ctx ≠ 6 → After (row err []) s fun t =>
        t.mem = s.mem ∧ t.host.reads = s.host.reads.filter (fun x => x.id != id) ∧
        (t.core r.unit).exc = some (Exc.mk err r.group r.pc r.lanes r.word r.va r.pa 7 false false []) ∧ (t.core r.unit).t = (s.core r.unit).t) ∧
      (r.agent ≠ 2 → (s.core r.unit).sent.any (held r) = false ∨ (s.core r.unit).exc.isSome = true ∨ s.ctxState r.ctx = 6 → r.part < 16 →
        let n := s.get (F.PT_FAULT_STAT_COUNT r.part)
        n < 16 → After (row err []) s fun t => t.mem = s.mem ∧ t.host.reads = s.host.reads.filter (fun x => x.id != id) ∧
          (t.core r.unit).exc = (s.core r.unit).exc ∧ t.get (F.PT_FAULT_STAT_COUNT r.part) = n + 1 ∧
          t.raw (A.PT_FLOG r.part (4 * n + 1)) = BitVec.ofNat 64 r.va ∧ bits (t.raw (A.PT_FLOG r.part (4 * n))).toNat 7 0 = err) ∧
      (∀ c j, r.agent = 2 → s.cmd r.group = some c → c.job = some j → j.ended = false → j.pos + j.buf.length = r.pc → exec (row err []) s = .next
        ({ s with host := { s.host with reads := s.host.reads.filter fun x => x.id != id } }.jobStop c { code := err, va := r.va, pa := r.pa })))) ∧
  (s.running = false → ∀ by', exec (.hostPostedWriteError by') s = .next s) ∧
  (s.running = true →
    (∀ ctx va pa, let p := s.ctxPart ctx
      let n := s.get (F.PT_FAULT_STAT_COUNT p)
      n < 16 → After (.hostPostedWriteError (.store core ctx va pa)) s fun t => t.mem = s.mem ∧ t.cores = s.cores ∧
        t.get (F.PT_FAULT_STAT_COUNT p) = n + 1 ∧ t.raw (A.PT_FLOG p (4 * n + 1)) = BitVec.ofNat 64 va ∧
        t.raw (A.PT_FLOG p (4 * n + 2)) = BitVec.ofNat 64 pa ∧ bits (t.raw (A.PT_FLOG p (4 * n))).toNat 7 0 = 0x13) ∧
    (∀ agent cmd unit ctx va pa, agent = 1 ∨ agent = 2 →
      exec (.hostPostedWriteError (.engine agent cmd unit ctx va pa)) s =
        .next (s.engRefused agent cmd unit ctx { code := 0x13, write := true, va := va, pa := pa })) ∧
    (∀ q r, q < 4096 → tabFind s.fe.last q = some r → s.qState q ≠ 0 → s.get (F.FE_Q_CQPTR_WRITTEN q) ≠ 0 →
      exec (.hostPostedWriteError (.record q)) s = .next (s.recordBack q r)) ∧
    (∀ q va pa, q < 4096 → let s' := s.qFault q { code := 0x13, write := true, va := va, pa := pa }
      exec (.hostPostedWriteError (.signal q va pa)) s = .next (if s'.qState q = 1 then s'.qStop q 1 0x13 else s')))

/-- R268, R271, R272, R286, R287. -/
def Obligations.HomesFlushesAndPins : Prop :=
  ∀ (s : State) (p : Nat), s.barOk = true → p < 16 →
  (∀ w, ∀ v : BitVec 64, w < 4 →
    let n := s.presentSlices w v.toNat
    let overlap := ∃ q, q < 16 ∧ q ≠ p ∧ s.presentSlices w (s.get (F.CS_PSLICE_SLICES q w)) &&& n ≠ 0
    let t0 := s.setRaw (A.CS_PSLICE p w) (BitVec.ofNat 64 n)
    (s.on F.CS_REHOME_BUSY = true → exec (.csPsliceWrite p w v) s = .next (s.set F.CS_ERR_BUSY 1)) ∧
    (s.on F.CS_REHOME_BUSY = false → overlap → exec (.csPsliceWrite p w v) s = .next (s.set F.CS_ERR_OVERLAP 1)) ∧
    (s.on F.CS_REHOME_BUSY = false → ¬overlap → homesDiffer s t0 = true → s.boot.phase ≠ .running 9 →
      After (.csPsliceWrite p w v) s fun t => t.on F.CS_REHOME_BUSY = true ∧ t.coh.rehome = some (A.CS_PSLICE p w, BitVec.ofNat 64 n) ∧
        ∀ off, off ≠ A.CS_REHOME → t.raw off = s.raw off) ∧
    (s.on F.CS_REHOME_BUSY = false → ¬overlap → homesDiffer s t0 = false → exec (.csPsliceWrite p w v) s = .next ((List.range 16).foldl State.showPinned t0))) ∧
  (∀ c, ∀ v : BitVec 64, c < 768 →
    let t0 := s.setRaw (A.CS_HOMEMAP c) (BitVec.ofNat 64 (bits v.toNat 5 0))
    (s.on F.CS_REHOME_BUSY = true → exec (.csHomemapWrite c v) s = .next (s.set F.CS_ERR_BUSY 1)) ∧
    (s.on F.CS_REHOME_BUSY = false → homesDiffer s t0 = true → s.boot.phase ≠ .running 9 →
      After (.csHomemapWrite c v) s fun t => t.on F.CS_REHOME_BUSY = true ∧
        t.coh.rehome = some (A.CS_HOMEMAP c, BitVec.ofNat 64 (bits v.toNat 5 0)) ∧ t.raw (A.CS_HOMEMAP c) = s.raw (A.CS_HOMEMAP c)) ∧
    (s.on F.CS_REHOME_BUSY = false → homesDiffer s t0 = false → exec (.csHomemapWrite c v) s = .next ((List.range 16).foldl State.showPinned t0))) ∧
  (∀ keep l, (∀ line ∈ l, s.busy line = false ∧ s.hasReds line = false) → (s.cleanLines keep l).2 = true) ∧
  (∀ keep l line, line ∈ l → s.busy line = true → (s.cleanLines keep l).2 = false) ∧
  (s.coh.rehome = none → exec .rehomeComplete s = .next s) ∧
  (∀ off v, s.coh.rehome = some (off, v) → (s.cleanLines false s.moving).2 = false → After .rehomeComplete s fun t =>
    t = (s.cleanLines false s.moving).1 ∧ t.coh.rehome = s.coh.rehome ∧ t.on F.CS_REHOME_BUSY = s.on F.CS_REHOME_BUSY ∧
    ∀ line ∈ s.moving, s.busy line = false → s.hasReds line = false →
      t.dirOf line = none ∧ t.cisFind line = none ∧ ∀ c, c < 128 → t.ccFind c line = none) ∧
  (∀ off v, (∃ q w, q < 16 ∧ w < 4 ∧ off = A.CS_PSLICE q w) ∨ (∃ c, c < 768 ∧ off = A.CS_HOMEMAP c) →
    s.coh.rehome = some (off, v) → (s.cleanLines false s.moving).2 = true → After .rehomeComplete s fun t =>
      t.raw off = v ∧ t.on F.CS_REHOME_BUSY = false ∧ t.coh.rehome = none ∧
      ∀ line ∈ s.moving, t.dirOf line = none ∧ t.cisFind line = none ∧ ∀ c, c < 128 → t.ccFind c line = none) ∧
  (∀ v : BitVec 64,
    let n := bits v.toNat 4 0
    let held := ∃ e ∈ s.coh.cis, e.2.pin = true ∧ s.chunkPart (e.1 * 128) = p
    let busy := s.on F.CS_REHOME_BUSY = true ∨ held
    After (.pinwaysWrite p v) s fun t => t.mem = s.mem ∧ t.coh = s.coh ∧ t.get (F.CS_PART_CTL_SDIS p) = bits v.toNat 8 8 ∧
      (21 < n → t.on F.CS_ERR_PINCAP = true ∧
        t.get (F.CS_PART_CTL_PINWAYS p) = s.get (F.CS_PART_CTL_PINWAYS p)) ∧
      (busy → t.on F.CS_ERR_BUSY = true ∧
        t.get (F.CS_PART_CTL_PINWAYS p) = s.get (F.CS_PART_CTL_PINWAYS p)) ∧
      (n ≤ 21 → ¬busy → t.get (F.CS_PART_CTL_PINWAYS p) = n ∧ t.raw A.CS_ERR = s.raw A.CS_ERR)) ∧
  (s.on (F.CS_FLUSH_BUSY p) = true → exec (.csFlush p) s = .next (s.set F.CS_ERR_FLUSHBUSY 1)) ∧
  (s.on (F.CS_FLUSH_BUSY p) = false → exec (.csFlush p) s = .next (s.set (F.CS_FLUSH_BUSY p) 1)) ∧
  (s.on (F.CS_FLUSH_BUSY p) = false → exec (.flushComplete p) s = .next s) ∧
  (let mine := s.heldLines.filter fun line => s.chunkPart (line * 128) == p
   s.on (F.CS_FLUSH_BUSY p) = true →
    ((s.cleanLines true mine).2 = false → After (.flushComplete p) s fun t => t = (s.cleanLines true mine).1 ∧
      t.on (F.CS_FLUSH_BUSY p) = true ∧ ∀ line ∈ mine, s.busy line = false → s.hasReds line = false →
        t.dirOf line = none ∧ (∀ c, c < 128 → t.ccFind c line = none) ∧ ∀ x, t.cisFind line = some x → x.pin = true ∧ x.sd = 0) ∧
    ((s.cleanLines true mine).2 = true → After (.flushComplete p) s fun t => t.on (F.CS_FLUSH_BUSY p) = false ∧
      ∀ line, s.chunkPart (line * 128) = p → t.dirOf line = none ∧ t.hasReds line = false ∧ (∀ c, c < 128 → t.ccFind c line = none) ∧
        ∀ x, t.cisFind line = some x → x.pin = true ∧ x.sd = 0)) ∧
  (let rows := [Instr.pin p, .unpinRange p, .unpinAll p]
   let line := s.get (F.CS_PIN_BASE_LINE p)
   let n := max 1 (s.get (F.CS_PIN_LINES_COUNT p))
   ∀ i c, rows[i]? = some c →
     (s.on (F.CS_PIN_CTL_BUSY p) = true → exec c s = .next ((s.set (F.CS_PIN_CTL_OP p) i).set (F.CS_PIN_CTL_STATUS p) 4)) ∧
     (s.on (F.CS_PIN_CTL_BUSY p) = false → After c s fun t => t.mem = s.mem ∧ t.on (F.CS_PIN_CTL_BUSY p) = true ∧ t.get (F.CS_PIN_CTL_OP p) = i ∧
       tabFind t.coh.pinning p = some (if i ≠ 2 ∧ s.pinDenied p line n = true then 2
         else if i = 0 ∧ s.get (F.CS_PART_CTL_PINWAYS p) = 0 then 3 else 8 + i, line, n, 0))) ∧
  (∀ recent, tabFind s.coh.pinning p = none → exec (.pinOperationComplete p recent) s = .next s) ∧
  (∀ recent st line n out, tabFind s.coh.pinning p = some (st, line, n, out) → st = 2 ∨ st = 3 ∨ st = 9 ∨ st = 10 → After (.pinOperationComplete p recent) s fun t =>
    t.mem = s.mem ∧ t.on (F.CS_PIN_CTL_BUSY p) = false ∧ t.get (F.CS_PIN_CTL_STATUS p) = (if st < 8 then st else 0) ∧
    tabFind t.coh.pinning p = none ∧
    ∀ l, t.cisFind l = (s.cisFind l).map fun e => { e with
      pin := e.pin && !((st == 9 && decide (line ≤ l ∧ l < line + n)) || (st == 10 && s.chunkPart (l * 128) == p)) }) ∧
  (∀ recent line n out, tabFind s.coh.pinning p = some (8, line, n, out) →
    let free := fun l => s.hasReds l = false ∧ s.busy l = false ∧ s.heldLine l = false ∧ s.chanWaits l (s.onlyMem l 15) = false
    let ends := fun (out : Nat) => After (.pinOperationComplete p recent) s fun t => t.coh.cis = s.coh.cis ∧
      t.get (F.CS_PIN_STAT_NOTPINNED p) = out ∧ t.get (F.CS_PIN_CTL_STATUS p) = (if out = 0 then 0 else 1) ∧ t.on (F.CS_PIN_CTL_BUSY p) = false
    ((∀ l, line ≤ l → l < line + n → free l ∧ (s.cisFind l).any (·.pin) = true ∧ s.sliceOwner (s.homeSlice l) = some p) →
      out < 2 ^ 24 → ends out) ∧
    (n = 1 → free line → s.sliceOwner (s.homeSlice line) ≠ some p → out + 1 < 2 ^ 24 → ends (out + 1)) ∧
    (n ≠ 0 → s.busy line = true → After (.pinOperationComplete p recent) s fun t => t.mem = s.mem ∧ t.regs = s.regs ∧
      t.coh.cis = s.coh.cis ∧ tabFind t.coh.pinning p = some (8, line, n, out)))

/-- R266, R293, R295, R302, R311. -/
def Obligations.MemoryReadsAndSliceCopies : Prop :=
  ∀ s : State,
  (∀ line errs recent err link wire, s.txn line = none → exec (.memoryReadResponse line errs recent link) s = .next s ∧
    exec (.narrowReadResponse line err wire) s = .next s) ∧
  (∀ line errs recent t, s.txn line = some t →
    (t.mem = false ∨ t.req.kind = .rdNarrow ∨ s.chanTurn line t = false ∨ s.noWay line t = true ∨ s.dirFull line t = true →
      ∀ link, exec (.memoryReadResponse line errs recent link) s = .next s) ∧
    (t.mem = true → t.req.kind ≠ .rdNarrow → s.chanTurn line t = true → s.noWay line t = false → s.dirFull line t = false →
      let u := (s.sectorsRead line (s.needs line t) errs false).memDone line t
      exec (.memoryReadResponse line errs recent none) s = .next
        ((u.fillArray line (s.needs line t) (u.fillKind line t) recent).serve line { t with mem := false, ents := 0 }))) ∧
  (∀ line err t, s.txn line = some t →
    (t.mem = false ∨ t.req.kind ≠ .rdNarrow ∨ s.chanTurn line t = false → ∀ wire, exec (.narrowReadResponse line err wire) s = .next s) ∧
    (t.mem = true → t.req.kind = .rdNarrow → s.chanTurn line t = true →
      exec (.narrowReadResponse line err none) s = .next (((s.sectorsRead line (2 ^ (t.req.addr % 128 / 32))
        [(t.req.addr % 128 / 32, err)] true).memDone line t).serve line { t with mem := false, ents := 0 }))) ∧
  (∀ line t, (s.memDone line t).mem = s.mem ∧ (s.memDone line t).cores = s.cores ∧
    (s.memDone line t).txn line = some { t with mem := false, ents := 0 }) ∧
  (∀ line j err narrow, j < 4 → let t := s.sectorsRead line (2 ^ j) [(j, err)] narrow
    let sec := 4 * line + j
    t.coh = s.coh ∧ t.cores = s.cores ∧ t.mem = s.mem ∧ t.poison = s.poison ∧
    (s.sectorMarked sec = true ∨ (err = 0 ∧ s.sectorPoison sec = false) → t.sp = s.sp) ∧
    (1 ≤ err → err ≤ 18 → s.sectorPoison sec = false →
      t.get (F.MC_CH_STAT_CORR (chanOf (sec * 32))) =
        satAdd ((F.MC_CH_STAT_CORR (chanOf (sec * 32))).hi + 1 - (F.MC_CH_STAT_CORR (chanOf (sec * 32))).lo)
          (s.get (F.MC_CH_STAT_CORR (chanOf (sec * 32)))) 1) ∧
    (s.sectorMarked sec = false → 18 < err ∨ sec ∈ s.mc.bad → t.sectorPoison sec = true ∧ t.evr.seq = (s.evr.seq + 1) % 2 ^ 32)) ∧
  (∀ slice, s.replFind 4 slice = none → exec (.sliceCopyComplete slice) s = .next s) ∧
  (∀ slice r, s.replFind 4 slice = some r → r.stage ≠ 2 →
    ((∃ e ∈ s.coh.txns, s.homeSlice e.1 = slice) → exec (.sliceCopyComplete slice) s = .next s) ∧
    (slice < 256 → (∀ e ∈ s.coh.txns, s.homeSlice e.1 ≠ slice) → After (.sliceCopyComplete slice) s fun t => t.mem = s.mem ∧ t.cores = s.cores ∧
      t.slPhys slice = r.spare + 1 ∧ slice ∉ t.coh.copying ∧ t.isRetired 2 (s.slPhys slice - 1) = true ∧
      (∀ i, i ≠ slice → t.slPhys i = s.slPhys i) ∧ t.coh.cis = s.coh.cis)) ∧
  (∀ slice r, s.replFind 4 slice = some r → r.stage = 2 → exec (.sliceCopyComplete slice) s = .next (s.sliceDrop r))

/-- R304 to R321: rows, refresh, failures, scrubbing, evacuation and windows. -/
def Obligations.ChannelsRowsAndWindows : Prop :=
  ∀ (s : State) (ch stack : Nat),
  (∀ bank, ch < 1584 → bank < 32 → After (.rowIdleClose ch bank) s fun t => tabFind t.mc.opened (ch * 32 + bank) = none ∧
    (∀ k, k ≠ ch * 32 + bank → tabFind t.mc.opened k = tabFind s.mc.opened k) ∧ { t with mc := s.mc } = s) ∧
  (∀ bank, 1584 ≤ ch ∨ 32 ≤ bank → exec (.rowIdleClose ch bank) s = .next s) ∧
  (∀ bank, exec (.refresh ch bank) s = .next s) ∧
  (let b := s.get (F.MC_STACK_BAND stack)
   let cool := toSigned 8 (s.get (F.MC_STACK_TEMP stack)) + 3 ≤ (if b = 1 then 85 else 95)
   stack < 12 → (b = 0 ∨ s.dieBad (10 + stack) = true ∨ ¬cool → exec (.refreshBandFall stack) s = .next s) ∧
     (b ≠ 0 → s.dieBad (10 + stack) = false → cool → After (.refreshBandFall stack) s fun t => t.get (F.MC_STACK_BAND stack) = b - 1 ∧
       (∀ k, k < 128 → t.get (F.MC_CH_STAT_BAND (128 * stack + k)) = b - 1) ∧ { t with regs := s.regs } = s)) ∧
  (let fails := fun (c : Instr) (why : Nat) => (∀ e ∈ s.coh.txns, e.2.mem = false) → After c s fun t =>
     t.mem = s.mem ∧ t.chFailed ch = true ∧ t.evr.seq = (s.evr.seq + 1) % 2 ^ 32 ∧ (∀ x, tabFind t.mc.parity x = if why = 3 ∧ x = ch then none else tabFind s.mc.parity x) ∧
     (s.spareChannels (ch / 128) = [] → s.replFind 1 ch = none → t.get (F.MC_CH_STAT_STATE ch) = 2 ∧ t.sp = s.sp)
   let up := ch < 1536 ∧ s.chThere ch = true ∧ s.chFailed ch = false
   (up → fails (.channelResponseTimeout ch false) 1 ∧ fails (.channelResponseTimeout ch true) 2 ∧
     (tabGet 0 s.mc.parity ch + 1 < 3 → exec (.commandParityError ch) s =
       .next { s with mc := { s.mc with parity := tabIns s.mc.parity ch (tabGet 0 s.mc.parity ch + 1) } }) ∧
     (3 ≤ tabGet 0 s.mc.parity ch + 1 → fails (.commandParityError ch) 3)) ∧
   (¬up → exec (.channelResponseTimeout ch false) s = .next s ∧ exec (.channelResponseTimeout ch true) s = .next s ∧
     exec (.commandParityError ch) s = .next s)) ∧
  (∀ addr err, localTop ≤ addr ∨ s.lostAt addr = true → exec (.patrolScrubRead addr err) s = .next s) ∧
  (∀ addr, addr < localTop → s.lostAt addr = false →
    let sec := addr / 32
    let pin := s.servePhys (sec * 32)
    let corr := F.MC_CH_STAT_CORR (chanOf (sec * 32))
    let units := pin < 1584 ∧ s.rowUnit (s.rowAt (sec * 32)) < 2 ^ 40
    (s.sectorMarked sec = true → ∀ err, exec (.patrolScrubRead addr err) s = .next ((s.openRow addr).parityOk (chanOf addr))) ∧
    (sec ∉ s.mc.bad → exec (.patrolScrubRead addr 0) s = .next ((s.openRow addr).parityOk (chanOf addr))) ∧
    (∀ err, 1 ≤ err → err ≤ 18 → units → s.sectorMarked sec = false → sec ∉ s.mc.bad → After (.patrolScrubRead addr err) s fun t => t.mem = s.mem ∧
      t.poison = s.poison ∧ t.mc.bad = s.mc.bad ∧ t.get corr = satAdd (corr.hi + 1 - corr.lo) (s.get corr) 1 ∧
      t.wearOf 1 (pin * 18 + err - 1) = s.wearOf 1 (pin * 18 + err - 1) + 1 ∧ t.wearOf 3 pin = s.wearOf 3 pin + 1) ∧
    (∀ err, 19 ≤ err → units → s.sectorMarked sec = false → After (.patrolScrubRead addr err) s fun t => t.mem = s.mem ∧ t.poison = s.poison ∧
      t.sectorPoison sec = true ∧ t.wearOf 3 pin = s.wearOf 3 pin + 256)) ∧
  (∀ row bad, s.replFind 2 row = none → exec (.rowRemapComplete row bad) s = .next s) ∧
  (∀ row bad r c, s.replFind 2 row = some r → s.chLogical (row / 2 ^ 19) = some c → After (.rowRemapComplete row bad) s fun t =>
    let sec := fun (j : Nat) => chanMem c (rowOfPhys row * 1024 + j * 32) / 32
    let lost := fun (x : Nat) => ∃ j, j < 32 ∧ x = sec j ∧ (j ∈ bad ∨ x ∈ s.mc.bad) ∧ x ∉ s.mc.rowWrites
    tabFind t.sp.rep (unitKey 4 row) = some ⟨3, r.reason, r.spare, s.wearOf 2 (s.rowUnit row)⟩ ∧
    (∀ x, (lost x → x ∈ t.poison) ∧ (¬lost x → (x ∈ t.poison ↔ x ∈ s.poison))) ∧
    (∀ a, (lost (a / 32) → t.byte a = 0) ∧ (¬lost (a / 32) → t.byte a = s.byte a)) ∧
    t.get (F.MC_CH_STAT_ROWS c) = t.rowsUsed (t.chPhys c - 1) % 2 ^ ((F.MC_CH_STAT_ROWS c).hi + 1 - (F.MC_CH_STAT_ROWS c).lo)) ∧
  (s.barOk = false → exec (.mcEvacRequest ch) s = .next s) ∧
  (s.barOk = true → let c := ch % 2048
    let bad := 1536 ≤ c ∨ s.chThere c = false ∨ s.get (F.MC_CH_STAT_STATE c) = 2
    let busy := s.on (F.MC_STACK_EVAC (c / 128)) = true
    let none' := s.spareChannels (c / 128) = []
    let answers := fun (n : Nat) => After (.mcEvacRequest ch) s fun t => t.get F.MC_EVAC_STATUS = n ∧ t.get F.MC_EVAC_CH = c ∧ t.mem = s.mem ∧ t.sp = s.sp
    (bad → answers 3) ∧ (¬bad → busy → answers 4) ∧ (¬bad → ¬busy → none' → answers 2) ∧
    (¬bad → ¬busy → ¬none' → s.replFind 1 c = none → After (.mcEvacRequest ch) s fun t => t.get F.MC_EVAC_STATUS = 1 ∧ t.mem = s.mem ∧
      ∃ r ∈ t.sp.repl, r.kind = 1 ∧ r.unit = c ∧ r.reason = 3)) ∧
  (∀ ok, s.evacAt stack 1 = none → exec (.evacSpareTrained stack ok) s = .next s) ∧
  (∀ r, s.evacAt stack 1 = some r → exec (.evacSpareTrained stack true) s = .next (s.replSet { r with stage := 3, mark := 0 }) ∧
    After (.evacSpareTrained stack false) s fun t => t.mem = s.mem ∧ tabFind t.sp.rep (unitKey 3 r.spare) = some ⟨2, 4, 0xFFFFFFFF, 0⟩) ∧
  (∀ bad, s.evacAt stack 3 = none → exec (.evacRowCopy stack bad) s = .next s) ∧
  (∀ bad r, s.evacAt stack 3 = some r → r.mark + 1 < chanRows → After (.evacRowCopy stack bad) s fun t => t.regs = s.regs ∧
    t.sp.repl = updFirst (fun x => x.kind == r.kind && x.unit == r.unit) (fun _ => { r with mark := r.mark + 1 }) s.sp.repl ∧
    ∀ a, let lost := ∃ j, j < 32 ∧ chanMem r.unit (r.mark * 1024 + j * 32) / 32 = a / 32 ∧ (s.sectorPoison (a / 32) = true ∨
        (j ∈ bad ∧ s.chFailed r.unit = false))
      (lost → t.byte a = 0) ∧ (¬lost → t.byte a = s.byte a)) ∧
  (∀ bad r, s.evacAt stack 3 = some r → chanRows ≤ r.mark + 1 → r.unit < 1536 → After (.evacRowCopy stack bad) s fun t =>
    t.chPhys r.unit = r.spare + 1 ∧ t.chFailed r.unit = false ∧ t.isRetired 3 (s.chPhys r.unit - 1) = true ∧
    ∀ i, i ≠ r.unit → t.chPhys i = s.chPhys i) ∧
  (ch < 1536 → After (.mcWindowBoundary ch) s fun t => t.mem = s.mem ∧ t.coh = s.coh ∧
    (ch ∈ t.mc.hot ↔ (105 : Int) ≤ toSigned 8 (s.get (F.MC_STACK_TEMP (ch / 128)))) ∧
    (∀ p, p < 16 → t.chargeOf ch p = min (s.lateOf ch p) (if ch ∈ t.mc.hot then
        min (s.capReg p) (208 - ((List.range p).map (t.chargeOf ch)).sum) else s.capReg p) ∧
      t.chargeOf ch p + t.lateOf ch p = s.lateOf ch p ∧ t.capOf ch p = s.capReg p ∧ t.guarOf ch p = s.get (F.MC_REG_GUAR p) ∧
      let held := (s.lateOf ch p ≠ 0 ∧ s.capOf ch p ≤ s.chargeOf ch p) ∨ ∃ e ∈ s.coh.txns, e.2.mem = true ∧ chanOf (e.1 * 128) = ch ∧
        s.chunkPart (e.1 * 128) = p ∧ s.capOf ch p < s.chargeOf ch p + max 1 e.2.ents
      let f := F.MC_CAPWIN_COUNT p
      (held → t.get f = satAdd (f.hi + 1 - f.lo) (s.get f) 1) ∧ (¬held → t.get f = s.get f)) ∧
    ∀ c p, c ≠ ch → p < 16 → t.chargeOf c p = s.chargeOf c p ∧ t.lateOf c p = s.lateOf c p ∧ t.capOf c p = s.capOf c p) ∧
  (∀ p, ∀ v : BitVec 64, p < 16 → s.barOk = true →
    let g := bits v.toNat 7 0
    let sum := ((List.range 16).filter (· ≠ p)).foldl (fun n q => n + s.get (F.MC_REG_GUAR q)) g
    (208 < g → exec (.mcRegWrite p v) s = .next (s.set F.MC_ERR_RANGE 1)) ∧
    (g ≤ 208 → 208 < sum → exec (.mcRegWrite p v) s = .next (s.set F.MC_ERR_SUM 1)) ∧
    (g ≤ 208 → sum ≤ 208 → After (.mcRegWrite p v) s fun t => t.get (F.MC_REG_GUAR p) = g ∧ t.get (F.MC_REG_CAP p) = bits v.toNat 16 8 ∧
      (∀ off, off ≠ A.MC_REG p → t.raw off = s.raw off) ∧ { t with regs := s.regs } = s))

/-- R363 to R369, R375: commands of the front end. -/
def Obligations.FrontEndCommandsStart : Prop :=
  ∀ (s : State) (c : Cmd),
  let level := fun (t : State) => t.nestOf c.queue c.parent
  let rows : List (Nat × Instr) := [(0x01, .cmdNop c.id), (0x0B, .cmdFence c.id), (0x0C, .condBegin c.id), (0x0F, .loopBegin c.id),
    (0x11, .cmdCall c.id), (0x03, .launchGraph c.id), (0x0A, .signal c.id), (0x09, .waitMemory c.id), (0x02, .launch c.id)]
  let cmp := bits (c.word 16) 6 4
  (∀ e ∈ rows, s.cmd c.id = none ∨ (s.cmd c.id = some c ∧ (c.op ≠ e.1 ∨ s.mayStart c = false)) → exec e.2 s = .next s) ∧
  (Startable s 0x01 c → After (.cmdNop c.id) s fun t => Done c 0 t ∧ OnlyCmds s t) ∧
  (Startable s 0x0B c → After (.cmdFence c.id) s fun t => Done c 0 t ∧ OnlyCmds s t ∧ s.earlier c = []) ∧
  (∀ a b, (cmpHolds 0 a b = true ↔ b ≤ a) ∧ (cmpHolds 1 a b = true ↔ a = b) ∧ (cmpHolds 2 a b = true ↔ a ≠ b) ∧
    (cmpHolds 3 a b = true ↔ a < b) ∧ (cmpHolds 4 a b = true ↔ a ≤ b) ∧ (cmpHolds 5 a b = true ↔ b < a)) ∧
  (Startable s 0x0C c → c.parent ≠ some c.id → let r := s.cmdRead c (c.word 16) 8
    (r.1.coh.stalled = true → exec (.condBegin c.id) s = .next (r.1.coh.asked.foldl State.arriveNew s)) ∧ (r.1.coh.stalled = false →
    (∀ l, r.2 = .ok l → After (.condBegin c.id) s fun t => Done c 0 t ∧ t.mem = s.mem ∧
      level t = .cond (cmpHolds (bits (c.word 40) 2 0) (ofBytes l &&& c.word 32) (c.word 24)) false :: level s) ∧
    (∀ x, r.2 = .fault x → exec (.condBegin c.id) s = .next ((r.1.openBlock c (.cond false false)).stopCmd c x)) ∧
    (r.2 = .poison → exec (.condBegin c.id) s = .next ((r.1.openBlock c (.cond false false)).stopCmd c { code := 0x5E })))) ∧
  (Startable s 0x0F c → c.parent ≠ some c.id → let r := s.cmdRead c (c.word 24) 4
    (c.word 24 = 0 → After (.loopBegin c.id) s fun t => Done c 0 t ∧
      level t = .loop (s.loopStart c) (bits (c.word 16) 31 0) :: level s ∧ t.regs = s.regs) ∧
    (c.word 24 ≠ 0 → r.1.coh.stalled = true → exec (.loopBegin c.id) s = .next (r.1.coh.asked.foldl State.arriveNew s)) ∧
    (∀ l, c.word 24 ≠ 0 → r.1.coh.stalled = false → r.2 = .ok l → After (.loopBegin c.id) s fun t => Done c 0 t ∧ t.mem = s.mem ∧
      level t = .loop (s.loopStart c) (ofBytes l) :: level s) ∧
    (∀ x, c.word 24 ≠ 0 → r.1.coh.stalled = false → r.2 = .fault x → exec (.loopBegin c.id) s = .next ((r.1.openBlock c (.loop 0 0)).stopCmd c x))) ∧
  (let marks : List (Nat × Instr) := [(0x0D, .condElse c.id), (0x0E, .condEnd c.id), (0x10, .loopEnd c.id)]
   let s' := s.setCmds (s.fe.cmds.filter fun d => d.id != c.id)
   ∀ e ∈ marks, (s.cmd c.id = none → exec e.2 s = .next s) ∧ (s.cmd c.id = some c →
     (c.op ≠ e.1 ∨ c.started = true ∨ c.ended = true → exec e.2 s = .next s) ∧
     (c.op = e.1 → c.started = false → c.ended = false → exec e.2 s =
         .next ((((s.takeMarker c).setDone c.queue).resched (s.qPart c.queue)).waitQueues) ∧
       (c.parent ≠ some c.id → s'.stage1 c = 0 → ∀ l go, matchMarker c.op (level s) = some (l, go) →
         level (s.takeMarker c) = l ∧ (s.takeMarker c).cmd c.id = none ∧
         ∀ a p d, go = some a → c.parent = some p → s.cmd p = some d → ((s.takeMarker c).cmd p).map (·.pos) = some a)))) ∧
  (∀ run els start n r, matchMarker 0x0D (.cond run false :: r) = some (.cond (!run) true :: r, none) ∧
    matchMarker 0x0D (.cond run true :: r) = none ∧ matchMarker 0x0E (.cond run els :: r) = some (r, none) ∧
    matchMarker 0x10 (.loop start 1 :: r) = some (r, none) ∧ matchMarker 0x10 (.loop start (n + 2) :: r) = some (.loop start (n + 1) :: r, some start) ∧
    matchMarker 0x10 (.cond run els :: r) = none ∧ matchMarker 0x0E (.loop start n :: r) = none) ∧
  (Startable s 0x11 c → After (.cmdCall c.id) s fun t => OnlyCmds s t ∧
    t.cmd c.id = some { c with started := true, base := c.word 16, ents := bits (c.word 24) 16 0 }) ∧
  (Startable s 0x03 c → let k := s.graphOf c
    (∀ g, tabFind s.fe.graphs k = some g → s.graphDefined k = true → After (.launchGraph c.id) s fun t =>
      t.cmd c.id = some { c with started := true, graph := some (k, g.cur), base := s.graphBuf k g g.cur, ents := s.graphEntries k
                                 result := s.get (F.FE_GRAPH_CURVER (k / 1024) (k % 1024)) } ∧ t.pinned k g.cur = true ∧ t.mem = s.mem) ∧
    (tabFind s.fe.graphs k = none ∨ s.graphDefined k = false → exec (.launchGraph c.id) s = .next (s.stopCmd c { code := 0x57 }))) ∧
  (s.cmd c.id = some c → c.waitMode 0 = true →
    let r := s.cmdRead c (c.word 24) 8
    let tests := fun (i : Instr) =>
      (∀ l, r.2 = .ok l → After i s fun t => t.mem = s.mem ∧ (if cmpHolds cmp (ofBytes l &&& c.word 40) (c.word 32) = true then
        Done c 0 t else t.cmd c.id = some { c with started := true })) ∧
      (∀ x, r.2 = .fault x → exec i s = .next (r.1.stopCmd c x)) ∧ (r.2 = .poison → exec i s = .next (r.1.stopCmd c { code := 0x5E }))
    (r.1.coh.stalled = false → (s.mayStart c = true → tests (.waitMemory c.id)) ∧ (s.mayRetry c = true → tests (.waitReread c.id))) ∧
    (r.1.coh.stalled = true → let left := r.1.coh.asked.foldl State.arriveNew s
      (s.mayStart c = true → exec (.waitMemory c.id) s = .next left) ∧ (s.mayRetry c = true → exec (.waitReread c.id) s = .next left)) ∧
    (s.mayRetry c = false → exec (.waitReread c.id) s = .next s)) ∧
  (s.cmd c.id = some c → c.waitMode 1 = true → s.mayStart c = true ∨ s.mayRetry c = true → (s.fe.cmds.map (·.id)).Nodup →
    s.frozenPart (s.qPart c.queue) = false → s.coh.stalled = false → After (.waitQueue c.id) s fun t => OnlyCmds s t ∧
      (if bits (c.word 32) 47 0 < s.get (F.FE_Q_DONE_DONE (bits (c.word 24) 11 0)) then Done c 0 t
       else t.cmd c.id = some { c with started := true })) ∧
  (Startable s 0x0A c →
    let at' := s.locate (s.qCtx c.queue) (s.qPart c.queue) (c.word 16) true
    let add := bit (c.word 32) 0
    (∀ pa, at' = .mem pa → let u := s.pokeAs 3 c.queue pa (toBytes 8 (if add then (s.peekNum pa 8 + c.word 24) % 2 ^ 64 else c.word 24))
      exec (.signal c.id) s = .next (if u.written 3 c.queue = true then (u.atOnce c 0).waitsOf (s.qPart c.queue) else s)) ∧
    (∀ pa, at' = .host pa → add = false → exec (.signal c.id) s =
      .next (((s.hostPost 0 pa (toBytes 8 (c.word 24))).atOnce c 0).waitsOf (s.qPart c.queue))) ∧
    (∀ pa, at' = .setup pa → add = false → exec (.signal c.id) s =
      .next (((s.setupWrite pa 8 (c.word 24)).atOnce c 0).waitsOf (s.qPart c.queue))) ∧
    (∀ x, at' = .fault x → exec (.signal c.id) s = .next (s.stopCmd c x)) ∧
    (∀ pa, at' = .fabric pa → exec (.signal c.id) s = .next (s.stopCmd c { code := 0x52 })))

/-- R152, R363, R371 to R376: graphs, launches, posts. -/
def Obligations.GraphsLaunchesAndPosts : Prop :=
  ∀ (s : State) (c : Cmd), (s.fe.cmds.map (·.id)).Nodup →
  let k := s.graphOf c
  let p := k / 1024
  let n := k % 1024
  let unknown := tabFind s.fe.graphs k = none ∨ s.graphDefined k = false
  (∀ e ∈ [(0, Instr.graphDefine c.id), (2, .graphDelete c.id)], s.cmd c.id = some c →
    c.patchAct e.1 = false ∨ s.mayStart c = false → exec e.2 s = .next s) ∧
  (Startable s 0x04 c → c.patchAct 0 = true →
    let ents := bits (c.word 32) 12 0
    let u := (64 * ents + 4095) / 4096
    let r := s.cmdRead c (c.word 24) (64 * ents)
    (r.1.coh.stalled = true → exec (.graphDefine c.id) s = .next (r.1.coh.asked.foldl State.arriveNew s)) ∧ (r.1.coh.stalled = false →
    (∀ x, r.2 = .fault x → x.code < 0x57 → exec (.graphDefine c.id) s = .next (r.1.stopCmd c x)) ∧
    (∀ l, r.2 = .ok l → tabFind s.fe.graphs k ≠ none ∨ r.1.storeFit p u = none ∨ graphOpsOk l ents ents 0 = false →
      exec (.graphDefine c.id) s = .next (r.1.stopCmd c { code := 0x57 })) ∧
    (∀ l runs, r.2 = .ok l → tabFind s.fe.graphs k = none → r.1.storeFit p u = some runs → graphOpsOk l ents ents 0 = true →
      (r.1.graphPut c.queue k u runs ents l).written 3 c.queue = false → exec (.graphDefine c.id) s = .next (s.unlessStalled r.1)) ∧
    (∀ l runs, r.2 = .ok l → tabFind s.fe.graphs k = none → r.1.storeFit p u = some runs → graphOpsOk l ents ents 0 = true →
      (r.1.graphPut c.queue k u runs ents l).written 3 c.queue = true → After (.graphDefine c.id) s fun t => Done c 1 t ∧ tabFind t.fe.graphs k = some ⟨u, runs.1, runs.2, 0⟩ ∧ t.graphDefined k = true ∧
        t.graphEntries k = ents ∧ t.get (F.FE_GRAPH_CURVER p n) = 1 ∧ t.get (F.FE_GSIZE_FREE p) = s.get (F.FE_GSIZE_FREE p) - 2 * u))) ∧
  (s.cmd c.id = some c → s.coh.stalled = false → c.patchAct 1 = true →
    (s.mayStart c = true → unknown → exec (.graphPatch c.id) s = .next (s.stopCmd c { code := 0x57 })) ∧
    (s.mayStart c = true → ¬unknown → (∃ o ∈ patchPairs (patchN c.entry), 64 * s.graphEntries k ≤ bits (c.word o) 31 0) →
      exec (.graphPatch c.id) s = .next (s.stopCmd c { code := 0x52 })) ∧
    (s.mayStart c = true → ¬unknown → (∀ o ∈ patchPairs (patchN c.entry), bits (c.word o) 31 0 < 64 * s.graphEntries k) →
      (∀ d ∈ s.fe.cmds, d.patching = false) →
      (∀ g, tabFind s.fe.graphs k = some g → s.pinned k g.cur = false →
        ((s.begun c).patchWords { c with started := true } (s.graphBuf k g g.cur)).written 3 c.queue = false → After (.graphPatch c.id) s fun t =>
        t.cmd c.id = some { c with started := true } ∧ t.mem = s.mem ∧ t.on (F.FE_GRAPH_PATCHWAIT p n) = true) ∧
      (∀ g, tabFind s.fe.graphs k = some g → s.pinned k g.cur = false →
        ((s.begun c).patchWords { c with started := true } (s.graphBuf k g g.cur)).written 3 c.queue = true → After (.graphPatch c.id) s fun t =>
        Done c (t.get (F.FE_GRAPH_CURVER p n)) t ∧ t.get (F.FE_GRAPH_CURVER p n) =
          (s.get (F.FE_GRAPH_CURVER p n) + 1) % 2 ^ ((F.FE_GRAPH_CURVER p n).hi + 1 - (F.FE_GRAPH_CURVER p n).lo)) ∧
      (∀ g, tabFind s.fe.graphs k = some g → s.pinned k g.cur = true → s.pinned k (1 - g.cur) = true → After (.graphPatch c.id) s fun t =>
        t.cmd c.id = some { c with started := true } ∧ t.mem = s.mem ∧ t.on (F.FE_GRAPH_PATCHWAIT p n) = true)) ∧
    (c.started = true → s.mayRetry c = true → exec (.graphPatch c.id) s = .next (s.graphPatches k)) ∧
    (s.mayStart c = false → s.mayRetry c = false → exec (.graphPatch c.id) s = .next s)) ∧
  (Startable s 0x04 c → c.patchAct 2 = true →
    (unknown → exec (.graphDelete c.id) s = .next (s.stopCmd c { code := 0x57 })) ∧
    (¬unknown → After (.graphDelete c.id) s fun t => Done c 0 t ∧ t.graphDefined k = false ∧ t.mem = s.mem ∧
      (s.pins k = 0 → tabFind t.fe.graphs k = none) ∧
      (s.pins k ≠ 0 → tabFind t.fe.graphs k = tabFind s.fe.graphs k ∧ t.on (F.FE_GRAPH_DELETING p n) = true))) ∧
  (Startable s 0x02 c →
    let first := bits (c.word 32) 9 0
    let count := bits (c.word 32) 20 10
    let d := s.cmdRead c (c.word 16) 64
    (∀ x, d.2 = .fault x → x.code < 0x53 → c.word 24 = 0 → exec (.launch c.id) s = .next (s.unlessStalled (d.1.stopCmd c x))) ∧
    (∀ kd, d.2 = .ok kd →
      let cores := usableCores first count (kdCluster kd)
      let a := d.1.argsRead c kd true
      (kdRefused kd cores.length = true → c.word 24 = 0 → exec (.launch c.id) s = .next (s.unlessStalled (d.1.stopCmd c { code := 0x53 }))) ∧
      (∀ args, kdRefused kd cores.length = false → a.2 = .ok args → c.word 24 = 0 →
        (a.1.coreSetOk (s.qCtx c.queue) first count = false ∨ cores = [] → exec (.launch c.id) s = .next (s.unlessStalled (a.1.stopCmd c { code := 0x55 }))) ∧
        (a.1.coh.stalled = false → a.1.coreSetOk (s.qCtx c.queue) first count = true → cores ≠ [] → After (.launch c.id) s fun t =>
          t.mem = s.mem ∧ t.cores = s.cores ∧ t.sluices = s.sluices ∧ t.cmd c.id = some { c with started := true } ∧
          t.fe.launches = s.fe.launches ++ [⟨c.id, c.id, c.queue, s.qCtx c.queue, s.qPart c.queue, kdEntry kd, kdThreads kd, kdWcache kd,
            kdResident kd, kdCluster kd, kdKeep kd, kdWdog kd, args, kdGrid kd, cores, none, 0, 0, []⟩])) ∧
      (∀ args mp, let m := a.1.mapRead c (c.word 24)
        let ok := m.1.mapOk (s.qCtx c.queue) (s.qPart c.queue) (kdResident kd) (kdGrid kd) (768 * 1024 - (kdWcache kd + 1) * 65536) cores mp
        kdRefused kd cores.length = false → a.2 = .ok args → c.word 24 ≠ 0 → m.2 = .ok mp →
        (ok = false → exec (.launch c.id) s = .next (s.unlessStalled (m.1.stopCmd c { code := 0x54 }))) ∧
        (ok = true → m.1.coreSetOk (s.qCtx c.queue) first count = true → cores ≠ [] →
          exec (.launch c.id) s = .next (s.unlessStalled (m.1.launchPut c kd args mp cores)))))) ∧
  (s.cmd c.id = some c → s.coh.stalled = false → c.op = 0x12 → s.mayStart c = true ∨ s.mayRetry c = true →
    let b := bits (c.word 16) 11 0
    let held := s.get (F.FE_BERTH_OWN_COUNT b)
    (s.berthOf b (s.qCtx c.queue) = false → exec (.berthPost c.id) s = .next (s.stopCmd c { code := 0x58 })) ∧
    (s.berthOf b (s.qCtx c.queue) = true → s.berthDepth b ≤ held → After (.berthPost c.id) s fun t => OnlyCmds s t ∧
      t.cmd c.id = some { c with started := true }) ∧
    (s.berthOf b (s.qCtx c.queue) = true → held < s.berthDepth b →
      let u := s.pokeAs 3 c.queue (s.berthItem b (tabGet 0 s.fe.taken b + held)) c.item
      exec (.berthPost c.id) s = .next (if u.written 3 c.queue = true then
        ((u.set (F.FE_BERTH_OWN_COUNT b) (held + 1)).atOnce c 0).resched (s.qPart c.queue) else s)) ∧
    (c.entry.length = 128 → c.item.length = 64 ∧ c.item.take 48 = (c.entry.drop 64).take 48 ∧ bytesAt c.item 48 6 = c.seq % 2 ^ 48 ∧
      bytesAt c.item 54 1 = c.epoch % 2 ^ 8 ∧ bytesAt c.item 56 2 = c.queue % 2 ^ 16 ∧ bytesAt c.item 58 2 = c.gen % 2 ^ 16))

/-- R363, R504. -/
def Obligations.SnapshotsRegulationAndSelection : Prop :=
  ∀ (s : State) (c : Cmd), s.cmd c.id = some c →
  (c.op ≠ 0x13 ∨ s.mayStart c = false → exec (.snapshot c.id) s = .next s) ∧
  (Startable s 0x13 c → exec (.snapshot c.id) s = .next ((s.begun c).snapRequest c.id) ∧ (s.begun c).cmd c.id = some { c with started := true }) ∧
  (let n := bits (c.word 16) 11 8
   let v := c.word 24
   let rows : List (Nat × Instr × (State × Bool)) := [(0, .regulateMcReg c.id, s.mcRegWrite n v), (1, .regulateFabric c.id, s.fabRegWrite n v),
     (2, .regulatePowerLimit c.id, s.pkgLimitWrite v), (3, .regulateSlShare c.id, s.slShareWrite n v)]
   ∀ e ∈ rows, (c.op ≠ 0x16 ∨ bits (c.word 16) 3 0 ≠ e.1 ∨ s.mayStart c = false → exec e.2.1 s = .next s) ∧
     (Startable s 0x16 c → bits (c.word 16) 3 0 = e.1 → After e.2.1 s fun t =>
       t.cmd c.id = some { c with started := true, ended := true, status := if e.2.2.2 then 0 else 0x5C, source := 0, result := 0 } ∧
       t.mem = s.mem ∧ t.regs = e.2.2.1.regs)) ∧
  (let rows : List (Nat × Instr) := [(0, .configSelectCurrent c.id), (1, .configSelectPrevious c.id), (2, .configSelectFactory c.id)]
   ∀ e ∈ rows, let ver := bits (c.word 24) 31 0
     let mine := c.op = 0x17 ∧ bits (c.word 16) 1 0 = e.1 ∧ (s.mayStart c = true ∨ s.mayRetry c = true) ∧ s.coh.stalled = false
     let busy := s.on F.BT_UPD_CTL_BUSY = true ∨ s.boot.upd ≠ none ∨ tabFind s.boot.selDone c.id ≠ none
     let ends := fun (code : Nat) => After e.2 s fun t => OnlyCmds s t ∧
       t.cmd c.id = some { c with started := true, ended := true, status := code, source := 0, result := if code = 0 then ver else 0 }
     (c.op ≠ 0x17 ∨ bits (c.word 16) 1 0 ≠ e.1 ∨ (s.mayStart c = false ∧ s.mayRetry c = false) → exec e.2 s = .next s) ∧
     (mine → busy → exec e.2 s = .next (s.begun c)) ∧
     (mine → ¬busy → s.selImage e.1 ver = none → ends 0x5C) ∧
     (mine → ¬busy → s.selImage e.1 ver ≠ none → e.1 = 0 → ends 0) ∧
     (mine → ¬busy → s.selImage e.1 ver ≠ none → e.1 ≠ 0 → 0xFFFFFFFE < s.selSeq + 1 ∨ s.flashThere s.selDev = false → ends 0x5C) ∧
     (∀ l, mine → ¬busy → s.selImage e.1 ver = some l → e.1 ≠ 0 → s.selSeq + 1 ≤ 0xFFFFFFFE → s.flashThere s.selDev = true →
       let o : FlashOp := ⟨8, s.selDev, offCfg, cfgWithSeq l (s.selSeq + 1), 0, [], c.id⟩
       exec e.2 s = .next (({ s.begun c with boot := { s.boot with upd := some o } } : State).flashBegin o)))

/-- R324 to R327, R340: the start of Pump and Lighter commands. -/
def Obligations.PumpAndLighterStarts : Prop :=
  ∀ (s : State) (c : Cmd), c.job = none →
  let p := s.qPart c.queue
  let fails := fun (i : Instr) (code : Nat) => After i s fun t => OnlyCmds s t ∧
    t.cmd c.id = some { c with started := true, job := some { Job.new 0xFFFF [] with ended := true, code := code } }
  let takes := fun (i : Instr) (u : Nat) (d : List Byte) => After i s fun t =>
    t.mem = s.mem ∧ t.cores = s.cores ∧ t.cmd c.id = some { c with started := true, job := some (Job.new u d) } ∧
    (u < 224 → t.get (F.PU_UNIT_STAT_STATE u) = 1 ∧ t.get (F.PU_UNIT_STAT_PART u) = p)
  let rows : List (Nat × Instr) := [(0x07, .pumpStream c.id), (0x08, .pumpGather c.id), (0x05, .copy c.id), (0x06, .fill c.id),
    (0x14, .fabricPut c.id), (0x15, .fabricGet c.id)]
  (∀ e ∈ rows, s.cmd c.id = none ∨ (s.cmd c.id = some c ∧ (c.op ≠ e.1 ∨ s.mayStart c = false)) → exec e.2 s = .next s) ∧
  (∀ e ∈ rows.take 2, Startable s e.1 c →
    let r := s.engRead c false (c.word 16) (if e.1 = 0x07 then 192 else 64)
    (c.word 16 % 64 ≠ 0 → fails e.2 0x41) ∧
    (∀ x, c.word 16 % 64 = 0 → r.2 = .fault x → exec e.2 s = .next (s.unlessStalled (r.1.startFail c x))) ∧
    (c.word 16 % 64 = 0 → r.2 = .poison → exec e.2 s = .next (s.unlessStalled (r.1.startFail c { code := 0x49 }))) ∧
    (∀ d, c.word 16 % 64 = 0 → r.2 = .ok d →
      let stops := if e.1 = 0x07 then r.1.descStops c d (streamResv d) (streamRange d) else r.1.descStops c d (gatherResv d) (gatherRange d)
      let unit := r.1.pickPump p (c.desc d).pump ((c.desc d).targets.headD 0)
      (∀ x, leastStop stops = some x → exec e.2 s = .next (s.unlessStalled (r.1.startFail c x))) ∧
      (leastStop stops = none → unit = none → exec e.2 s = .next (s.unlessStalled r.1)) ∧
      (∀ u, leastStop stops = none → unit = some u →
        (r.1.coh.stalled = false → takes e.2 u d) ∧ (r.1.coh.stalled = true → exec e.2 s = .next (r.1.coh.asked.foldl State.arriveNew s))))) ∧
  (∀ e ∈ rows.drop 2, Startable s e.1 c →
    let r := s.lightChecks c
    (∀ x, leastStop r.1 = some x → 0x15 < x.code → After e.2 s fun t => OnlyCmds s t ∧ t.cmd c.id = some { c with
      started := true, job := some { Job.new 0xFFFF [] with ended := true, code := x.code, level := x.level, write := x.write, va := x.va, pa := x.pa } }) ∧
    (∀ x, leastStop r.1 = some x → x.code ≤ 0x15 → exec e.2 s = .next (s.startFail c x)) ∧
    (leastStop r.1 = none → s.pickLighter p (s.destQuay c r.2) = none → exec e.2 s = .next s) ∧
    (∀ u, leastStop r.1 = none → s.pickLighter p (s.destQuay c r.2) = some u → takes e.2 u [])) ∧
  (∀ lo n quay u, s.pickFrom p lo n quay = some u → lo ≤ u ∧ u < lo + n ∧ s.unitFree p u = true ∧
    (quay = some (unitQuay u) → ∀ v, lo ≤ v → v < u → quay = some (unitQuay v) → s.unitFree p v = false) ∧
    (quay ≠ some (unitQuay u) → ∀ v, lo ≤ v → v < lo + n → s.unitFree p v = true → quay ≠ some (unitQuay v) ∧ u ≤ v))

/-- R328 to R349: the work of Pump and Lighter commands and its end. -/
def Obligations.PumpAndLighterProgress : Prop :=
  ∀ (s : State) (c : Cmd) (j : Job),
  let id := c.id
  let p := s.qPart c.queue
  let ctx := s.qCtx c.queue
  (s.cmd id = none ∨ (s.cmd id = some c ∧ c.job = none) → (∀ e, exec (.pumpTargetDrop id e) s = .next s) ∧ exec (.pumpBlockDecode id) s = .next s ∧
    exec (.gatherListEntry id) s = .next s ∧ exec (.accessTimeout id) s = .next s ∧ (∀ n, exec (.pumpLighterCommandComplete id n) s = .next s) ∧
    exec (.pumpLighterRestart id) s = .next s) ∧
  (s.cmd id = some c → c.job = some j →
    (s.activeJob c = some j →
      (c.op ≠ 0x07 → exec (.pumpBlockDecode id) s = .next s) ∧ (c.op ≠ 0x08 → exec (.gatherListEntry id) s = .next s) ∧
      (c.op = 0x15 ∨ (c.op = 0x14 ∧ s.fabOut id = true) → exec (.accessTimeout id) s = .next s) ∧
      (c.op ≠ 0x15 → c.op ≠ 0x14 ∨ s.fabOut id = false → After (.accessTimeout id) s fun t => OnlyCmds s t ∧ t.cmd id = some { c with
        job := some { j with ended := true, code := 0x4A, level := 7, write := false, va := 0, pa := 0 } }) ∧
      (c.op = 0x07 →
        let left := streamSrcLen j.desc - j.pos
        let va := dW j.desc 0 + j.pos
        let n := min 4096 left
        let goes := fun (t : State) => exec (.pumpBlockDecode id) s = .next (s.unlessStalled t)
        let raw := s.srcPieces c false (pieces va n)
        let head := s.srcPieces c false (pieces va 16)
        (left = 0 → goes (s.streamEnd c)) ∧
        (∀ l, streamFormat j.desc = 0 → 0 < left → raw.2 = .ok l → goes ((raw.1.streamOut c j n l).streamEnd c)) ∧
        (∀ x, streamFormat j.desc = 0 → 0 < left → raw.2 = .fault x → goes (raw.1.jobStop c x)) ∧
        (streamFormat j.desc = 0 → 0 < left → raw.2 = .poison → goes (raw.1.jobStop c { code := 0x49 })) ∧
        (streamFormat j.desc ≠ 0 → 0 < left → left < 16 → goes (s.jobStop c { code := 0x47 })) ∧
        (∀ h, streamFormat j.desc ≠ 0 → 16 ≤ left → head.2 = .ok h →
          let b := blockHdr h
          let rest := head.1.srcPieces c false (pieces (va + 16) (b.enclen - 16))
          (b.ok = false → goes (head.1.jobStop c { code := 0x44 })) ∧
          (b.ok = true → left < b.enclen → goes (head.1.jobStop c { code := 0x47 })) ∧
          (∀ l, b.ok = true → b.enclen ≤ left → rest.2 = .ok l →
            (∀ out, blockCheck b (h ++ l) ((c.desc j.desc).total - j.outp) = (0, out) →
              goes ((rest.1.streamOut c j b.enclen out).streamEnd c)) ∧
            (∀ code out, code ≠ 0 → blockCheck b (h ++ l) ((c.desc j.desc).total - j.outp) = (code, out) →
              goes (rest.1.jobStop c { code := code }))))) ∧
      (∀ narrow a k q, (∀ x, s.getPiece (cmdReader id) (if narrow then 2 else 3) narrow ctx p a k = (q, .fault x) →
          s.srcPieces c narrow [(a, k)] = (q, .fault x)) ∧
        (∀ l, s.getPiece (cmdReader id) (if narrow then 2 else 3) narrow ctx p a k = (q, .ok l) →
          s.srcPieces c narrow [(a, k)] = (q.count (F.PU_SRCBYTES_COUNT p) k, .ok l)) ∧
        (s.getPiece (cmdReader id) (if narrow then 2 else 3) narrow ctx p a k = (q, .poison) →
          s.srcPieces c narrow [(a, k)] = (q.count (F.PU_SRCBYTES_COUNT p) k, .poison))) ∧
      (∀ k b, let t := s.streamOut c j k b
        t.cmd id = some { c with job := some { j with pos := j.pos + k, outp := j.outp + b.length } } ∧
        (∀ x, x ∈ j.liveTargets (c.desc j.desc) → s.reachable ctx x = true →
          ((t.core x).wellGet ((c.desc j.desc).doff + j.outp) b.length) = b) ∧
        ∀ x, x ∉ j.liveTargets (c.desc j.desc) → t.core x = s.core x) ∧
      (∀ l, c.op = 0x08 → let r := s.engRead c false (dW j.desc 0 + 8 * j.pos) 8
        let w := ofBytes l
        let span := gatherSpan j.desc
        let z := r.1.srcPieces c true (pieces (w / 32 * 32) span)
        let goes := fun (t : State) => exec (.gatherListEntry id) s = .next (s.unlessStalled t)
        r.2 = .ok l →
        (bits w 4 1 ≠ 0 → goes (r.1.jobStop c { code := 0x40 })) ∧
        (bits w 4 1 = 0 → bit w 0 = false → goes (r.1.gatherOut c j (List.replicate span 0) true)) ∧
        (∀ b, bits w 4 1 = 0 → bit w 0 = true → z.2 = .ok b → goes (z.1.gatherOut c j b false)) ∧
        (∀ x, bits w 4 1 = 0 → bit w 0 = true → z.2 = .fault x → goes (z.1.jobStop c x)) ∧
        (bits w 4 1 = 0 → bit w 0 = true → z.2 = .poison → goes (z.1.jobStop c { code := 0x49 }))) ∧
      (s.coh.stalled = false → c.op = 0x06 → c.tosp = true → s.reachable ctx c.core = true → j.pos < c.len → After (.fill id) s fun t => t.mem = s.mem ∧
        (t.cmd id).bind (·.job) = some { j with pos := c.boundary j.pos, buf := [], ended := decide (c.len ≤ c.boundary j.pos) } ∧
        ∀ i, j.pos ≤ i → i < c.boundary j.pos →
          tabGet 0 (t.core c.core).well (c.dst + i) = BitVec.ofNat 8 (c.word 16 / 2 ^ (8 * (i % c.pw)))) ∧
      (c.op = 0x14 → exec (.fabricPut id) s = .next (s.putGo c j)) ∧
      (c.op = 0x15 → exec (.fabricGet id) s = .next (State.getGo id (c.boundary j.pos) 4096 (s.getCollect c)))) ∧
    (s.delivering c = none → ∀ e, exec (.pumpTargetDrop id e) s = .next s) ∧
    (∀ e x, c.op = 0x07 → s.delivering c = some j → (streamDesc j.desc).targets[e]? = some x →
      (s.clThere (x / 8) = true → exec (.pumpTargetDrop id e) s = .next s) ∧
      (s.clThere (x / 8) = false → j.pos < streamSrcLen j.desc → After (.pumpTargetDrop id e) s fun t => OnlyCmds s t ∧
        t.cmd id = some { c with job := some { j with dropped := setIns j.dropped e } }) ∧
      (s.clThere (x / 8) = false → exec (.pumpTargetDrop id e) s =
        .next ((s.updJob id fun j => { j with dropped := setIns j.dropped e }).streamEnd c))) ∧
    (∀ n, s.performed c j = false → exec (.pumpLighterCommandComplete id n) s = .next s) ∧
    (∀ n, s.performed c j = true → c.op = 0x05 ∨ c.op = 0x06 → j.code = 0 → j.dropped = [] → j.desc = [] → j.last = none → c.ended = false →
      After (.pumpLighterCommandComplete id n) s fun t => t.mem = s.mem ∧ t.cores = s.cores ∧
        t.cmd id = some { c with job := none, ended := true, status := 0, source := 0, result := 0 } ∧
        t.get (F.PT_CHG_LIGHTER_COUNT ctx) = (s.get (F.PT_CHG_LIGHTER_COUNT ctx) + n / 64) %
          2 ^ ((F.PT_CHG_LIGHTER_COUNT ctx).hi + 1 - (F.PT_CHG_LIGHTER_COUNT ctx).lo)) ∧
    (∀ n r, s.performed c j = true → j.last = some r → exec (.pumpLighterCommandComplete id n) s = .next ((s.chargeUnit c n).engEnd c j r.1 r.2)) ∧
    (∀ n, s.performed c j = true → j.last = none →
      let r := (s.chargeUnit c n).pumpLast c j (s.jobStatus c j).1
      r.2 = none → r.1.cmdWritten c j = false → exec (.pumpLighterCommandComplete id n) s =
        .next (r.1.updJob id fun j => { j with last := some (s.jobStatus c j) })) ∧
    (j.ended = true → exec (.pumpLighterRestart id) s = .next s) ∧
    (j.ended = false → j.unit < 224 → After (.pumpLighterRestart id) s fun t => t.mem = s.mem ∧ t.cores = s.cores ∧
      t.isRetired (if j.unit < 192 then 10 else 11) (unitNumber j.unit) = true ∧
      ∃ u, u ≠ j.unit ∧ t.cmd id = some { c with job := some { j with
        unit := u, was := j.unit, pos := c.restartAt j, out := [], buf := [] } } ∧ (u < 224 → t.get (F.PU_UNIT_STAT_STATE u) = 1)) ∧
    (j.ended = false → 224 ≤ j.unit → exec (.pumpLighterRestart id) s = .next (s.reunit c j)))

/-- R357, R364, R369, R380: entries are fetched and taken. -/
def Obligations.FetchOfEntries : Prop :=
  ∀ (s : State) (q err cover : Nat) (data : List Byte),
  (4096 ≤ q ∨ s.running = false ∨ s.written 4 0 = false → exec (.commandFetch q 0 err cover data) s = .next s) ∧
  (q < 4096 → s.running = true → s.written 4 0 = true →
    let head := s.get (F.FE_Q_PTR_HEAD q)
    let n := if err = 0 then 1 + entExt data else 1
    let avail := (s.get (F.FE_Q_PTR_TAIL q) + 2 ^ 32 - head) % 2 ^ 32
    let opens := bytesAt data 0 1 = 0x0C ∧ nestRuns (s.nestOf q none) = true
    let may := s.qState q = 1 ∧ s.feRuns q = true ∧ s.levelIdle q none = true ∧ n ≤ avail ∧ s.readRoom = true
    let good := err = 0 ∧ data.length = 64 * n ∧ (opens → n ≤ cover ∧ cover ≤ avail)
    let r := s.ringRead q head err n
    (¬may ∨ (¬good ∧ err ≠ 0x13 ∧ err ≠ 0x14 ∧ err ≠ 0x15) → exec (.commandFetch q 0 err cover data) s = .next s.waitQueues) ∧
    (∀ x, may → good ∨ err = 0x13 ∨ err = 0x14 ∨ err = 0x15 → r.2 = some x →
      exec (.commandFetch q 0 err cover data) s = .next ((r.1.qFault q x).qStop q 1 x.code).waitQueues) ∧
    (may → good → r.2 = none → exec (.commandFetch q 0 err cover data) s = .next (r.1.ringTake q n data).waitQueues) ∧
    (∀ pa, pa = s.ringAddr q head → (s.hwinCheck (s.qPart q) false pa ≠ 0 → s.ringRead q head err 1 =
        (s, some { code := s.hwinCheck (s.qPart q) false pa, pa := pa })) ∧
      (s.hwinCheck (s.qPart q) false pa = 0 → s.ringRead q head err 1 = (s.hostAsk 0 pa 64,
        if err = 0 then none else some { code := err, pa := pa })))) ∧
  (∀ p, p ≠ 0 → s.cmd p = none → exec (.commandFetch q p err cover data) s = .next s) ∧
  (∀ d, d.id ≠ 0 → s.cmd d.id = some d →
    let may := d.fetching = true ∧ s.written 4 0 = true ∧ (s.qState d.queue = 1 ∨ s.qState d.queue = 2 ∨ s.qState d.queue = 4) ∧ s.feRuns d.queue = true ∧
      s.levelIdle d.queue (some d.id) = true
    let r := s.levelRead d (64 * d.pos) 64
    (¬may → exec (.commandFetch q d.id err cover data) s = .next s) ∧
    (∀ x, may → r.2 = .fault x → exec (.commandFetch q d.id err cover data) s =
      .next (s.unlessStalled ((r.1.qFault d.queue x).innerStop d.id x.code 0 d.pos))) ∧
    (may → r.2 = .poison → exec (.commandFetch q d.id err cover data) s = .next (s.unlessStalled (r.1.innerStop d.id 0x5E 0 d.pos))) ∧
    (∀ e, may → r.2 = .ok e → entExt e = 0 → exec (.commandFetch q d.id err cover data) s = .next (s.unlessStalled (r.1.innerTake d e)))) ∧
  (∀ c : Cmd, c.parent ≠ some c.id → let s' := { s with fe := { s.fe with nextCmd := s.fe.nextCmd + 1 } }
    let runs := nestRuns (s.nestOf c.queue c.parent)
    let joins := s.take c = { s' with fe := { s'.fe with cmds := s.fe.cmds ++ [c] } }
    (c.marker = true → joins) ∧
    (c.marker = false → runs = true → s'.stage1 c = 0 → joins) ∧
    (c.marker = false → runs = true → s'.stage1 c ≠ 0 → s.take c = (s'.takeSkipped c).refuseNew c (s'.stage1 c)) ∧
    (c.marker = false → runs = false → s.take c = s'.takeSkipped c ∧
      ((∃ p, c.parent = some p ∧ s.cmd p = none) ∨ (s.take c).nestOf c.queue c.parent =
        (if c.op = 0x0C then [.cond false false] else if c.op = 0x0F then [.loop 0 0] else []) ++ s.nestOf c.queue c.parent) ∧
      (s.take c).fe.cmds.length = s.fe.cmds.length))

/-- R367, R377 to R385, R400. -/
def Obligations.CompletionsWatchdogsAndResets : Prop :=
  ∀ (s : State) (c : Cmd) (q : Nat),
  (s.cmd c.id = none → exec (.commandComplete c.id) s = .next s ∧ exec (.commandWatchdogExpiry c.id) s = .next s) ∧
  (s.cmd c.id = some c →
    (s.qState c.queue = 3 ∨ s.vfStopped c.queue = true ∨ s.overAs c = none → exec (.commandComplete c.id) s = .next s) ∧
    (∀ d, s.qState c.queue ≠ 3 → s.vfStopped c.queue = false → s.overAs c = some d →
      exec (.commandComplete c.id) s = .next (((s.forget c.id).finish d).waitQueues)) ∧
    (c.ended = true → c.job = none → s.overAs c = some c) ∧ (c.ended = true → c.job ≠ none → s.overAs c = none) ∧
    (c.ended = false → c.started = true → c.op = 0x11 → c.stopping = false → c.status = 0 → (∀ d ∈ s.fe.cmds, d.parent ≠ some c.id) →
      s.overAs c = if c.pos < c.ents then none else if c.nest = [] then some { c with ended := true }
        else some { c with ended := true, status := 0x56, place := c.ents - 1 }) ∧
    (let late := c.started = true ∧ c.ended = false ∧ s.boundOf c ≠ 0 ∧ s.ctxState (s.qCtx c.queue) = 2 ∧
       s.haltedCtx (s.qCtx c.queue) = false ∧ (s.qState c.queue = 1 ∨ s.qState c.queue = 2 ∨ s.qState c.queue = 4)
     (late → exec (.commandWatchdogExpiry c.id) s = .next ((s.markLate c).guilty c.queue 3)) ∧
     (¬late → exec (.commandWatchdogExpiry c.id) s = .next s))) ∧
  (∀ r : Rec, r.bytes q 1 = toBytes 6 r.seq ++ toBytes 2 (q + 2 ^ 15) ++ toBytes 2 r.gen ++ toBytes 1 r.epoch ++ toBytes 1 r.status ++
      toBytes 2 r.place ++ toBytes 2 r.source ++ toBytes 8 r.result ++ toBytes 8 r.user ∧ (r.bytes q 0).length = 32 ∧
    (q < 4096 → s.canWrite q = true → s.heldOf q = [] → 0 < s.cqSpace q → r.irq = false →
      let w := s.get (F.FE_Q_CQPTR_WRITTEN q)
      let pa := s.get (F.FE_Q_CQ_BASE q) * 4096 + 32 * (w % s.cqSize q)
      s.hwinCheck (s.qPart q) true pa = 0 → ∀ v, s.exitQuay 0 = some v → let t := s.recDeliver q r
        t.out = s.out ++ [.hostWrite (s.hwinFunc pa) (s.hostAddr pa) (r.bytes q (s.phase q)) (s.on (F.PT_HWIN_NS (hwinChunk pa))) v] ∧
        t.get (F.FE_Q_CQPTR_WRITTEN q) = (w + 1) % 2 ^ 32 ∧ t.heldOf q = []) ∧
    (s.canWrite q = false ∨ s.heldOf q ≠ [] ∨ s.cqSpace q = 0 → (s.heldOf q).length < 64 → s.recDeliver q r = s.setHeld q (s.heldOf q ++ [r]))) ∧
  (∀ cause, q < 4096 → s.sluices = [] → cause < 8 → s.qState q = 1 ∨ s.qState q = 2 ∨ s.qState q = 4 → let t := s.guilty q cause
    t.qState q = 3 ∧ t.get (F.FE_Q_STAT_CAUSE q) = cause ∧ ∀ d ∈ t.fe.cmds, d.queue = q → d.started = true) ∧
  (∀ cause, s.qState q = 0 ∨ s.qState q = 3 → s.guilty q cause = s) ∧
  (∀ ctx, let overrun := ctx < 1024 ∧ s.ctxState ctx = 2 ∧ (s.ctx ctx).asked = true ∧ s.get (F.PT_PART_CTL_SLICE (s.ctxPart ctx)) ≠ 0
    let np := fun (d : Cmd) => d.started && d.np && s.qCtx d.queue == ctx
    (¬overrun ∨ s.fe.cmds.find? np = none → exec (.npOverrunLimit ctx) s = .next s) ∧
    (∀ d, overrun → s.fe.cmds.find? np = some d → exec (.npOverrunLimit ctx) s =
      .next (if s.qState d.queue = 1 ∨ s.qState d.queue = 2 then s.guilty d.queue 6 else s))) ∧
  (4096 ≤ q ∨ s.qState q ≠ 3 ∨ s.ctxState (s.qCtx q) = 6 → exec (.guiltyResetComplete q) s = .next s) ∧
  (q < 4096 → s.qState q = 3 → s.ctxState (s.qCtx q) ≠ 6 → exec (.guiltyResetComplete q) s =
    .next (((s.resetOff q).waitQueues).resched (s.qPart q))) ∧
  ((s.resetRec q c).status = (if c.id ∈ s.fe.late then 0x5D else if s.get (F.FE_Q_STAT_CAUSE q) = 7 then 0x5B else 0x5A) ∧
    (s.resetRec q c).seq = c.seq ∧ (s.resetRec q c).source = 0) ∧
  (∀ err v, 4096 ≤ q ∨ s.qState q = 0 ∨ s.cqSpace q ≠ 0 ∨ s.readRoom = false → exec (.headShadowRead q err v) s = .next s) ∧
  (∀ v, q < 4096 → s.qState q ≠ 0 → s.cqSpace q = 0 → s.readRoom = true → let pa := s.get (F.FE_Q_CQHEAD_ADDR q) * 4
    s.hwinCheck (s.qPart q) false pa = 0 →
    (s.cqSize q < (s.get (F.FE_Q_CQPTR_WRITTEN q) + 2 ^ 32 - v % 2 ^ 32) % 2 ^ 32 → After (.headShadowRead q 0 v) s fun t =>
      t.mem = s.mem ∧ t.fe = { s.fe with shadowBad := setDel s.fe.shadowBad q } ∧
      t.get (F.FE_Q_CQPTR_HOSTHEAD q) = s.get (F.FE_Q_CQPTR_HOSTHEAD q) ∧ t.out = (s.hostAsk 0 pa 4).out ∧
      t.get F.FE_DB_DROP_COUNT = satAdd (F.FE_DB_DROP_COUNT.hi + 1 - F.FE_DB_DROP_COUNT.lo) (s.get F.FE_DB_DROP_COUNT) 1) ∧
    ((s.get (F.FE_Q_CQPTR_WRITTEN q) + 2 ^ 32 - v % 2 ^ 32) % 2 ^ 32 ≤ s.cqSize q → s.heldOf q = [] → After (.headShadowRead q 0 v) s fun t =>
      t.mem = s.mem ∧ t.get (F.FE_Q_CQPTR_HOSTHEAD q) = v % 2 ^ 32 ∧ q ∉ t.fe.shadowBad)) ∧
  (∀ err v, q < 4096 → s.qState q ≠ 0 → s.cqSpace q = 0 → err ≠ 0 → q ∈ s.fe.shadowBad →
    After (.headShadowRead q err v) s fun t => { t with out := s.out } = s)

/-- R359: a resume is a submit, and resumes a STOPPED queue. -/
def Obligations.ResumeDoorbells : Prop :=
  ∀ (s : State) (func off q v : Nat), q < 4096 → v < 2 ^ 56 → s.funcOk func = true →
  (func = 0 ∧ off = 4096 * q ∧ s.qFunc q = 0) ∨
    (func ≠ 0 ∧ off < 2 ^ 18 ∧ off % 4096 = 0 ∧ s.vfBound func = true ∧ (s.vfQueues func)[off / 4096]? = some q) →
  let tail := bits v 31 0
  let size := 2 ^ s.get (F.FE_Q_CFG_SIZE q)
  let fits := (s.qState q = 1 ∨ s.qState q = 2) ∧ bits v 47 32 = s.genOf (s.qFunc q) ∧ bits v 55 48 = s.get (F.FE_Q_STAT_EPOCH q) ∧
    (tail + 2 ^ 32 - s.get (F.FE_Q_PTR_TAIL q)) % 2 ^ 32 ≤ size ∧ (tail + 2 ^ 32 - s.get (F.FE_Q_PTR_HEAD q)) % 2 ^ 32 ≤ size
  (fits → After (.doorbell func off 8 (BitVec.ofNat 64 v)) s fun t =>
    t.get (F.FE_Q_PTR_TAIL q) = tail ∧ t.qState q = s.qState q ∧
    exec (.doorbell func off 8 (BitVec.ofNat 64 (v + 2 ^ 56))) s = .next (if s.qState q = 2 then t.resume q else t)) ∧
  (¬fits → After (.doorbell func off 8 (BitVec.ofNat 64 (v + 2 ^ 56))) s fun t =>
    t.get (F.FE_Q_PTR_TAIL q) = s.get (F.FE_Q_PTR_TAIL q) ∧ t.qState q = s.qState q)

/-- R355, R370, R381, R567: the front end's registers that PF0 writes. -/
def Obligations.QueuesBerthsAndGraphStores : Prop :=
  ∀ (s : State), s.barOk = true →
  let onlyRegs := fun (t : State) => t = { s with regs := t.regs }
  let refused := fun (c : Instr) (f : Fld) => exec c s = .next (s.set f 1)
  (∀ q, q < 4096 →
    (s.qState q ≠ 0 → After (.queueEnable q) s fun t => onlyRegs t ∧ t.get (F.FE_Q_CTL_ENABLE q) = 1 ∧ t.qState q = s.qState q) ∧
    (s.qState q = 0 → s.enableErr q ≠ 0 → After (.queueEnable q) s fun t => onlyRegs t ∧ t.qState q = 0 ∧ t.get (F.FE_Q_STAT_ENERR q) = s.enableErr q) ∧
    (s.qState q = 0 → s.enableErr q = 0 → After (.queueEnable q) s fun t =>
      t.qState q = 1 ∧ t.get (F.FE_Q_PTR_HEAD q) = 0 ∧ t.get (F.FE_Q_PTR_TAIL q) = 0 ∧ t.get (F.FE_Q_CQPTR_WRITTEN q) = 0 ∧
      t.get (F.FE_Q_CQPTR_HOSTHEAD q) = 0 ∧ t.phase q = 1 ∧ t.get (F.FE_Q_STAT_EPOCH q) = (s.get (F.FE_Q_STAT_EPOCH q) + 1) % 256 ∧
      t.get (F.FE_Q_STAT_DBERR q) = 0 ∧ t.get (F.FE_Q_STAT_DBDROP q) = 0 ∧ t.get (F.FE_Q_SEQ_NEXT q) = s.get (F.FE_Q_SEQ_NEXT q) ∧
      t.on F.BT_STAT_LOCK = true ∧ t.mem = s.mem ∧ t.fe.cmds = s.fe.cmds) ∧
    (let ring := inHostWin (s.get (F.FE_Q_RING_BASE q) * 4096) (64 * 2 ^ s.get (F.FE_Q_CFG_SIZE q))
     let rest := inHostWin (s.get (F.FE_Q_CQ_BASE q) * 4096) (32 * 2 ^ s.get (F.FE_Q_CFG_CQSIZE q)) = true ∧
       inHostWin (s.get (F.FE_Q_CQHEAD_ADDR q) * 4) 4 = true
     (s.enableErr q = 1 ↔ ring = false) ∧ (s.enableErr q = 2 ↔ ring = true ∧ ¬rest) ∧
     (s.enableErr q = 0 → ring = true ∧ rest ∧ 6 ≤ s.get (F.FE_Q_CFG_SIZE q) ∧ s.get (F.FE_Q_CFG_SIZE q) ≤ 16 ∧
       6 ≤ s.get (F.FE_Q_CFG_CQSIZE q) ∧ s.get (F.FE_Q_CFG_CQSIZE q) ≤ 16 ∧ s.ctxState (s.qCtx q) ≠ 0)) ∧
    (¬(s.qState q = 1 ∨ s.qState q = 2) → exec (.queueReset q) s = .next s ∧
      After (.queueDisable q) s fun t => onlyRegs t ∧ t.get (F.FE_Q_CTL_ENABLE q) = 0 ∧ t.qState q = s.qState q) ∧
    (s.qState q = 1 ∨ s.qState q = 2 →
      (After (.queueDisable q) s fun t => t.get (F.FE_Q_CTL_ENABLE q) = 0 ∧
        (if (s.fe.cmds.any fun c => c.queue == q && c.started) then t.qState q = 4 else t.qState q = 0 ∧ t.heldOf q = []) ∧
        t.fe.cmds = s.fe.cmds.filter fun c => !(c.queue == q && c.parent == none && !c.started)) ∧
      ((∀ x ∈ s.sluices, x.slot < 64) → After (.queueReset q) s fun t => t.qState q = 3 ∧ t.get (F.FE_Q_STAT_CAUSE q) = 4 ∧
        (∀ o, o < 4096 → o ≠ q → s.qCtx o = s.qCtx q → s.qState o = 1 ∨ s.qState o = 2 → t.qState o = 3 ∧ t.get (F.FE_Q_STAT_CAUSE o) = 7) ∧
        (s.ctxState (s.qCtx q) ≠ 0 → t.ctxState (s.qCtx q) = 6) ∧ ∀ c ∈ t.fe.cmds, c.queue = q → c.started = true)) ∧
    ∀ (v : BitVec 64), let f := bits v.toNat 13 8
      let full := f ≠ 0 ∧ f ≠ s.qFunc q ∧ 64 ≤ (s.vfQueues f).length
      (s.qState q ≠ 0 → refused (.queueOwnerWrite q v) F.FE_ERR_QBUSY) ∧
      (s.qState q = 0 → full → refused (.queueOwnerWrite q v) F.FE_ERR_VFQ) ∧
      (s.qState q = 0 → ¬full → After (.queueOwnerWrite q v) s fun t => onlyRegs t ∧ t.qPart q = bits v.toNat 3 0 ∧ t.qFunc q = f ∧
        t.qCtx q = bits v.toNat 25 16 ∧ t.get (F.FE_Q_OWN_PRIV q) = bits v.toNat 32 32)) ∧
  (∀ b (w : BitVec 64), b < 4096 → let v := w.toNat
    let en := s.on (F.FE_BERTH_OWN_EN b)
    let owned := fun (t : State) => t.get (F.FE_BERTH_OWN_CTX b) = bits v 9 0 ∧ t.get (F.FE_BERTH_OWN_PART b) = bits v 19 16
    (en = true → refused (.berthConfigWrite b false w) F.FE_ERR_BERTH) ∧
    (en = false → After (.berthConfigWrite b false w) s fun t => onlyRegs t ∧ t.get (F.FE_BERTH_CFG_DEPTH b) = bits v 3 0 ∧
      t.get (F.FE_BERTH_CFG_BASE b) = bits v 56 12) ∧
    (en = true → bit v 20 = true → refused (.berthConfigWrite b true w) F.FE_ERR_BERTH) ∧
    (en = true → bit v 20 = false → After (.berthConfigWrite b true w) s fun t => owned t ∧
      t.on (F.FE_BERTH_OWN_EN b) = false ∧ t.get (F.FE_BERTH_OWN_COUNT b) = 0 ∧ t.mem = s.mem ∧ t.cores = s.cores ∧
      (∀ x ∈ t.fe.waiters, x.berth ≠ b) ∧ tabGet 0 t.fe.taken b = 0 ∧
      ((s.fe.cmds.map (·.id)).Nodup → ∀ c ∈ s.fe.cmds, t.cmd c.id = some
        (if c.started = true ∧ c.ended = false ∧ c.op = 0x12 ∧ c.word 16 % 4096 = b then
          { c with ended := true, status := 0x58, source := 0, result := 0 } else c))) ∧
    (en = false → bit v 20 = false → After (.berthConfigWrite b true w) s fun t => onlyRegs t ∧ owned t ∧ t.on (F.FE_BERTH_OWN_EN b) = false) ∧
    (en = false → bit v 20 = true → if s.berthMay b (bits v 9 0) (bits v 19 16) = true then
      After (.berthConfigWrite b true w) s fun t => onlyRegs t ∧ owned t ∧ t.on (F.FE_BERTH_OWN_EN b) = true ∧
        4 ≤ s.get (F.FE_BERTH_CFG_DEPTH b) ∧ s.get (F.FE_BERTH_CFG_DEPTH b) ≤ 12 ∧ s.ctxState (bits v 9 0) ≠ 0
      else refused (.berthConfigWrite b true w) F.FE_ERR_BERTH)) ∧
  ∀ p (v : BitVec 64), p < 16 →
    ((∃ e ∈ s.fe.graphs, e.1 / 1024 = p) → ∀ z, refused (.gstoreWrite p z v) F.FE_ERR_GSTORE) ∧
    ((∀ e ∈ s.fe.graphs, e.1 / 1024 ≠ p) →
      (After (.gstoreWrite p false v) s fun t => onlyRegs t ∧ t.get (F.FE_GSTORE_BASE p) = bits v.toNat 56 16) ∧
      After (.gstoreWrite p true v) s fun t => onlyRegs t ∧ t.get (F.FE_GSIZE_SIZE p) = bits v.toNat 15 0 ∧
        t.get (F.FE_GSIZE_FREE p) = 16 * bits v.toNat 15 0)

/-- R388 to R394, R403, R404: partitions, and the life of a context. -/
def Obligations.PartitionsAndContexts : Prop :=
  ∀ (s : State),
  let onlyRegs := fun (t : State) => t = { s with regs := t.regs }
  let refused := fun (c : Instr) (f : Fld) => exec c s = .next (s.set f 1)
  (s.barOk = true → ∀ p (v : BitVec 64), p < 16 →
    (∀ reg, 6 < reg → exec (.partitionConfigWrite p reg v) s = .next s) ∧
    (let ctl := fun (t : State) => onlyRegs t ∧ t.partEn p = bit v.toNat 0 ∧ t.get (F.PT_PART_CTL_SLICE p) = bits v.toNat 31 16
     (bit v.toNat 0 = true → s.partOverlaps p = true → refused (.partitionConfigWrite p 0 v) F.PT_ERR_OVERLAP) ∧
     (bit v.toNat 0 = true → s.partOverlaps p = false → After (.partitionConfigWrite p 0 v) s ctl) ∧
     (bit v.toNat 0 = false → s.partCtxs p ≠ [] ∨ s.partBound p = true → refused (.partitionConfigWrite p 0 v) F.PT_ERR_BUSY) ∧
     (bit v.toNat 0 = false → s.partCtxs p = [] → s.partBound p = false → After (.partitionConfigWrite p 0 v) s ctl)) ∧
    (s.partEn p = true → ∀ reg, 1 ≤ reg → reg ≤ 6 → refused (.partitionConfigWrite p reg v) F.PT_ERR_BUSY) ∧
    (s.partEn p = false →
      (∀ w, w < 2 → After (.partitionConfigWrite p (1 + w) v) s fun t => onlyRegs t ∧ ∀ i, i < 64 →
        bit (t.get (F.PT_PART_CL_CLUSTERS p w)) i = (v.getLsbD i && s.clThere (64 * w + i))) ∧
      (∀ w, w < 3 → After (.partitionConfigWrite p (3 + w) v) s fun t => onlyRegs t ∧ ∀ i, i < 64 →
        bit (t.get (F.PT_PART_PU_PUMPS p w)) i = (v.getLsbD i && !s.isRetired 10 (64 * w + i))) ∧
      After (.partitionConfigWrite p 6 v) s fun t => onlyRegs t ∧ ∀ i, i < 32 →
        bit (t.get (F.PT_PART_LT_LIGHTERS p)) i = (v.getLsbD i && !s.isRetired 11 i))) ∧
  (s.barOk = true → ∀ c (w : BitVec 64), c < 1024 → let v := w.toNat
    let live := s.on (F.PT_CTX_CTL_LIVE c)
    let same := fun (t : State) => t.ctxPart c = s.ctxPart c ∧ t.get (F.PT_CTX_CTL_FUNC c) = s.get (F.PT_CTX_CTL_FUNC c)
    let put := fun (t : State) => t.ctxPart c = bits v 3 0 ∧ t.get (F.PT_CTX_CTL_FUNC c) = bits v 9 4 ∧ t.get (F.PT_CTX_CTL_SHARE c) = bits v 23 16
    let differs := bits v 3 0 ≠ s.ctxPart c ∨ bits v 9 4 ≠ s.get (F.PT_CTX_CTL_FUNC c)
    let busy := fun (t : State) => (differs → t.on F.PT_ERR_BUSY = true) ∧ (¬differs → t.on F.PT_ERR_BUSY = s.on F.PT_ERR_BUSY)
    let queues := fun (t : State) => ∀ q, q < 4096 → s.qCtx q = c → s.qState q = 1 ∨ s.qState q = 2 → t.qState q = 3 ∧ t.get (F.FE_Q_STAT_CAUSE q) = 4
    let berths := fun (t : State) => ∀ b, b < 4096 → s.get (F.FE_BERTH_OWN_CTX b) = c → t.on (F.FE_BERTH_OWN_EN b) = false
    let torn := fun (t : State) (cause : Nat) => t.ctxState c = 6 ∧ t.get (F.PT_CTX_STAT_CAUSE c) = cause ∧ t.cgenOf c = nextGen (s.cgenOf c) ∧
      (∀ k ∈ s.coresOf c, t.core k = (s.core k).tear) ∧ (∀ l ∈ t.fe.launches, l.ctx ≠ c) ∧ (∀ x ∈ t.host.walks, x.ctx ≠ c) ∧ berths t ∧ same t
    let slots := ∀ x ∈ s.sluices, x.slot < 64
    (bit v 32 = true → exec (.contextDestroy c w) s = .next s) ∧ (bit v 32 = false → exec (.contextCreate c w) s = .next s) ∧
    (bit v 32 = true → live = true → After (.contextCreate c w) s fun t => onlyRegs t ∧ same t ∧ busy t ∧
      t.get (F.PT_CTX_CTL_SHARE c) = bits v 23 16 ∧ t.ctxState c = s.ctxState c ∧ t.on (F.PT_CTX_CTL_LIVE c) = true) ∧
    (bit v 32 = true → live = false → s.ctxMay c (bits v 3 0) (bits v 9 4) = true → After (.contextCreate c w) s fun t =>
      put t ∧ t.on (F.PT_CTX_CTL_LIVE c) = true ∧ t.ctxState c = 1 ∧ t.cgenOf c = 1 ∧ t.ctx c = Ctx.new ∧ t.mem = s.mem ∧ t.cores = s.cores) ∧
    (bit v 32 = true → live = false → s.ctxMay c (bits v 3 0) (bits v 9 4) = false → After (.contextCreate c w) s fun t =>
      onlyRegs t ∧ put t ∧ t.on F.PT_ERR_CTX = true ∧ t.on (F.PT_CTX_CTL_LIVE c) = false ∧ t.ctxState c = s.ctxState c) ∧
    (bit v 32 = false → live = false → exec (.contextDestroy c w) s = .next s) ∧
    (bit v 32 = false → live = true → slots → s.ctxState c ≠ 0 → s.ctxState c ≠ 6 → After (.contextDestroy c w) s fun t =>
      torn t 6 ∧ queues t ∧ (t.ctx c).free = true) ∧
    (bit v 32 = false → live = true → s.ctxState c = 6 → After (.contextDestroy c w) s fun t => t.ctxState c = 6 ∧ queues t ∧ berths t ∧
      t.get (F.PT_CTX_STAT_CAUSE c) = s.get (F.PT_CTX_STAT_CAUSE c) ∧ t.cgenOf c = s.cgenOf c ∧ (t.ctx c).free = true) ∧
    (s.ctxState c = 0 ∨ s.ctxState c = 6 → exec (.contextTear c) s = .next s) ∧
    (slots → s.ctxState c ≠ 0 → s.ctxState c ≠ 6 → After (.contextTear c) s fun t => torn t 5 ∧ (t.ctx c).free = false)) ∧
  (∀ c run pump lighter sw np, c < 1024 →
    (s.ctxState c ≠ 6 ∨ s.excIn c = true ∨ s.engLate c = true → exec (.teardownComplete c run pump lighter sw np) s = .next s) ∧
    (s.ctxState c = 6 → s.excIn c = false → s.engLate c = false → After (.teardownComplete c run pump lighter sw np) s fun t =>
      (∀ k ∈ s.maskCores c, s.ownCore c k = true → t.core k = Core.idle) ∧
      t.get (F.PT_CHG_CORE_COUNT c) = (s.get (F.PT_CHG_CORE_COUNT c) + s.coreClocks c run) % 2 ^ 64 ∧
      t.get (F.PT_CHG_PUMP_COUNT c) = (s.get (F.PT_CHG_PUMP_COUNT c) + pump / 64) % 2 ^ 64 ∧
      t.get (F.PT_CHG_OVERRUN_COUNT c) = (s.get (F.PT_CHG_OVERRUN_COUNT c) + s.coreClocks c np) % 2 ^ 64 ∧
      ((s.ctx c).was = 4 → t.get (F.PT_CHG_SWITCH_COUNT c) = (s.get (F.PT_CHG_SWITCH_COUNT c) + s.coreClocks c sw) % 2 ^ 64) ∧
      (if (s.ctx c).free then t.ctxState c = 0 ∧ t.on (F.PT_CTX_CTL_LIVE c) = false
       else t.ctxState c ≠ 6 ∧ t.ctxState c ≠ 0 ∧ t.on (F.PT_CTX_CTL_LIVE c) = s.on (F.PT_CTX_CTL_LIVE c)))) ∧
  ∀ n, n < 65536 → nextGen n ≠ 0 ∧ nextGen n < 65536 ∧ (n < 65535 → nextGen n = n + 1)

/-- R395 to R402: the scheduler and the context switch. -/
def Obligations.SwitchesOfContexts : Prop :=
  ∀ (s : State),
  (∀ p, let g := s.grants p
    let cand := fun (c : Nat) => c ∈ s.partCtxs p ∧ (s.isRunnable c = true ∨ s.ctxState c = 2) ∧ s.ctxState c ≠ 5 ∧ s.ctxState c ≠ 6
    let key := fun (c : Nat) => ((!s.isRunnable c, s.vt c, c) : Cand)
    (∀ c ∈ g, cand c) ∧ (∀ c ∈ g, ∀ d ∈ g, c ≠ d → s.ctxMask c &&& s.ctxMask d = 0) ∧
    ∀ c, cand c → s.maskThere c = true → c ∉ g →
      s.frozenPart p = true ∨ ∃ d ∈ g, (s.stays c = true → s.stays d = true) ∧ (s.stays d = s.stays c → Cand.before (key d) (key c) = true) ∧
        s.ctxMask d &&& s.ctxMask c ≠ 0) ∧
  (∀ c n, c < 1024 → let p := s.ctxPart c
    let slice := s.get (F.PT_PART_CTL_SLICE p)
    (s.ctxState c ≠ 2 ∨ slice = 0 → exec (.timeSliceEnd c n) s = .next s) ∧
    (s.ctxState c = 2 → slice ≠ 0 →
      let s' := (s.chargeCore c n).setCtx c { s.ctx c with shorten := (s.ctx c).shorten - slice * 65536 }
      After (.timeSliceEnd c n) s fun t => t.get (F.PT_CHG_CORE_COUNT c) = (s.get (F.PT_CHG_CORE_COUNT c) + s.coreClocks c n) % 2 ^ 64 ∧
        t.mem = s.mem ∧ t.fe.cmds = s.fe.cmds ∧
        ∀ d ∈ s.partCtxs p, s.ctxState d = 2 → (d ∈ s'.grants p → t.ctxState d = 2) ∧
          (d ∉ s'.grants p → s.excIn d = true ∨ s.npRunning d = true → t.ctxState d = 2) ∧
          (d ∉ s'.grants p → (s.partCtxs p).Nodup → s.excIn d = false → s.npRunning d = false → t.ctxState d = 3 ∧ t.cgenOf d = nextGen (s.cgenOf d)))) ∧
  (∀ c run extra, c < 1024 →
    let s' := ((s.coresOf c).foldl (fun s k => (s.flushCore k).handRq k fun _ => true) s).drainSluices c
    let quiet := ∀ k ∈ s'.coresOf c, (s'.core k).quiet = true ∧ ∀ q ∈ s'.coh.pend, q.cluster ≠ k / 8
    let may := s.ctxState c = 3 ∧ (s.ctx c).drained = false ∧ s.engBusy c = false ∧ s.excIn c = false ∧ quiet
    (¬may → exec (.preemptionDrainComplete c run extra) s = .next s) ∧
    (may → After (.preemptionDrainComplete c run extra) s fun t =>
      (t.ctx c).drained = true ∧ (t.ctx c).saved = s'.maskState c ∧ t.cores = s'.cores ∧ t.mem = s'.mem ∧
      t.get (F.PT_CHG_CORE_COUNT c) = (s'.get (F.PT_CHG_CORE_COUNT c) + s'.coreClocks c run) % 2 ^ 64 ∧
      t.get (F.PT_CHG_OVERRUN_COUNT c) = (s'.get (F.PT_CHG_OVERRUN_COUNT c) + s'.coreClocks c extra) % 2 ^ 64 ∧
      t.ctxState c = s'.ctxState c)) ∧
  (∀ c n, c < 1024 → let x := s.ctx c
    let stored := (s.saveArea c).written 3 saveUnit = true
    (¬(s.ctxState c = 3 ∧ x.drained = true ∧ stored) → exec (.saveComplete c n) s = .next s) ∧
    (s.ctxState c = 3 → x.drained = true → stored → After (.saveComplete c n) s fun t => (∀ k ∈ s.maskCores c, t.core k = Core.idle) ∧
      (t.ctx c).has = true ∧ (t.ctx c).drained = false ∧ (x.freeze = true → t.ctxState c = 5) ∧
      (x.freeze = false → x.granted = false → t.ctxState c = 1) ∧
      ∀ d ∈ s.incoming (s.ctxPart c) c, (s.incoming (s.ctxPart c) c).Nodup → t.get (F.PT_CHG_SWITCH_COUNT d) =
        (s.get (F.PT_CHG_SWITCH_COUNT d) + s.coreClocks c n / (s.incoming (s.ctxPart c) c).length) % 2 ^ 64)) ∧
  ∀ c n, c < 1024 → let x := s.ctx c
    let rec' := fun (i : Nat) => coreRecord (s.saveBase c) i
    let poisoned := (∃ i < (s.maskCores c).length, (s.readRegion (rec' i) 0x80000).2 = true ∨ (s.readRegion (rec' i + 0x130000) 0x40000).2 = true ∨
      (s.readRegion (rec' i + 0x170000) 0x10000).2 = true ∨
      ∃ k, (s.maskCores c)[i]? = some k ∧ (s.readRegion (rec' i + 0x80000) (tabGet Core.idle x.saved k).P).2 = true) ∨
      (s.readRegion (s.saveBase c) 0x10000).2 = true
    let charged := (s.chargeArea c).countWrap (F.PT_CHG_SWITCH_COUNT c) (s.coreClocks c n)
    (s.ctxState c ≠ 4 ∨ (s.maskThere c = true ∧ s.areaReady c = false) → exec (.restoreComplete c n) s = .next s) ∧
    (s.ctxState c = 4 → s.maskThere c = false → exec (.restoreComplete c n) s =
      .next ((s.countWrap (F.PT_CHG_SWITCH_COUNT c) (s.coreClocks c n)).restoreOff c)) ∧
    (s.ctxState c = 4 → s.maskThere c = true → s.areaReady c = true → poisoned → exec (.restoreComplete c n) s = .next (charged.tear c 9 0 0)) ∧
    (s.ctxState c = 4 → s.maskThere c = true → s.areaReady c = true → ¬poisoned → (∀ r ∈ x.reads, r.org.part < 16) → After (.restoreComplete c n) s fun t => (t.ctx c).has = false ∧
      (∀ k ∈ s.maskCores c, k ∉ t.pow.gated) ∧ (x.freeze = false → t.ctxState c = 2) ∧
      t.get (F.PT_CHG_SWITCH_COUNT c) = (s.get (F.PT_CHG_SWITCH_COUNT c) + s.coreClocks c n) % 2 ^ 64 ∧
      ∀ i k, (s.maskCores c)[i]? = some k → let o := tabGet Core.idle x.saved k
        (t.core k).t = regLanes (s.readRegion (rec' i) 0x80000).1 ∧ (t.core k).well = (s.readRegion (rec' i + 0x80000) o.P).1 ∧
        (t.core k).acc = (s.readRegion (rec' i + 0x130000) 0x40000).1 ∧ (t.core k).pc = o.pc ∧ (t.core k).p = o.p ∧ (t.core k).u = o.u)

/-- R386, R405 to R407, R438: functions, and the resets of functions and of the device. That a lead failing in steps 4 to 8 leaves
the device unready is DESIGN CHOICE of the model (State.leadFails). -/
def Obligations.FunctionsAndDeviceResets : Prop :=
  ∀ (s : State),
  let onlyRegs := fun (t : State) => t = { s with regs := t.regs }
  let graphs := ∀ e ∈ s.fe.graphs, e.1 < 16384
  (s.barOk = true → ∀ v (w : BitVec 64), v < 64 →
    (v = 0 → exec (.functionBindWrite v w) s = .next s) ∧
    (v ≠ 0 →
      let part := bits w.toNat 3 0
      let bound := bit w.toNat 4
      let changes := part ≠ s.get (F.PT_FN_PART v) ∨ bound ≠ s.on (F.PT_FN_BOUND v)
      let busy := changes ∧ s.fnBusy v = true
      let bind := bound = true ∧ s.partEn part = false
      (busy ∨ bind → After (.functionBindWrite v w) s fun t => onlyRegs t ∧ t.raw (A.PT_FN v) = s.raw (A.PT_FN v) ∧
        (busy → t.on F.PT_ERR_BUSY = true) ∧ (bind → t.on F.PT_ERR_BIND = true) ∧ (¬bind → t.on F.PT_ERR_BIND = s.on F.PT_ERR_BIND)) ∧
      (¬busy → ¬bind → After (.functionBindWrite v w) s fun t => onlyRegs t ∧ t.get (F.PT_FN_PART v) = part ∧ t.on (F.PT_FN_BOUND v) = bound ∧
        (changes → t.genOf v = nextGen (s.genOf v)) ∧ (¬changes → t.genOf v = s.genOf v)))) ∧
  (∀ v,
    (¬(1 ≤ v ∧ v ≤ 63 ∧ s.host.vfEn = true ∧ s.running = true) → exec (.vfFlr v) s = .next s) ∧
    (1 ≤ v → v ≤ 63 → s.host.vfEn = true → s.running = true → graphs → (∀ x ∈ s.sluices, x.slot < 64) → After (.vfFlr v) s fun t =>
      v ∈ t.host.flr ∧ t.genOf v = nextGen (s.genOf v) ∧ v ∉ t.fe.frozen ∧
      (∀ c, c < 1024 → s.get (F.PT_CTX_CTL_FUNC c) = v → s.ctxState c ≠ 0 → s.ctxState c ≠ 6 → t.ctxState c = 6 ∧ t.get (F.PT_CTX_STAT_CAUSE c) = 7) ∧
      (∀ q, q < 4096 → s.qFunc q = v → t.qState q = 0 ∧ (s.qState q ≠ 0 → t.heldOf q = [] ∧ ∀ c ∈ t.fe.cmds, c.queue ≠ q)) ∧
      t.raw (A.PT_VF_APBASE v) = s.raw (A.PT_VF_APBASE v) ∧ t.get (F.PT_FN_PART v) = s.get (F.PT_FN_PART v) ∧ t.on (F.PT_FN_BOUND v) = s.on (F.PT_FN_BOUND v)) ∧
    (let idle := s.host.flr.contains v = true ∧ ∀ r ∈ s.host.reads, s.hwinFunc r.pa ≠ v
     (¬idle → exec (.vfFlrComplete v) s = .next s) ∧
     (idle → After (.vfFlrComplete v) s fun t => t = { s with host := t.host } ∧ v ∉ t.host.flr ∧ (∀ e ∈ t.host.cfg, e.1 / 4096 ≠ v) ∧
       (∀ e ∈ t.host.msix, e.1 / 2048 ≠ v) ∧ (∀ i ∈ t.host.pba, i / 2048 ≠ v) ∧ t.host.tlb = s.host.tlb ∧ t.host.reads = s.host.reads))) ∧
  (s.running = false → exec .vfEnableClear s = .next s) ∧
  (s.running = true → After .vfEnableClear s fun t => t.host = { s.host with vfEn := false } ∧ t = { s with regs := t.regs, host := t.host } ∧
    ∀ v, 1 ≤ v → v < 64 → t.genOf v = if s.host.vfEn then nextGen (s.genOf v) else s.genOf v) ∧
  (let ready := s.boot.phase = .ready ∧ s.boot.stopped = false
   let safe := graphs ∧ ∀ e, s.coh.rehome = some e → 0x300000 ≤ e.1 ∧ e.1 < 0x400000
   let fresh := fun (t : State) =>
    t.on F.FE_DEV_RESET_BUSY = true ∧ t.get F.FE_DEV_RESET_COUNT = min (s.get F.FE_DEV_RESET_COUNT + 1) 65535 ∧
    t.on F.BT_STAT_READY = false ∧ t.boot.phase = .running 9 ∧ t.boot.rerun = true ∧ t.fe.cmds = [] ∧ t.fe.graphs = [] ∧ t.cores = [] ∧
    t.sluices = [] ∧ t.fab.reads = [] ∧ t.fab.conns = [] ∧ t.get F.GF_CHIPID_INST = 0 ∧ (∀ j, j < 36 → t.get (F.GF_PORT_STAT_STATE j) = 0) ∧
    (∀ c, c < 1024 → t.ctxState c = 0 ∧ (s.ctxState c ≠ 0 → t.get (F.PT_CTX_STAT_CAUSE c) = 8 ∧ t.on (F.PT_CTX_CTL_LIVE c) = false)) ∧
    (∀ q, q < 4096 → t.qState q = 0 ∧ t.heldOf q = [] ∧ t.get (F.FE_Q_SEQ_NEXT q) = s.get (F.FE_Q_SEQ_NEXT q) ∧
      t.get (F.FE_Q_STAT_EPOCH q) = s.get (F.FE_Q_STAT_EPOCH q)) ∧
    (∀ b, b < 4096 → t.on (F.FE_BERTH_OWN_EN b) = false) ∧ (∀ v, v < 64 → t.genOf v = nextGen (s.genOf v)) ∧
    (∀ i, i < 1024 → t.raw (A.PT_HWIN i) = s.raw (A.PT_HWIN i))
   let starts := fun (c : Instr) => After c s fun t => fresh t ∧ t.host.cfg = s.host.cfg ∧ t.host.msix = s.host.msix
   (s.barOk = true → ready → safe → starts .wholeDeviceReset) ∧ (ready → safe → starts .cpWatchdogExpiry) ∧
   (∀ q, q < 4096 → s.qState q = 3 → ready → safe → starts (.guiltyResetBoundMissed q)) ∧
   (∀ q, s.qState q ≠ 3 → exec (.guiltyResetBoundMissed q) s = .next s) ∧
   (¬ready → exec .wholeDeviceReset s = .next s ∧ exec .pfFlr s = .next s) ∧
   (s.boot.stopped = true ∨ (s.boot.phase ≠ .ready ∧ ∀ n, 4 ≤ n → s.boot.phase ≠ .running n) → exec .cpWatchdogExpiry s = .next s) ∧
   (∀ n, s.boot.stopped = false → s.boot.phase = .running n → 4 ≤ n →
     let out := n < 9 ∨ (n = 9 ∧ s.boot.leadFailed = true)
     (out → exec .cpWatchdogExpiry s = .next (s.phaseTo (.unready n 1))) ∧
     (¬out → safe → starts .cpWatchdogExpiry ∧ After .cpWatchdogExpiry s fun t => t.boot.leadFailed = true)) ∧
   (ready → safe → s.host.vfEn = false → After .pfFlr s fun t => fresh t ∧ t.host.vfEn = false ∧ (∀ e ∈ t.host.cfg, e.1 / 4096 ≠ 0) ∧
     (∀ e ∈ s.host.cfg, e.1 / 4096 ≠ 0 → e ∈ t.host.cfg) ∧ ∀ e ∈ t.host.msix, e.1 / 2048 ≠ 0) ∧
   (ready → After .pfFlr s fun t => t.host.vfEn = false ∧ t.boot.phase = .running 9)) ∧
  (¬(s.boot.rerun = true ∧ s.boot.phase = .ready) → exec .wholeDeviceResetComplete s = .next s) ∧
  (s.boot.rerun = true → s.boot.phase = .ready → After .wholeDeviceResetComplete s fun t => t.on F.FE_DEV_RESET_BUSY = false ∧
    t.boot = { s.boot with rerun := false } ∧ t.mem = s.mem ∧ t.fe = s.fe)

/-- R409 to R412: migration and the dirty log. -/
def Obligations.MigrationAndTheDirtyLog : Prop :=
  ∀ (s : State),
  let onlyRegs := fun (t : State) => t = { s with regs := t.regs }
  (∀ v, v < 64 →
    let ops : List (Nat × Instr) := [(1, .migrationFreeze v), (2, .migrationSave v), (3, .migrationRestore v), (4, .migrationThaw v)]
    let s' := fun (op : Nat) => (s.set F.PT_MIG_CTL_VF v).set F.PT_MIG_CTL_OP op
    let ends := fun (c : Instr) (n : Nat) => After c s fun t => onlyRegs t ∧ t.get F.PT_MIG_CTL_STATUS = n ∧ t.on F.PT_MIG_CTL_BUSY = false
    let p := s.migPart v
    let go := s.barOk = true ∧ s.on F.PT_MIG_CTL_BUSY = false ∧ s.soleOwner v = true
    (∀ e ∈ ops, (s.barOk = false → exec e.2 s = .next s) ∧
      (s.barOk = true → s.on F.PT_MIG_CTL_BUSY = true → After e.2 s fun t => onlyRegs t ∧ t.get F.PT_MIG_CTL_STATUS = 5 ∧
        t.on F.PT_MIG_CTL_BUSY = true ∧ t.get F.PT_MIG_CTL_VF = v ∧ t.get F.PT_MIG_CTL_OP = e.1) ∧
      (s.barOk = true → s.on F.PT_MIG_CTL_BUSY = false → s.soleOwner v = false → ends e.2 1)) ∧
    (go → v ∈ s.fe.frozen → ends (.migrationFreeze v) 2) ∧
    (go → v ∉ s.fe.frozen → After (.migrationFreeze v) s fun t => v ∈ t.fe.frozen ∧ t.on F.PT_MIG_CTL_BUSY = true ∧ t.mem = s.mem ∧
      t.fe.cmds = s.fe.cmds ∧ ∀ c ∈ s.partCtxs p,
        (s.ctxState c = 1 → t.ctxState c = 5) ∧
        (s.ctxState c = 2 → s.excIn c = false → (t.ctx c).freeze = true ∧ t.ctxState c = if s.npRunning c then 2 else 3) ∧
        (s.ctxState c = 2 → s.excIn c = true → t.ctxState c = 2) ∧
        (s.ctxState c = 3 ∨ s.ctxState c = 4 → (t.ctx c).freeze = true ∧ t.ctxState c = s.ctxState c) ∧
        (s.ctxState c = 6 → t.ctxState c = 6)) ∧
    (let done := v ∈ s.fe.frozen ∧ v ∉ s.fe.stopped ∧ (∀ c ∈ s.partCtxs p, s.ctxState c ∉ [2, 3, 4, 6]) ∧
       ∀ c ∈ s.fe.cmds, s.qPart c.queue = p → c.ended = false ∧ s.overAs c = none ∧ (c.started = true → c.op ≠ 0x13 ∧ c.op ≠ 0x17)
     (¬done → exec (.migrationFreezeComplete v) s = .next s) ∧
     (done → After (.migrationFreezeComplete v) s fun t => v ∈ t.fe.stopped ∧ t.fe.frozen = s.fe.frozen ∧
       t.get F.PT_MIG_CTL_STATUS = 0 ∧ t.on F.PT_MIG_CTL_BUSY = false)) ∧
    (go → v ∉ s.fe.stopped → ends (.migrationSave v) 2 ∧ ends (.migrationThaw v) 2) ∧
    (go → v ∈ s.fe.stopped →
      (let l := migRecord ((s' 2).migRec v)
       (localTop < s.migBuf + l.length → ends (.migrationSave v) 4) ∧
       (s.migBuf + l.length ≤ localTop → After (.migrationSave v) s fun t => t.mem = ((s' 2).poke s.migBuf l).mem ∧
         t.get F.PT_MIG_LEN_LEN = l.length % 2 ^ 32 ∧ t.get F.PT_MIG_CTL_STATUS = 0 ∧ t.on F.PT_MIG_CTL_BUSY = false)) ∧
      After (.migrationThaw v) s fun t => v ∉ t.fe.frozen ∧ v ∉ t.fe.stopped ∧ t.get F.PT_MIG_CTL_STATUS = 0 ∧
        t.on F.PT_MIG_CTL_BUSY = false ∧ ∀ c, c < 1024 → s.get (F.PT_CTX_CTL_FUNC c) = v → s.ctxState c = 5 → t.ctxState c ≠ 5 ∧ t.ctxState c ≠ 0) ∧
    (go →
      (localTop < s.migBuf + 64 → ends (.migrationRestore v) 4) ∧
      (s.migBuf + 64 ≤ localTop → (s' 3).migRead = none → ends (.migrationRestore v) 3) ∧
      ∀ r, s.migBuf + 64 ≤ localTop → (s' 3).migRead = some r →
        ((s' 3).migFits v r = false → ends (.migrationRestore v) 2) ∧
        ((s' 3).migFits v r = true → After (.migrationRestore v) s fun t => v ∈ t.fe.frozen ∧ v ∈ t.fe.stopped ∧ t.genOf v = r.gen % 65536 ∧
          t.fe.cmds = s.fe.cmds ++ r.cmds.map (fun c => c.moved s.fe.nextCmd p) ∧ t.fe.nextCmd = s.fe.nextCmd + r.next ∧
          t.get F.PT_MIG_CTL_STATUS = 0 ∧ t.on F.PT_MIG_CTL_BUSY = false))) ∧
  (∀ r, let l := migRecord r
    bytesAt l 0 2 = 1 ∧ bytesAt l 8 8 = l.length % 2 ^ 64 ∧ bytesAt l 16 4 = crc32c (l.drop 64) % 2 ^ 32 ∧ 64 ≤ l.length) ∧
  (∀ w : BitVec 64, (s.barOk = false → exec (.dirtyLogSync w) s = .next s) ∧
    (s.barOk = true → After (.dirtyLogSync w) s fun t => t = { s with regs := t.regs, host := t.host } ∧
      (w.getLsbD 2 = false → t.host = s.host) ∧ t.on F.PT_DIRTY_CTL_EN = w.getLsbD 0 ∧ t.on F.PT_DIRTY_CTL_SEL = w.getLsbD 1 ∧
      t.on F.PT_DIRTY_CTL_DONE = (s.on F.PT_DIRTY_CTL_DONE && !w.getLsbD 2))) ∧
  (s.on F.PT_DIRTY_CTL_DONE = true ∨ s.running = false ∨ s.dirtySynced = false → exec .dirtyLogSyncDone s = .next s) ∧
  (s.on F.PT_DIRTY_CTL_DONE = false → s.running = true → s.dirtySynced = true → After .dirtyLogSyncDone s fun t => onlyRegs t ∧ t.on F.PT_DIRTY_CTL_DONE = true)

/-- R417 to R422, R445, R450, R451: the ports and links of the fabric. -/
def Obligations.PortsAndFlits : Prop :=
  ∀ (s : State),
  let onlyRegs := fun (t : State) => t = { s with regs := t.regs }
  (∀ seq ty ack rseq cred slots, seq < 4096 → ty < 16 → ack < 4096 → rseq < 4096 → (∀ i, List.getD cred i 0 < 256) → slots.length ≤ 240 →
    let f := flitBytes seq ty ack cred rseq slots
    flitGood f = true ∧ flitSeq f = seq ∧ flitType f = ty ∧ flitAck f = ack ∧ flitRseq f = rseq ∧ (∀ i < 4, flitCred f i = List.getD cred i 0) ∧
    flitBad f = decide (3 < ty) ∧ (f.drop 16).take slots.length = slots) ∧
  (∀ (w : BitVec 64) (conn : Bool), s.barOk = true → let v := w.toNat
    let down := ∀ j, j < 36 → s.portState j = 0
    (¬down → exec (.fabricIdWrite conn w) s = .next (s.set F.GF_ERR_BUSY 1)) ∧
    (down → After (.fabricIdWrite false w) s fun t => onlyRegs t ∧ t.chip = bits v 15 0 ∧ t.inst = bits v 31 16) ∧
    (down → After (.fabricIdWrite true w) s fun t => onlyRegs t ∧ t.get F.GF_CONNBASE_BASE = bits v 56 25)) ∧
  (∀ p (w : BitVec 64), s.barOk = true → p < 16 → let g := bits w.toNat 6 0
    let sum := ((List.range 16).map fun q => if q = p then g else s.get (F.GF_REG_GUAR q)).sum
    (60 < g → exec (.fabricRegWrite p w) s = .next (s.set F.GF_ERR_RANGE 1)) ∧
    (g ≤ 60 → 60 < sum → exec (.fabricRegWrite p w) s = .next (s.set F.GF_ERR_SUM 1)) ∧
    (sum ≤ 60 → After (.fabricRegWrite p w) s fun t => onlyRegs t ∧ t.get (F.GF_REG_GUAR p) = g ∧ t.get (F.GF_REG_CAP p) = bits w.toNat 14 8)) ∧
  (∀ j pmd lanes ok, 36 ≤ j → ∀ c ∈ ([.portEnable j pmd, .portDisable j pmd, .portTrained j, .trainingAttemptFailed j lanes ok, .portRetrained j,
    .recoveryTimeout j, .lossOfFecAlignment j, .partnerRetrainingRequest j, .fabricWindowBoundary j] : List Instr), exec c s = .next s) ∧
  (∀ j, j < 36 →
    let st := s.portState j
    let lanes := fun (t : State) => t.get (F.GF_PORT_STAT_LANES j)
    let new := { Port.idle with bad := (s.port j).bad, inbox := (s.port j).inbox }
    let parts := ∀ p ∈ (s.port j).txq, p.spart < 16
    let width := laneWidth ((s.laneServed j).port j).bad
    (∀ pmd, s.barOk = true →
      (st ≠ 0 → After (.portEnable j pmd) s fun t => onlyRegs t ∧ t.portState j = st) ∧
      (st = 0 → let may := s.inst ≠ 0 ∧ s.get F.GF_CONNBASE_BASE * 2 ^ 25 + 2 ^ 25 ≤ localTop
        (¬may → After (.portEnable j pmd) s fun t => onlyRegs t ∧ t.portState j = 0 ∧ t.on F.GF_ERR_NOSTART = true) ∧
        (may → After (.portEnable j pmd) s fun t => t.portState j = 1 ∧ t.port j = new ∧ t.on (F.GF_PORT_CTL_EN j) = true ∧
          t.get (F.GF_PORT_CTL_PMD j) = pmd % 2)) ∧
      After (.portDisable j pmd) s fun t => t.portState j = 0 ∧ t.on (F.GF_PORT_CTL_EN j) = false ∧ t.get (F.GF_PORT_CTL_PMD j) = pmd % 2 ∧
        (st ≠ 0 → t.port j = new ∧ lanes t = 0)) ∧
    (let may := st = 1 ∧ (s.port j).gotInit = true ∧ width ≠ 0
     (¬may → exec (.portTrained j) s = .next s) ∧
     (may → parts → After (.portTrained j) s fun t => t.portState j = 2 ∧ lanes t = width ∧ (t.port j).gotInit = true)) ∧
    (laneSpared (s.port j).bad = none ∨ s.spareLane j = none → s.laneServed j = s) ∧
    (∀ l ok, (st ≠ 1 → st ≠ 3 → exec (.trainingAttemptFailed j l ok) s = .next s) ∧
      (st = 1 ∨ st = 3 → let bad := (l.filter (· < 4)).foldl setIns (s.port j).bad
        let after := fun (P : State → Prop) => After (.trainingAttemptFailed j l ok) s P
        let left := match laneSpared bad, s.spareLane j with
          | some i, some _ => if ok then bad.filter (· ≠ i) else bad
          | _, _ => bad
        let more := ((s.setPort j { s.port j with bad := bad }).laneOutcome j ok).spareLeftFor j
        (laneWidth left = 0 → more = false → after fun t => t.portState j = 4 ∧ lanes t = 0 ∧ (t.port j).replay = [] ∧ (t.port j).txq = []) ∧
        (laneWidth left ≠ 0 ∨ more = true → after fun t => t.portState j = st ∧ (t.port j).bad = left) ∧
        (∀ i k, laneSpared bad = some i → s.spareLane j = some k → ok = true → after fun t =>
          t.on (F.GF_SPARE_USED k) = true ∧ t.get (F.GF_SPARE_PORT k) = j % 18 ∧ t.get (F.GF_PORT_STAT_SPARE j) = k % 2 + 1) ∧
        (∀ i k, laneSpared bad = some i → s.spareLane j = some k → ok = false → after fun t => t.on (F.GF_SPARE_FAILED k) = true))) ∧
    (¬(st = 3 ∧ width ≠ 0) → exec (.portRetrained j) s = .next s) ∧
    (st = 3 → width ≠ 0 → parts → After (.portRetrained j) s fun t => t.portState j = 2 ∧ lanes t = width ∧
      (s.port j).replay <+: (t.port j).replay ∧ s.out ++ (s.port j).replay.map (fun e => Emit.flit j e.2) <+: t.out) ∧
    (st ≠ 3 → exec (.recoveryTimeout j) s = .next s) ∧
    (st = 3 → After (.recoveryTimeout j) s fun t => t.portState j = 1 ∧ t.port j = new ∧ lanes t = 0) ∧
    (∀ c ∈ ([.lossOfFecAlignment j, .partnerRetrainingRequest j] : List Instr), (st ≠ 2 → exec c s = .next s) ∧
      (st = 2 → After c s fun t => t.portState j = 3 ∧ t.port j = s.port j)) ∧
    (parts → After (.fabricWindowBoundary j) s fun t => t.portState j = st ∧ ((s.port j).txq = [] → t.port j = { s.port j with charge := [] })) ∧
    ∀ (f : List Byte) (fec : Nat) (ls : List Nat),
      let seen := if fec = 1 then s.each (ls.filter (· < 4)) fun s i => s.wear 6 (s.lanePhys j i) 1 else s
      let good := flitGood f = true ∧ flitBad f = false
      let taken := { s.port j with
        replay := (s.port j).replay.filter fun e => !decide ((flitAck f + 4096 - e.1) % 4096 < 2048)
        cred := (s.port j).cred.mapIdx fun i c => c + flitCred f i }
      let asks := fun (c : Instr) (p : Port) => After c s fun t => (t.port j).asked = p.asked + 1 ∧ (t.port j).exp = p.exp ∧
        t.portState j = if p.asked + 1 = 8 then 3 else 2
      (st ≠ 2 → exec (.dataFlit j fec ls f) s = .next s ∧ exec (.idleFlit j f) s = .next s ∧ exec (.retryRequest j f) s = .next s) ∧
      (st ≠ 1 → exec (.creditInitialisation j f) s = .next s) ∧
      (st = 1 → ¬good ∨ flitType f ≠ 3 → flitGood f = false ∨ flitBad f = false → exec (.creditInitialisation j f) s = .next s) ∧
      (∀ c ∈ ([.idleFlit j f, .retryRequest j f, .creditInitialisation j f] : List Instr), st = (if c = .creditInitialisation j f then 1 else 2) →
        flitGood f = true → flitBad f = true → After c s fun t => onlyRegs t ∧ t.portState j = st ∧
          t.get F.GF_RXDROP_COUNT = min (s.get F.GF_RXDROP_COUNT + 1) (2 ^ 48 - 1)) ∧
      (st = 2 → flitGood f = false → asks (.idleFlit j f) (s.port j) ∧ asks (.retryRequest j f) (s.port j)) ∧
      (st = 1 → good → flitType f = 3 → After (.creditInitialisation j f) s fun t => t = { s with fab := t.fab } ∧
        t.port j = { s.port j with cred := (List.range 4).map fun i => 16 * flitCred f i, gotInit := true }) ∧
      (st = 2 → fec = 2 ∨ flitGood f = false → asks (.dataFlit j fec ls f) (s.port j)) ∧
      (st = 2 → fec ≠ 2 → flitGood f = true → flitBad f = true → After (.dataFlit j fec ls f) s fun t => t = { seen with regs := t.regs } ∧ t.portState j = 2 ∧
        t.get F.GF_RXDROP_COUNT = min (s.get F.GF_RXDROP_COUNT + 1) (2 ^ 48 - 1)) ∧
      (st = 2 → fec ≠ 2 → good → flitType f = 0 → parts →
        (flitSeq f = (s.port j).exp → After (.dataFlit j fec ls f) s fun t => (t.port j).exp = ((s.port j).exp + 1) % 4096 ∧ (t.port j).asked = 0 ∧
          t.portState j = 2 ∧ ∃ b cr, t.out.getLast? = some (.flit j b) ∧ b = flitBytes (t.port j).fseq 1 (t.port j).ack cr 0 []) ∧
        (flitSeq f ≠ (s.port j).exp →
          ((flitSeq f + 4096 - (s.port j).exp) % 4096 < 2048 → (s.port j).asked = 0 → asks (.dataFlit j fec ls f) (s.port j)) ∧
          (¬((flitSeq f + 4096 - (s.port j).exp) % 4096 < 2048 ∧ (s.port j).asked = 0) → After (.dataFlit j fec ls f) s fun t =>
            t = { seen with regs := t.regs } ∧ t.portState j = 2))) ∧
      (st = 2 → good → flitType f = 1 → (s.port j).txq = [] → After (.idleFlit j f) s fun t =>
        let base := s.get F.GF_CONNBASE_BASE * 2 ^ 25
        t = { s with fab := t.fab, mem := t.mem, free := t.free } ∧ t.port j = taken ∧ (localTop < base + 2 ^ 25 → t.mem = s.mem) ∧
        (∀ a, a < base ∨ base + 2 ^ 25 ≤ a → tabGet 0 t.mem a = tabGet 0 s.mem a)) ∧
      (st = 2 → good → (flitType f ≠ 1 → exec (.idleFlit j f) s = .next s) ∧ (flitType f ≠ 2 → exec (.retryRequest j f) s = .next s)) ∧
      (st = 2 → good → flitType f = 2 → (s.port j).txq = [] → After (.retryRequest j f) s fun t => t.port j = taken ∧
        t.get (F.GF_PORT_STAT_RETRY j) = min (s.get (F.GF_PORT_STAT_RETRY j) + 1) (2 ^ 32 - 1) ∧ t.portState j = 2 ∧
        t.out = s.out ++ (taken.replay.filter fun e => decide ((e.1 + 4096 - flitRseq f) % 4096 < 2048)).map fun e => .flit j e.2))

/-- R426 to R448: the reliable transport of the fabric. -/
def Obligations.FabricRequestsAndAnswers : Prop :=
  ∀ (s : State) (j : Nat),
  let first := fun (ty : Nat) => (s.port j).inbox.find? fun e => e.1.ty == ty
  let rest := fun (ty : Nat) => s.setPort j { s.port j with inbox := dropFirst (fun x => x.1.ty == ty) (s.port j).inbox }
  (∀ l, first 1 = none → exec (.rd j l) s = .next s) ∧ (∀ l, first 4 = none → exec (.rdr j l) s = .next s) ∧
  (first 5 = none → exec (.ack j) s = .next s) ∧ (first 6 = none → exec (.nak j) s = .next s) ∧
  (∀ l, (first 2 = none → exec (.wr j l) s = .next s.rconnsRun) ∧ (first 3 = none → exec (.sig j l) s = .next s.rconnsRun)) ∧
  ((∀ c ∈ s.fab.rconns, c.sigs = [] ∧ c.got = []) → s.rconnsRun = s) ∧
  (∀ (u : State) (p : Packet) (w : Bool), u.fabCheck p w = 0 ↔ p.malformed = false ∧ p.off < winTop ∧
    u.on (if w then F.GF_EXPORT_W (p.off / 2 ^ 30) else F.GF_EXPORT_R (p.off / 2 ^ 30)) = true ∧ u.get (F.GF_EXPORT_DOMAIN (p.off / 2 ^ 30)) = p.dom) ∧
  (∀ p full, first 1 = some (p, full) → let u := ((rest 1).adopt p.src p.sinst).1
    let answers := fun (link : Option Nat) (v : State) (code : Nat) (data : List Byte) => ∃ q, exec (.rd j link) s = .next (s.unlessStalled (v.txTo q p.off)) ∧ q.ty = 4 ∧ q.gcls = 3 ∧
      q.dst = p.src ∧ q.src = v.chip ∧ q.tag = p.tag ∧ q.cgen = p.cgen ∧ q.status = code ∧ q.dinst = p.sinst ∧ (code = 0 → q.data = data)
    let other := p.dinst ≠ 0 ∧ p.dinst ≠ u.inst
    let r := u.readAs (portReader j) 7 false p.off (blockSize p.sz)
    (∀ l, other → answers l u 8 []) ∧ (∀ l, ¬other → u.fabCheck p false ≠ 0 → answers l u (u.fabCheck p false) []) ∧
    (¬other → u.fabCheck p false = 0 → r.2.2 = true → answers none r.1 5 []) ∧
    (∀ w, ¬other → u.fabCheck p false = 0 → wireReal w = true → answers (some w) (r.1.badCodeword w) 5 []) ∧
    (¬other → u.fabCheck p false = 0 → r.2.2 = false → answers none (r.1.count (F.GF_RXDATA_COUNT (u.chunkPart p.off)) (blockSize p.sz)) 0 r.2.1)) ∧
  (let kinds : List (Nat × (Option (Nat × Nat) → Instr)) := [(2, .wr j), (3, .sig j)]
   ∀ e ∈ kinds, ∀ p full link, first e.1 = some (p, full) → let u := ((rest e.1).adopt p.src p.sinst).1
    let other := (p.dinst ≠ 0 ∧ p.dinst ≠ u.inst) ∨ (p.opn = false ∧ (u.rconn p.src).map (·.inst) ≠ some p.sinst)
    let v := if p.opn then u.setRconn ⟨p.src, (p.psn + 2 ^ 24 - 1) % 2 ^ 24, [], p.sinst, []⟩ else u
    (other → exec (e.2 link) s = .next (u.sendNak p.src p.psn 8)) ∧
    ∀ c, ¬other → v.rconn p.src = some c →
      let d := (p.psn + 2 ^ 24 - c.w) % 2 ^ 24
      let had := d = 0 ∨ 2 ^ 23 ≤ d ∨ p.psn ∈ c.got ∨ ∃ q ∈ c.sigs, q.1.psn = p.psn
      (had → exec (e.2 link) s = .next (v.sendAck p.src c.w)) ∧
      (¬had → 1024 < d → exec (e.2 link) s = .next (v.count F.GF_RXDROP_COUNT 1)) ∧
      (¬had → d ≤ 1024 → full = true → exec (e.2 link) s = .next (v.sendNak p.src p.psn 7)) ∧
      (¬had → d ≤ 1024 → full = false → v.fabCheck p true ≠ 0 →
        exec (e.2 link) s = .next ((v.sendNak p.src p.psn (v.fabCheck p true)).received p.src p.psn)) ∧
      (¬had → d ≤ 1024 → full = false → v.fabCheck p true = 0 →
        exec (e.2 link) s = .next ((v.setRconn { c with sigs := c.sigs ++ [(p, j, link)] }).rconnRun p.src) ∧
        (c.got = [] → c.sigs = [] → let kept := v.setRconn { c with sigs := [(p, j, link)] }
          (p.psn = (c.w + 1) % 2 ^ 24 → kept.wrReady p = true →
            exec (e.2 link) s = .next (((kept.wrPerform p link).setRconn { c with w := p.psn }).sendAck p.src p.psn)) ∧
          (p.psn ≠ (c.w + 1) % 2 ^ 24 ∨ kept.wrReady p = false → exec (e.2 link) s = .next kept)))) ∧
  (∀ p full, first 4 = some (p, full) → let a := (rest 4).adopt p.src p.sinst
    let stale := ∀ l, exec (.rdr j l) s = .next (a.1.count (F.GF_STALE_COUNT p.spart) 1)
    (∀ l, p.malformed = true → exec (.rdr j l) s = .next ((rest 4).count F.GF_RXDROP_COUNT 1)) ∧
    (p.malformed = false → (∀ r ∈ a.1.fab.reads, ¬(r.chip = p.src ∧ r.tag = p.tag)) → stale) ∧
    ∀ r, p.malformed = false → a.1.fab.reads.find? (fun r => r.chip == p.src && r.tag == p.tag) = some r →
      (r.org.cgen ≠ p.cgen ∨ a.1.cgenOf r.org.ctx ≠ p.cgen → stale) ∧
      (r.org.cgen = p.cgen → a.1.cgenOf r.org.ctx = p.cgen → p.status = 0 → r.org.agent = 0 →
        let fa := 2 ^ 56 + r.chip * 2 ^ 40 + r.off
        let k := a.1.core r.org.unit
        (∃ x ∈ k.sent, x.id = r.org.serial) → ∀ l, (∀ w, l = some w → wireReal w = true) → After (.rdr j l) s fun t =>
          (t.core r.org.unit).resps = k.resps ++ [⟨r.group, r.pc, k.sentBy r.org.serial, fa, p.data, l.isSome, 0⟩] ∧ t.mem = s.mem ∧
          t.fab.reads = dropFirst (fun x => x.chip == r.chip && x.tag == r.tag) a.1.fab.reads)) ∧
  (∀ p full, first 5 = some (p, full) → let a := (rest 5).adopt p.src p.sinst
    (p.malformed = true → exec (.ack j) s = .next ((rest 5).count F.GF_RXDROP_COUNT 1)) ∧
    (p.malformed = false → a.2 = true → exec (.ack j) s = .next a.1) ∧
    (p.malformed = false → a.2 = false → (a.1.conn p.src).queue = [] → After (.ack j) s fun t => t.mem = s.mem ∧
      (t.conn p.src).out = (a.1.conn p.src).out.filter fun w => decide (2 ^ 23 ≤ (p.psn + 2 ^ 24 - w.psn) % 2 ^ 24))) ∧
  (∀ p full, first 6 = some (p, full) → let a := (rest 6).adopt p.src p.sinst
    let c := a.1.conn p.src
    (p.malformed = true → exec (.nak j) s = .next ((rest 6).count F.GF_RXDROP_COUNT 1)) ∧
    (p.malformed = false → a.2 = true ∨ p.status = 7 ∨ (∀ w ∈ c.out, w.psn ≠ p.psn) → exec (.nak j) s = .next a.1) ∧
    ∀ w, p.malformed = false → a.2 = false → p.status ≠ 7 → p.status < 256 → c.out.find? (fun w => w.psn == p.psn) = some w → c.queue = [] →
      w.org.part < 16 → After (.nak j) s fun t => (t.conn p.src).out = dropFirst (fun x => x.psn == p.psn) c.out ∧
        t.get (F.GF_PERR_LAST w.org.part) = p.status ∧ t.get (F.GF_PERR_LASTCHIP w.org.part) = p.src % 65536 ∧ t.mem = s.mem) ∧
  (∀ chip n, let c := s.conn chip
    let held := fun (r : RdOut) => s.fab.reads.find? (fun r => r.chip == chip && r.tag == n) = some r
    ((∀ w ∈ c.out, w.psn ≠ n) → exec (.retransmitTimeout true chip n) s = .next s ∧ exec (.fabricGiveUp true chip n) s = .next s) ∧
    ((∀ r ∈ s.fab.reads, ¬(r.chip = chip ∧ r.tag = n)) → exec (.retransmitTimeout false chip n) s = .next s ∧
      After (.fabricGiveUp false chip n) s fun t => t.fab.burned = dropFirst (· == chip * 65536 + n) s.fab.burned ∧ t.fab.reads = s.fab.reads) ∧
    (∀ w, c.out.find? (fun w => w.psn == n) = some w →
      (exec (.retransmitTimeout true chip n) s = .next ((s.txTo (s.wrPkt chip w) w.off).count (F.GF_RETX_COUNT w.org.part) 1) ∧
        (s.wrPkt chip w).psn = n ∧ (s.wrPkt chip w).data = w.data ∧ (s.wrPkt chip w).off = w.off ∧ (s.wrPkt chip w).opn = w.opn) ∧
      (c.queue = [] → w.org.part < 16 → After (.fabricGiveUp true chip n) s fun t => (t.conn chip).out = dropFirst (fun x => x.psn == n) c.out ∧
        t.get (F.GF_PERR_LAST w.org.part) = 2 ∧ t.mem = s.mem ∧
        ∀ i, i < 36 → ∀ q ∈ (t.port i).txq, ¬((q.ty = 2 ∨ q.ty = 3) ∧ q.dst = chip ∧ q.psn = n))) ∧
    (∀ r, held r →
      (After (.retransmitTimeout false chip n) s fun t => t.fab.reads =
        updFirst (fun x => x.chip == chip && x.tag == n) (fun x => { x with again := true }) s.fab.reads ∧ t.mem = s.mem ∧ t.cores = s.cores) ∧
      (r.org.part < 16 → After (.fabricGiveUp false chip n) s fun t => t.get (F.GF_PERR_LAST r.org.part) = 2 ∧ t.mem = s.mem ∧
        t.fab.reads = dropFirst (fun x => x.chip == chip && x.tag == n) s.fab.reads))) ∧
  ∀ chip,
    (s.rconn chip = none → exec (.gapCloseTimeout chip) s = .next s) ∧
    ∀ c, s.rconn chip = some c → (c.nextGap = none ∨ c.nextGap = some 1 → exec (.gapCloseTimeout chip) s = .next s) ∧
      ∀ d, c.nextGap = some d → 1 < d → d ≤ 1024 → c.w < 2 ^ 24 → (∀ n ∈ c.got ++ c.sigs.map (·.1.psn), n < 2 ^ 24) →
        After (.gapCloseTimeout chip) s fun t => ∃ c', t.rconn chip = some c' ∧ (∀ e ∈ c'.sigs, e.1.ty ≠ 3) ∧
          d ≤ (c'.w + 2 ^ 24 - c.w) % 2 ^ 24 + 1 ∧
          ((∀ e ∈ c.sigs, e.1.ty = 3) → t.mem = s.mem ∧ c'.sigs = [] ∧ d ≤ (c'.w + 2 ^ 24 - c.w) % 2 ^ 24)

/-- R540 to R546: the debugger. -/
def Obligations.DebuggerOperations : Prop :=
  ∀ (s : State),
  let onlyRegs := fun (t : State) => t = { s with regs := t.regs }
  (s.dbgLevel = if s.boot.cfgDone = false then 0 else if s.on F.BT_STAT_LOCK then (if s.get F.BT_POLICY_DBG = 3 then 0 else s.get F.BT_POLICY_DBG) else 2) ∧
  (∀ ctx hold, ctx < 1024 →
    let ops : List (Nat × Instr) := [(1, .attach ctx hold), (2, .detach ctx hold), (3, .halt ctx hold), (4, .resume ctx hold), (5, .step ctx hold)]
    let put := fun (t : State) (op : Nat) => t.get F.TD_DBG_CTL_CTX = ctx ∧ t.get F.TD_DBG_CTL_OP = op ∧ t.on F.TD_DBG_CTL_HOLD = hold
    let st := fun (t : State) (n : Nat) => t.get F.TD_DBG_CTL_STATUS = n
    let busy := s.on F.TD_DBG_CTL_BUSY
    let halted := s.on F.TD_DBG_STAT_HALTED
    let go := s.barOk = true ∧ busy = false ∧ s.dbgLevel ≠ 0
    (∀ e ∈ ops, (s.barOk = false → exec e.2 s = .next s) ∧
      (s.barOk = true → busy = true → After e.2 s fun t => onlyRegs t ∧ put t e.1 ∧ st t 4) ∧
      (s.barOk = true → busy = false → s.dbgLevel = 0 → After e.2 s fun t => t = { s with regs := t.regs, evr := t.evr } ∧ put t e.1 ∧ st t 1) ∧
      (go → e.1 ≠ 1 → s.dbg.target = none → After e.2 s fun t => onlyRegs t ∧ put t e.1 ∧ st t 2)) ∧
    (go → s.ctxState ctx = 0 → After (.attach ctx hold) s fun t => onlyRegs t ∧ put t 1 ∧ st t 2) ∧
    (go → s.ctxState ctx ≠ 0 → s.dbg.held = none → After (.attach ctx hold) s fun t => t.dbg.target = some ctx ∧
      t.on F.TD_DBG_STAT_ATTACHED = true ∧ (∀ i < 4, t.on (F.TD_BRK_EN i) = false) ∧ put t 1 ∧ st t 0 ∧ t.mem = s.mem ∧
      (s.dbg.target = none ∨ s.dbg.target = some ctx → t.cores = s.cores)) ∧
    (∀ c, go → s.dbg.target = some c →
      (s.dbg.held = none → After (.detach ctx hold) s fun t => t.dbg = ⟨none, none, none⟩ ∧ t.on F.TD_DBG_STAT_ATTACHED = false ∧
        t.on F.TD_DBG_STAT_HALTED = false ∧ put t 2 ∧ st t 0 ∧ t.mem = s.mem ∧
        (halted = true → s.ctxState c = 2 → ∀ k ∈ s.coresOf c, t.core k = { s.core k with stopped := (s.core k).exc.isSome })) ∧
      (halted = true → After (.halt ctx hold) s fun t => onlyRegs t ∧ put t 3 ∧ st t 0) ∧
      (halted = false → (∀ k ∈ s.coresOf c, (s.core k).sb = []) → After (.halt ctx hold) s fun t => t.on F.TD_DBG_STAT_HALTED = true ∧
        t.get F.TD_DBG_STAT_CAUSE = 0 ∧ put t 3 ∧ st t 0 ∧ t.mem = s.mem ∧ (∀ k ∈ s.coresOf c, t.core k = { s.core k with stopped := true }) ∧
        ∀ k, k ∉ s.coresOf c → t.core k = s.core k) ∧
      (halted = false → After (.resume ctx hold) s fun t => onlyRegs t ∧ put t 4 ∧ st t 0) ∧
      (halted = true → s.dbg.held = none → After (.resume ctx hold) s fun t => t.on F.TD_DBG_STAT_HALTED = false ∧ t.dbg.target = some c ∧
        t.dbg.step = none ∧ put t 4 ∧ st t 0 ∧ t.mem = s.mem ∧
        (s.ctxState c = 2 → ∀ k ∈ s.coresOf c, t.core k = { s.core k with stopped := (s.core k).exc.isSome }) ∧ (s.ctxState c ≠ 2 → t.cores = s.cores)) ∧
      (halted = false → After (.step ctx hold) s fun t => onlyRegs t ∧ put t 5 ∧ st t 3) ∧
      (let k := s.get F.TD_ACC_SEL_CORE
       let g := s.get F.TD_ACC_SEL_GROUP
       ∀ b pc, halted = true → (s.core k).blk = some b → b.ctx = c → (s.core k).lowestPc g = some pc → After (.step ctx hold) s fun t =>
         t.dbg = { s.dbg with step := some (k, g, pc) } ∧ t.on F.TD_DBG_CTL_BUSY = true ∧ put t 5 ∧ st t 0 ∧ t = { s with regs := t.regs, dbg := t.dbg } ∧
         (∃ th ∈ (s.core k).live, th / 32 = g ∧ tabFind (s.core k).wait th = none ∧ (s.core k).thPc th = pc) ∧
         ∀ th ∈ (s.core k).live, th / 32 = g → tabFind (s.core k).wait th = none → pc ≤ (s.core k).thPc th))) ∧
  (let c := s.get F.TD_ACC_SEL_CORE
   let k := s.core c
   let th := s.get F.TD_ACC_SEL_THREAD
   let i := s.get F.TD_ACC_SEL_INDEX
   let sp := s.get F.TD_ACC_SEL_SPACE
   let may := s.on F.TD_DBG_STAT_HALTED = true ∧ ∃ b, k.blk = some b ∧ s.dbg.target = some b.ctx
   let zeros := Emit.cplData (toBytes 8 0) false
   ∀ mod, (s.barOk = false → exec (.debugAccessRead mod) s = .next s ∧ ∀ v, exec (.debugAccessWrite v) s = .next s) ∧
   (∀ q, s.exitQuay (mod / 4 % 2) = some q → s.barOk = true → s.dbgLevel = 0 → After (.debugAccessRead mod) s fun t =>
     t = { s with evr := t.evr, regs := t.regs, out := s.out ++ [zeros q] }) ∧
   (s.barOk = true → s.dbgLevel ≠ 0 → ¬may → exec (.debugAccessRead mod) s = .next ((s.set F.TD_DBG_STAT_ACCERR 1).complete mod zeros)) ∧
   (s.barOk = true → s.dbgLevel ≠ 0 → may → ∃ v, exec (.debugAccessRead mod) s = .next (s.complete mod (.cplData (toBytes 8 v) false)) ∧
     (sp ∈ [0, 6, 7] → i < 256 → v = (k.reg th i).toNat) ∧ (sp = 1 → ∀ j < 8, bit v j = k.pred th j) ∧
     (sp = 2 → i < 64 → v = (k.ureg (th / 32) i).toNat) ∧ (sp = 3 → v = k.thPc th) ∧ (sp = 4 → v = k.flags (th / 32)) ∧
     (sp = 5 → i < k.P / 8 → ∀ j < 8, List.getD (toBytes 8 v) j 0 = tabGet 0 k.well (8 * i + j))) ∧
   ∀ v : BitVec 64, s.barOk = true →
     (s.dbgLevel < 2 → After (.debugAccessWrite v) s fun t => t = { s with evr := t.evr, regs := t.regs }) ∧
     (2 ≤ s.dbgLevel → ¬may → exec (.debugAccessWrite v) s = .next (s.set F.TD_DBG_STAT_ACCERR 1)) ∧
     (2 ≤ s.dbgLevel → may → After (.debugAccessWrite v) s fun t => t = { s with cores := t.cores } ∧ (∀ d, d ≠ c → t.core d = s.core d) ∧
       (sp ∈ [0, 6, 7] → i < 256 → (t.core c).reg th i = BitVec.ofNat 32 v.toNat) ∧ (sp = 1 → ∀ j < 8, (t.core c).pred th j = v.getLsbD j) ∧
       (sp = 3 → (t.core c).thPc th = v.toNat / 16 * 16) ∧ (sp = 4 → (t.core c).flags (th / 32) = v.toNat % 128) ∧
       (sp = 5 → i < k.P / 8 → ∀ j < 8, tabGet 0 (t.core c).well (8 * i + j) = BitVec.ofNat 8 (v.toNat / 2 ^ (8 * j))))) ∧
  ∀ die instr wr off v n, let s' : State := { s with tap := { s.tap with ir := 0x11, drive := false } }
    let zeros := Emit.tdo (chainBits die (List.replicate n false))
    let c := Instr.ijtag die instr wr off v n
    let sel := s.tapOk = true ∧ s.selected.getLsbD die = true
    let on := sel ∧ instrumentOn die instr = true
    (s.tapOk = false → exec c s = .next s) ∧
    (s.tapOk = true → s.selected.getLsbD die = false → exec c s = .next (s'.emit (.tdo (List.replicate 24 false)))) ∧
    (sel → instrumentOn die instr = false → exec c s = .next (s'.emit zeros)) ∧
    (on → s.instrumentOk instr = false → After c s fun t => t = { s' with evr := t.evr, regs := t.regs, out := s.out ++ [zeros] }) ∧
    (on → instr = 0 → After c s fun t => ∃ l, t = s'.emit (.tdo (chainBits die l))) ∧
    (on → instr = 2 → 1 ≤ s.dbgLevel → wr = true → exec c s = .next ((s'.tdWrite (0xD00000 + off % 0x10000) v).emit zeros)) ∧
    (instr = 1 ∨ instr = 2 → s.instrumentOk instr = decide (1 ≤ s.dbgLevel)) ∧ (3 ≤ instr → s.instrumentOk instr = s.testHold)

/-- R9 and the Reset columns: State.reset. -/
def Obligations.ResetValues : Prop :=
  let s := State.reset
  s.pending = [] ∧ s.cores = [] ∧ s.sluices = [] ∧ s.mem = [] ∧ s.poison = [] ∧ s.fe.cmds = [] ∧ s.fe.launches = [] ∧ s.fe.graphs = [] ∧
  s.fab.conns = [] ∧ s.fab.reads = [] ∧ s.coh.cis = [] ∧ s.coh.cc = [] ∧ s.dbg.target = none ∧ s.boot.phase = .held ∧ s.host.vfEn = false ∧
  (∀ q, q < 4096 → s.qState q = 0 ∧ s.get (F.FE_Q_STAT_EPOCH q) = 0 ∧ s.get (F.FE_Q_SEQ_NEXT q) = 0 ∧ s.get (F.FE_Q_PTR_HEAD q) = 0 ∧
    s.get (F.FE_Q_PTR_TAIL q) = 0 ∧ s.get (F.FE_Q_STAT_HELD q) = 0) ∧
  (∀ b, b < 4096 → s.on (F.FE_BERTH_OWN_EN b) = false ∧ s.get (F.FE_BERTH_OWN_COUNT b) = 0) ∧
  (∀ c, c < 1024 → s.ctxState c = 0 ∧ s.cgenOf c = 0 ∧ s.get (F.PT_CTX_CTL_SHARE c) = 1 ∧ s.on (F.PT_CTX_CTL_LIVE c) = false) ∧
  (∀ v, v < 64 → s.genOf v = 1) ∧ s.on F.PT_DIRTY_CTL_DONE = true ∧ s.on F.PT_MIG_CTL_BUSY = false ∧
  (∀ j, j < 36 → s.get (F.GF_PORT_STAT_STATE j) = 0 ∧ s.get (F.GF_PORT_STAT_LANES j) = 0) ∧ s.inst = 0 ∧
  s.get F.GF_XPORT_RTO = 8 ∧ s.get F.GF_XPORT_LIMIT = 32 ∧ s.on F.BT_STAT_LOCK = false ∧ s.on F.BT_STAT_READY = false ∧
  s.on F.FE_DEV_RESET_BUSY = false ∧ s.get F.FE_DEV_RESET_COUNT = 0 ∧ s.get F.FE_DB_DROP_COUNT = 0 ∧
  s.raw A.FE_ERR = 0 ∧ s.raw A.PT_ERR = 0 ∧ s.raw A.GF_ERR = 0 ∧ s.raw A.TD_DBG_STAT = 0
end

