-- ==== Sys2Proof/Laws/Tab.lean ====
section
/-! SUPPORT. The laws of sparse tables: a read after a write, a write leaves every other key alone, and every
operation keeps the canonical form. -/

namespace Sys2Proof

section
variable {β : Type}

theorem tabGet_lt {d : β} : ∀ {t : Tab β} {lo i : Nat}, tabSorted lo t = true → i < lo → tabGet d t i = d
  | [], _, _, _, _ => rfl
  | (k, v) :: t, lo, i, h, hi => by
    simp only [tabSorted, Bool.and_eq_true, decide_eq_true_eq] at h
    have hk : i ≠ k := by omega
    simp only [tabGet, hk, if_false]
    exact tabGet_lt h.2 (by omega)

@[simp] theorem tabGet_ins_same {d : β} {i : Nat} {x : β} : ∀ {t : Tab β}, tabGet d (tabIns t i x) i = x
  | [] => by simp [tabIns, tabGet]
  | (k, v) :: t => by
    simp only [tabIns]
    split
    · simp [tabGet]
    · split
      · simp [tabGet]
      · rename_i h _
        simp only [tabGet, h, if_false]
        exact tabGet_ins_same

@[simp] theorem tabGet_ins_ne {d : β} {i j : Nat} {x : β} (h : j ≠ i) :
    ∀ {t : Tab β}, tabGet d (tabIns t i x) j = tabGet d t j
  | [] => by simp [tabIns, tabGet, h]
  | (k, v) :: t => by
    simp only [tabIns]
    split
    · rename_i e
      subst e
      simp [tabGet, h]
    · split
      · simp [tabGet, h]
      · simp only [tabGet]
        split
        · rfl
        · exact tabGet_ins_ne h

@[simp] theorem tabGet_del_same {d : β} {i : Nat} : ∀ {t : Tab β}, tabGet d (tabDel t i) i = d
  | [] => rfl
  | (k, v) :: t => by
    simp only [tabDel]
    split
    · exact tabGet_del_same
    · rename_i hn
      simp only [tabGet, hn, if_false]
      exact tabGet_del_same

theorem tabGet_del_ne {d : β} {i j : Nat} (h : j ≠ i) : ∀ {t : Tab β}, tabGet d (tabDel t i) j = tabGet d t j
  | [] => rfl
  | (k, v) :: t => by
    simp only [tabDel]
    split
    · rename_i e
      subst e
      simp [tabGet, h, tabGet_del_ne h]
    · simp only [tabGet]
      split
      · rfl
      · exact tabGet_del_ne h

theorem tabSorted_mono : ∀ {t : Tab β} {a b : Nat}, tabSorted b t = true → a ≤ b → tabSorted a t = true
  | [], _, _, _, _ => rfl
  | (k, v) :: t, a, b, h, hab => by
    simp only [tabSorted, Bool.and_eq_true, decide_eq_true_eq] at *
    exact ⟨by omega, h.2⟩

theorem tabSorted_ins {i : Nat} {x : β} : ∀ {t : Tab β} {lo : Nat}, tabSorted lo t = true → lo ≤ i →
    tabSorted lo (tabIns t i x) = true
  | [], lo, _, h => by simp [tabIns, tabSorted, h]
  | (k, v) :: t, lo, h, hi => by
    simp only [tabSorted, Bool.and_eq_true, decide_eq_true_eq] at h
    simp only [tabIns]
    split
    · rename_i e
      subst e
      simp [tabSorted, h.2, hi]
    · split
      · rename_i _ hl
        simp only [tabSorted, Bool.and_eq_true, decide_eq_true_eq]
        exact ⟨hi, by omega, h.2⟩
      · simp only [tabSorted, Bool.and_eq_true, decide_eq_true_eq]
        exact ⟨h.1, tabSorted_ins h.2 (by omega)⟩

theorem tabSorted_del {i : Nat} : ∀ {t : Tab β} {lo : Nat}, tabSorted lo t = true →
    tabSorted lo (tabDel t i) = true
  | [], _, _ => rfl
  | (k, v) :: t, lo, h => by
    simp only [tabSorted, Bool.and_eq_true, decide_eq_true_eq] at h
    simp only [tabDel]
    split
    · exact tabSorted_mono (tabSorted_del h.2) (by omega)
    · simp only [tabSorted, Bool.and_eq_true, decide_eq_true_eq]
      exact ⟨h.1, tabSorted_del h.2⟩

variable [DecidableEq β]

theorem tabNoDefault_ins {d : Nat → β} {i : Nat} {x : β} (hx : x ≠ d i) :
    ∀ {t : Tab β}, tabNoDefault d t = true → tabNoDefault d (tabIns t i x) = true
  | [], _ => by simp [tabIns, tabNoDefault, hx]
  | (k, v) :: t, h => by
    have ih := tabNoDefault_ins (d := d) hx (t := t)
    simp only [tabNoDefault, List.all_cons, Bool.and_eq_true, decide_eq_true_eq] at h ih ⊢
    simp only [tabIns]
    split
    · simp only [List.all_cons, Bool.and_eq_true, decide_eq_true_eq]; exact ⟨hx, h.2⟩
    · split
      · simp only [List.all_cons, Bool.and_eq_true, decide_eq_true_eq]; exact ⟨hx, h.1, h.2⟩
      · simp only [List.all_cons, Bool.and_eq_true, decide_eq_true_eq]; exact ⟨h.1, ih h.2⟩

theorem tabNoDefault_del {d : Nat → β} {i : Nat} :
    ∀ {t : Tab β}, tabNoDefault d t = true → tabNoDefault d (tabDel t i) = true
  | [], _ => rfl
  | (k, v) :: t, h => by
    have ih := tabNoDefault_del (d := d) (i := i) (t := t)
    simp only [tabNoDefault, List.all_cons, Bool.and_eq_true, decide_eq_true_eq] at h ih ⊢
    simp only [tabDel]
    split
    · exact ih h.2
    · simp only [List.all_cons, Bool.and_eq_true, decide_eq_true_eq]; exact ⟨h.1, ih h.2⟩

/-- A read after a write to the same key gives the value written. -/
@[simp] theorem tabGet_set_same {d : β} {t : Tab β} {i : Nat} {x : β} : tabGet d (tabSet d t i x) i = x := by
  unfold tabSet
  split
  · rename_i e
    rw [tabGet_del_same, e]
  · exact tabGet_ins_same

/-- A write leaves every other key alone. -/
theorem tabGet_set_ne {d e : β} {t : Tab β} {i j : Nat} {x : β} (h : j ≠ i) :
    tabGet d (tabSet e t i x) j = tabGet d t j := by
  unfold tabSet
  split
  · exact tabGet_del_ne h
  · exact tabGet_ins_ne h

/-- A write keeps the canonical form. -/
theorem tabWf_set {d : Nat → β} {t : Tab β} {i : Nat} {x : β} (h : tabWf d t = true) :
    tabWf d (tabSet (d i) t i x) = true := by
  unfold tabWf at *
  simp only [Bool.and_eq_true] at h ⊢
  unfold tabSet
  split
  · exact ⟨tabSorted_del h.1, tabNoDefault_del h.2⟩
  · rename_i hx
    exact ⟨tabSorted_ins h.1 (Nat.zero_le _), tabNoDefault_ins hx h.2⟩

theorem tabWf_sorted {d : Nat → β} {t : Tab β} (h : tabWf d t = true) : tabSorted 0 t = true := by
  unfold tabWf at h
  simp only [Bool.and_eq_true] at h
  exact h.1

end

end Sys2Proof
end

