-- ==== Sys2Proof/Laws/Bits.lean ====
section
/-! SUPPORT. The laws of bit fields: a field reads what was written to it, and a write leaves every other bit alone. -/

namespace Sys2Proof

theorem testBit_bits (n hi lo i : Nat) : (bits n hi lo).testBit i = (decide (i < hi + 1 - lo) && n.testBit (lo + i)) := by
  unfold bits
  rw [Nat.testBit_mod_two_pow, Nat.testBit_div_two_pow, Nat.add_comm i lo]

theorem testBit_setBits (n hi lo x i : Nat) (h : lo ≤ hi) :
    (setBits n hi lo x).testBit i = if lo ≤ i ∧ i ≤ hi then x.testBit (i - lo) else n.testBit i := by
  have e : setBits n hi lo x = 2 ^ (hi + 1) * (n / 2 ^ (hi + 1)) + (2 ^ lo * (x % 2 ^ (hi + 1 - lo)) + n % 2 ^ lo) := by
    unfold setBits
    rw [Nat.mul_comm, Nat.mul_comm (x % _), Nat.add_assoc]
  rw [e]
  have h1 : n % 2 ^ lo < 2 ^ lo := Nat.mod_lt _ (Nat.two_pow_pos _)
  have h2 : 2 ^ lo * (x % 2 ^ (hi + 1 - lo)) + n % 2 ^ lo < 2 ^ (hi + 1) := by
    have h3 : x % 2 ^ (hi + 1 - lo) < 2 ^ (hi + 1 - lo) := Nat.mod_lt _ (Nat.two_pow_pos _)
    have h4 : 2 ^ (hi + 1) = 2 ^ lo * 2 ^ (hi + 1 - lo) := by rw [← Nat.pow_add]; congr 1; omega
    have h5 : 2 ^ lo * (x % 2 ^ (hi + 1 - lo) + 1) ≤ 2 ^ lo * 2 ^ (hi + 1 - lo) := Nat.mul_le_mul_left _ h3
    rw [Nat.mul_add, Nat.mul_one] at h5
    rw [h4]
    exact Nat.lt_of_lt_of_le (Nat.add_lt_add_left h1 _) h5
  rw [Nat.testBit_two_pow_mul_add _ h2, Nat.testBit_two_pow_mul_add _ h1]
  by_cases c1 : i < hi + 1
  · simp only [c1, if_true]
    by_cases c2 : i < lo
    · have : ¬ (lo ≤ i ∧ i ≤ hi) := by omega
      simp [c2, this, Nat.testBit_mod_two_pow]
    · have c3 : lo ≤ i ∧ i ≤ hi := by omega
      have c4 : i - lo < hi + 1 - lo := by omega
      simp [c2, c3, Nat.testBit_mod_two_pow, c4]
  · have c3 : ¬ (lo ≤ i ∧ i ≤ hi) := by omega
    simp only [c1, if_false, c3, Nat.testBit_div_two_pow]
    congr 1
    omega

/-- A field reads the value written to it, modulo its width. -/
theorem bits_setBits_same {n hi lo x : Nat} (h : lo ≤ hi) : bits (setBits n hi lo x) hi lo = x % 2 ^ (hi + 1 - lo) := by
  apply Nat.eq_of_testBit_eq
  intro i
  rw [testBit_bits, testBit_setBits _ _ _ _ _ h, Nat.testBit_mod_two_pow]
  by_cases c : i < hi + 1 - lo
  · have : lo ≤ lo + i ∧ lo + i ≤ hi := by omega
    simp [c, this]
  · simp [c]

/-- A write leaves a disjoint field alone. -/
theorem bits_setBits_disjoint {n hi lo x a b : Nat} (h : lo ≤ hi) (d : a < lo ∨ hi < b) :
    bits (setBits n hi lo x) a b = bits n a b := by
  apply Nat.eq_of_testBit_eq
  intro i
  rw [testBit_bits, testBit_bits, testBit_setBits _ _ _ _ _ h]
  by_cases c : i < a + 1 - b
  · have : ¬ (lo ≤ b + i ∧ b + i ≤ hi) := by omega
    simp [c, this]
  · simp [c]

theorem bits_lt (n hi lo : Nat) : bits n hi lo < 2 ^ (hi + 1 - lo) := Nat.mod_lt _ (Nat.two_pow_pos _)

/-- A field of a 64-bit register does not see what the number has above bit 63. -/
theorem bits_mod {n hi lo : Nat} (h : hi < 64) : bits (n % 2 ^ 64) hi lo = bits n hi lo := by
  apply Nat.eq_of_testBit_eq
  intro i
  rw [testBit_bits, testBit_bits, Nat.testBit_mod_two_pow]
  by_cases c : i < hi + 1 - lo
  · have : lo + i < 64 := by omega
    simp [this]
  · simp [c]

/-- A one-bit field written with a truth value. -/
theorem b2n_lt (b : Bool) : b2n b < 2 := by cases b <;> decide

end Sys2Proof

namespace Sys2Proof.Machine

variable {s : State}

theorem State.raw_setRaw_same {off : Nat} {v : BitVec 64} : (s.setRaw off v).raw off = v :=
  tabGet_set_same

theorem State.raw_setRaw_ne {off off' : Nat} {v : BitVec 64} (h : off' ≠ off) : (s.setRaw off v).raw off' = s.raw off' :=
  tabGet_set_ne h

/-- A field reads the value written to it, modulo its width. -/
theorem State.get_set_same {f : Fld} {n : Nat} (w : f.lo ≤ f.hi) (w' : f.hi < 64) :
    (s.set f n).get f = n % 2 ^ (f.hi + 1 - f.lo) := by
  unfold State.get State.set
  rw [raw_setRaw_same, BitVec.toNat_ofNat, bits_mod w', bits_setBits_same w]

/-- A write leaves every field of another register alone. -/
theorem State.get_set_off {f g : Fld} {n : Nat} (d : g.off ≠ f.off) : (s.set f n).get g = s.get g := by
  unfold State.get State.set
  rw [raw_setRaw_ne d]

/-- A write leaves a disjoint field of the same register alone. -/
theorem State.get_set_bits {f g : Fld} {n : Nat} (w : f.lo ≤ f.hi) (w' : g.hi < 64)
    (d : g.hi < f.lo ∨ f.hi < g.lo) : (s.set f n).get g = s.get g := by
  by_cases o : g.off = f.off
  · unfold State.get State.set
    rw [o, raw_setRaw_same, BitVec.toNat_ofNat, bits_mod w', bits_setBits_disjoint w d]
  · exact get_set_off o

theorem State.on_set_same {f : Fld} {n : Nat} (w : f.lo = f.hi) (w' : f.hi < 64) :
    (s.set f n).on f = (n % 2 == 1) := by
  unfold State.on
  rw [get_set_same (by omega) w', w]
  have : f.hi + 1 - f.hi = 1 := by omega
  rw [this] <;> simp

theorem State.on_set_off {f g : Fld} {n : Nat} (d : g.off ≠ f.off) : (s.set f n).on g = s.on g := by
  unfold State.on
  rw [get_set_off d]

theorem State.on_set_bits {f g : Fld} {n : Nat} (w : f.lo ≤ f.hi) (w' : g.hi < 64)
    (d : g.hi < f.lo ∨ f.hi < g.lo) : (s.set f n).on g = s.on g := by
  unfold State.on
  rw [get_set_bits w w' d]

/-! ### Local memory -/

theorem State.byte_setByte_same {a : Nat} {b : Byte} : (s.setByte a b).byte a = b :=
  tabGet_set_same

theorem State.byte_setByte_ne {a a' : Nat} {b : Byte} (h : a' ≠ a) : (s.setByte a b).byte a' = s.byte a' :=
  tabGet_set_ne h

/-- Storing a byte keeps the canonical form of memory. -/
theorem Memory.wf_setByte (h : Memory.wf s.mem = true) {a : Nat} {b : Byte} : Memory.wf (s.setByte a b).mem = true :=
  tabWf_set (d := fun _ => (0 : Byte)) h

/-- Bytes outside those stored read as before. -/
theorem State.byte_setBytes_ne {l : List Byte} : ∀ {s : State} {a a' : Nat}, a' < a ∨ a + l.length ≤ a' →
    (s.setBytes a l).byte a' = s.byte a' := by
  induction l with
  | nil => intro s a a' _; rfl
  | cons b bs ih =>
    intro s a a' h
    simp only [List.length_cons] at h
    rw [State.setBytes, ih (by omega), byte_setByte_ne (by omega)]

/-- Storing bytes keeps the canonical form of memory. -/
theorem Memory.wf_setBytes {l : List Byte} : ∀ {s : State} {a : Nat}, Memory.wf s.mem = true →
    Memory.wf (s.setBytes a l).mem = true := by
  induction l with
  | nil => intro s a h; exact h
  | cons b bs ih => intro s a h; exact ih (wf_setByte h)

end Sys2Proof.Machine
end

