-- ==== Sys2Proof/Laws/Canonical.lean ====
section
/-! SUPPORT. Local memory and the register file keep their canonical form under the operations that write them. -/

namespace Sys2Proof

open Machine

/-- An entry that a test keeps was there before. -/
theorem tabSorted_filter {β : Type} {f : Nat × β → Bool} : ∀ {t : Tab β} {lo : Nat}, tabSorted lo t = true →
    tabSorted lo (t.filter f) = true := by
  intro t
  induction t with
  | nil => intro lo h; rfl
  | cons e t ih =>
    intro lo h
    obtain ⟨k, v⟩ := e
    simp only [tabSorted, Bool.and_eq_true, decide_eq_true_eq] at h
    simp only [List.filter_cons]
    split
    · simp only [tabSorted, Bool.and_eq_true, decide_eq_true_eq]
      exact ⟨h.1, ih h.2⟩
    · exact ih (tabSorted_mono h.2 (by omega))

theorem tabWf_filter {β : Type} [DecidableEq β] {d : Nat → β} {f : Nat × β → Bool} {t : Tab β} (h : tabWf d t = true) :
    tabWf d (t.filter f) = true := by
  unfold tabWf at *
  simp only [Bool.and_eq_true] at h ⊢
  refine ⟨tabSorted_filter h.1, ?_⟩
  unfold tabNoDefault at *
  rw [List.all_eq_true] at *
  intro e he
  exact h.2 e (List.mem_filter.mp he).1

/-- Any list of writes keeps the canonical form. -/
theorem tabWf_foldl {α β : Type} [DecidableEq β] {d : β} {f : Tab β → α → Tab β}
    (hf : ∀ t a, tabWf (fun _ => d) t = true → tabWf (fun _ => d) (f t a) = true) {l : List α} :
    ∀ {t : Tab β}, tabWf (fun _ => d) t = true → tabWf (fun _ => d) (l.foldl f t) = true := by
  induction l with
  | nil => intro t h; exact h
  | cons a l ih => intro t h; exact ih (hf t a h)

end Sys2Proof

namespace Sys2Proof.Machine

variable {s : State}

/-- Memory after reset lists nothing. -/
theorem Memory.wf_reset : Memory.wf State.reset.mem = true := rfl

/-- A register write keeps the register file's form, and memory's. -/
theorem State.Canonical.setRaw (h : s.Canonical) {off : Nat} {v : BitVec 64} : (s.setRaw off v).Canonical :=
  ⟨h.1, tabWf_set (d := regReset) h.2⟩

theorem State.Canonical.set (h : s.Canonical) {f : Fld} {n : Nat} : (s.set f n).Canonical := h.setRaw

theorem State.Canonical.count (h : s.Canonical) {f : Fld} {n : Nat} : (s.count f n).Canonical := h.set

theorem State.Canonical.countWrap (h : s.Canonical) {f : Fld} {n : Nat} : (s.countWrap f n).Canonical := h.set

theorem State.Canonical.setByte (h : s.Canonical) {a : Nat} {b : Byte} : (s.setByte a b).Canonical :=
  ⟨Memory.wf_setByte h.1, h.2⟩

theorem State.Canonical.emit (h : s.Canonical) {e : Emit} : (s.emit e).Canonical := h

/-- A record joins the recorder's queue, or is counted as lost. -/
theorem State.Canonical.record (h : s.Canonical) {kind cls src code unit ctx : Nat} {part : Option Nat} {detail : List Nat} :
    (s.record kind cls src code part unit ctx detail).Canonical := by
  unfold State.record
  dsimp only
  split
  · exact h
  · exact State.Canonical.count (s := { s with evr := { s.evr with seq := (s.evr.seq + 1) % 2 ^ 32 } }) h

theorem State.Canonical.event (h : s.Canonical) {cls src code unit ctx : Nat} {part : Option Nat} {detail : List Nat} :
    (s.event cls src code part unit ctx detail).Canonical := h.record

/-- A request leaves for the host, or none does. -/
theorem State.Canonical.toHost (h : s.Canonical) {q : Nat} {m : Nat → Emit} : (s.toHost q m).Canonical := by
  unfold State.toHost
  split
  · exact h.emit
  · exact h

/-- An interrupt is sent, or left pending. -/
theorem State.Canonical.interrupt (h : s.Canonical) {func vec : Nat} : (s.interrupt func vec).Canonical := by
  unfold State.interrupt
  split
  · exact h
  · dsimp only
    split
    · exact h
    · exact h.toHost

/-- A fold over a list keeps what each step keeps. -/
theorem State.Canonical.each {α : Type} {f : State → α → State} (hf : ∀ s a, s.Canonical → (f s a).Canonical) {l : List α} :
    ∀ {s : State}, s.Canonical → (s.each l f).Canonical := by
  induction l with
  | nil => intro s h; exact h
  | cons a l ih => intro s h; exact ih (hf s a h)

/-- A line written to memory (R308, R312). -/
theorem State.Canonical.memWrite (h : s.Canonical) {line mask poison : Nat} {d : Data} :
    (s.memWrite line mask d poison).Canonical := by
  have h' : ((s.chanAccess (s.chunkPart (line * 128)) (line * 128)
      ((List.range 4).filter fun j => bit mask j).length).count (F.MC_WR_COUNT (s.chunkPart (line * 128)))
      ((List.range 4).filter fun j => bit mask j).length).Canonical :=
    State.Canonical.count (s := s.chanAccess _ _ _) h
  unfold State.memWrite
  dsimp only
  split
  · exact h'
  · refine ⟨?_, h'.2⟩
    refine tabWf_foldl (d := (0 : Byte)) (fun t o ht => ?_) h'.1
    split
    · exact tabWf_set (d := fun _ => (0 : Byte)) ht
    · exact ht

/-- Sectors of a row stored as poison markers leave memory. -/
theorem State.Canonical.markRow (h : s.Canonical) {ch row : Nat} {bad : List Nat} : (s.markRow ch row bad).Canonical :=
  ⟨tabWf_filter h.1, h.2⟩

/-- The memory clear of R318. -/
theorem State.Canonical.clearMemory (h : s.Canonical) : s.clearMemory.Canonical := ⟨rfl, h.2⟩

/-- Only registers and memory matter to the form. -/
theorem State.Canonical.congr {t : State} (h : s.Canonical) (m : t.mem = s.mem) (r : t.regs = s.regs) : t.Canonical := by
  unfold State.Canonical at *
  rw [m, r]
  exact h

end Sys2Proof.Machine
end

