-- ==== Sys2Proof/Laws/State.lean ====
section
/-! SUPPORT. The laws of State's updates: what each leaves unchanged, field by field, and what a register reads after a
write of it or of another. -/

namespace Sys2Proof.Machine

/-! ### Fields that an update leaves unchanged -/

section
variable (s : State)

@[simp] theorem State.setRaw_pending (off : Nat) (v : BitVec 64) : (s.setRaw off v).pending = s.pending := rfl
@[simp] theorem State.setRaw_out (off : Nat) (v : BitVec 64) : (s.setRaw off v).out = s.out := rfl
@[simp] theorem State.setRaw_mem (off : Nat) (v : BitVec 64) : (s.setRaw off v).mem = s.mem := rfl
@[simp] theorem State.setRaw_poison (off : Nat) (v : BitVec 64) : (s.setRaw off v).poison = s.poison := rfl
@[simp] theorem State.setRaw_free (off : Nat) (v : BitVec 64) : (s.setRaw off v).free = s.free := rfl
@[simp] theorem State.setRaw_boot (off : Nat) (v : BitVec 64) : (s.setRaw off v).boot = s.boot := rfl
@[simp] theorem State.setRaw_mgmt (off : Nat) (v : BitVec 64) : (s.setRaw off v).mgmt = s.mgmt := rfl
@[simp] theorem State.setRaw_tap (off : Nat) (v : BitVec 64) : (s.setRaw off v).tap = s.tap := rfl
@[simp] theorem State.setRaw_evr (off : Nat) (v : BitVec 64) : (s.setRaw off v).evr = s.evr := rfl
@[simp] theorem State.setRaw_pow (off : Nat) (v : BitVec 64) : (s.setRaw off v).pow = s.pow := rfl
@[simp] theorem State.setRaw_sp (off : Nat) (v : BitVec 64) : (s.setRaw off v).sp = s.sp := rfl
@[simp] theorem State.setRaw_host (off : Nat) (v : BitVec 64) : (s.setRaw off v).host = s.host := rfl
@[simp] theorem State.setRaw_cores (off : Nat) (v : BitVec 64) : (s.setRaw off v).cores = s.cores := rfl
@[simp] theorem State.setRaw_sluices (off : Nat) (v : BitVec 64) : (s.setRaw off v).sluices = s.sluices := rfl
@[simp] theorem State.setRaw_coh (off : Nat) (v : BitVec 64) : (s.setRaw off v).coh = s.coh := rfl
@[simp] theorem State.setRaw_dbg (off : Nat) (v : BitVec 64) : (s.setRaw off v).dbg = s.dbg := rfl
@[simp] theorem State.setRaw_mc (off : Nat) (v : BitVec 64) : (s.setRaw off v).mc = s.mc := rfl
@[simp] theorem State.setRaw_fab (off : Nat) (v : BitVec 64) : (s.setRaw off v).fab = s.fab := rfl
@[simp] theorem State.setRaw_fe (off : Nat) (v : BitVec 64) : (s.setRaw off v).fe = s.fe := rfl
@[simp] theorem State.setRaw_byte (off : Nat) (v : BitVec 64) (a' : Nat) : (s.setRaw off v).byte a' = s.byte a' := rfl

@[simp] theorem State.set_pending (f : Fld) (n : Nat) : (s.set f n).pending = s.pending := rfl
@[simp] theorem State.set_out (f : Fld) (n : Nat) : (s.set f n).out = s.out := rfl
@[simp] theorem State.set_mem (f : Fld) (n : Nat) : (s.set f n).mem = s.mem := rfl
@[simp] theorem State.set_poison (f : Fld) (n : Nat) : (s.set f n).poison = s.poison := rfl
@[simp] theorem State.set_free (f : Fld) (n : Nat) : (s.set f n).free = s.free := rfl
@[simp] theorem State.set_boot (f : Fld) (n : Nat) : (s.set f n).boot = s.boot := rfl
@[simp] theorem State.set_mgmt (f : Fld) (n : Nat) : (s.set f n).mgmt = s.mgmt := rfl
@[simp] theorem State.set_tap (f : Fld) (n : Nat) : (s.set f n).tap = s.tap := rfl
@[simp] theorem State.set_evr (f : Fld) (n : Nat) : (s.set f n).evr = s.evr := rfl
@[simp] theorem State.set_pow (f : Fld) (n : Nat) : (s.set f n).pow = s.pow := rfl
@[simp] theorem State.set_sp (f : Fld) (n : Nat) : (s.set f n).sp = s.sp := rfl
@[simp] theorem State.set_host (f : Fld) (n : Nat) : (s.set f n).host = s.host := rfl
@[simp] theorem State.set_cores (f : Fld) (n : Nat) : (s.set f n).cores = s.cores := rfl
@[simp] theorem State.set_sluices (f : Fld) (n : Nat) : (s.set f n).sluices = s.sluices := rfl
@[simp] theorem State.set_coh (f : Fld) (n : Nat) : (s.set f n).coh = s.coh := rfl
@[simp] theorem State.set_dbg (f : Fld) (n : Nat) : (s.set f n).dbg = s.dbg := rfl
@[simp] theorem State.set_mc (f : Fld) (n : Nat) : (s.set f n).mc = s.mc := rfl
@[simp] theorem State.set_fab (f : Fld) (n : Nat) : (s.set f n).fab = s.fab := rfl
@[simp] theorem State.set_fe (f : Fld) (n : Nat) : (s.set f n).fe = s.fe := rfl
@[simp] theorem State.set_byte (f : Fld) (n : Nat) (a' : Nat) : (s.set f n).byte a' = s.byte a' := rfl

@[simp] theorem State.count_pending (f : Fld) (n : Nat) : (s.count f n).pending = s.pending := rfl
@[simp] theorem State.count_out (f : Fld) (n : Nat) : (s.count f n).out = s.out := rfl
@[simp] theorem State.count_mem (f : Fld) (n : Nat) : (s.count f n).mem = s.mem := rfl
@[simp] theorem State.count_poison (f : Fld) (n : Nat) : (s.count f n).poison = s.poison := rfl
@[simp] theorem State.count_free (f : Fld) (n : Nat) : (s.count f n).free = s.free := rfl
@[simp] theorem State.count_boot (f : Fld) (n : Nat) : (s.count f n).boot = s.boot := rfl
@[simp] theorem State.count_mgmt (f : Fld) (n : Nat) : (s.count f n).mgmt = s.mgmt := rfl
@[simp] theorem State.count_tap (f : Fld) (n : Nat) : (s.count f n).tap = s.tap := rfl
@[simp] theorem State.count_evr (f : Fld) (n : Nat) : (s.count f n).evr = s.evr := rfl
@[simp] theorem State.count_pow (f : Fld) (n : Nat) : (s.count f n).pow = s.pow := rfl
@[simp] theorem State.count_sp (f : Fld) (n : Nat) : (s.count f n).sp = s.sp := rfl
@[simp] theorem State.count_host (f : Fld) (n : Nat) : (s.count f n).host = s.host := rfl
@[simp] theorem State.count_cores (f : Fld) (n : Nat) : (s.count f n).cores = s.cores := rfl
@[simp] theorem State.count_sluices (f : Fld) (n : Nat) : (s.count f n).sluices = s.sluices := rfl
@[simp] theorem State.count_coh (f : Fld) (n : Nat) : (s.count f n).coh = s.coh := rfl
@[simp] theorem State.count_dbg (f : Fld) (n : Nat) : (s.count f n).dbg = s.dbg := rfl
@[simp] theorem State.count_mc (f : Fld) (n : Nat) : (s.count f n).mc = s.mc := rfl
@[simp] theorem State.count_fab (f : Fld) (n : Nat) : (s.count f n).fab = s.fab := rfl
@[simp] theorem State.count_fe (f : Fld) (n : Nat) : (s.count f n).fe = s.fe := rfl
@[simp] theorem State.count_byte (f : Fld) (n : Nat) (a' : Nat) : (s.count f n).byte a' = s.byte a' := rfl

@[simp] theorem State.countWrap_pending (f : Fld) (n : Nat) : (s.countWrap f n).pending = s.pending := rfl
@[simp] theorem State.countWrap_out (f : Fld) (n : Nat) : (s.countWrap f n).out = s.out := rfl
@[simp] theorem State.countWrap_mem (f : Fld) (n : Nat) : (s.countWrap f n).mem = s.mem := rfl
@[simp] theorem State.countWrap_poison (f : Fld) (n : Nat) : (s.countWrap f n).poison = s.poison := rfl
@[simp] theorem State.countWrap_free (f : Fld) (n : Nat) : (s.countWrap f n).free = s.free := rfl
@[simp] theorem State.countWrap_boot (f : Fld) (n : Nat) : (s.countWrap f n).boot = s.boot := rfl
@[simp] theorem State.countWrap_mgmt (f : Fld) (n : Nat) : (s.countWrap f n).mgmt = s.mgmt := rfl
@[simp] theorem State.countWrap_tap (f : Fld) (n : Nat) : (s.countWrap f n).tap = s.tap := rfl
@[simp] theorem State.countWrap_evr (f : Fld) (n : Nat) : (s.countWrap f n).evr = s.evr := rfl
@[simp] theorem State.countWrap_pow (f : Fld) (n : Nat) : (s.countWrap f n).pow = s.pow := rfl
@[simp] theorem State.countWrap_sp (f : Fld) (n : Nat) : (s.countWrap f n).sp = s.sp := rfl
@[simp] theorem State.countWrap_host (f : Fld) (n : Nat) : (s.countWrap f n).host = s.host := rfl
@[simp] theorem State.countWrap_cores (f : Fld) (n : Nat) : (s.countWrap f n).cores = s.cores := rfl
@[simp] theorem State.countWrap_sluices (f : Fld) (n : Nat) : (s.countWrap f n).sluices = s.sluices := rfl
@[simp] theorem State.countWrap_coh (f : Fld) (n : Nat) : (s.countWrap f n).coh = s.coh := rfl
@[simp] theorem State.countWrap_dbg (f : Fld) (n : Nat) : (s.countWrap f n).dbg = s.dbg := rfl
@[simp] theorem State.countWrap_mc (f : Fld) (n : Nat) : (s.countWrap f n).mc = s.mc := rfl
@[simp] theorem State.countWrap_fab (f : Fld) (n : Nat) : (s.countWrap f n).fab = s.fab := rfl
@[simp] theorem State.countWrap_fe (f : Fld) (n : Nat) : (s.countWrap f n).fe = s.fe := rfl
@[simp] theorem State.countWrap_byte (f : Fld) (n : Nat) (a' : Nat) : (s.countWrap f n).byte a' = s.byte a' := rfl

@[simp] theorem State.emit_pending (e : Emit) : (s.emit e).pending = s.pending := rfl
@[simp] theorem State.emit_regs (e : Emit) : (s.emit e).regs = s.regs := rfl
@[simp] theorem State.emit_mem (e : Emit) : (s.emit e).mem = s.mem := rfl
@[simp] theorem State.emit_poison (e : Emit) : (s.emit e).poison = s.poison := rfl
@[simp] theorem State.emit_free (e : Emit) : (s.emit e).free = s.free := rfl
@[simp] theorem State.emit_boot (e : Emit) : (s.emit e).boot = s.boot := rfl
@[simp] theorem State.emit_mgmt (e : Emit) : (s.emit e).mgmt = s.mgmt := rfl
@[simp] theorem State.emit_tap (e : Emit) : (s.emit e).tap = s.tap := rfl
@[simp] theorem State.emit_evr (e : Emit) : (s.emit e).evr = s.evr := rfl
@[simp] theorem State.emit_pow (e : Emit) : (s.emit e).pow = s.pow := rfl
@[simp] theorem State.emit_sp (e : Emit) : (s.emit e).sp = s.sp := rfl
@[simp] theorem State.emit_host (e : Emit) : (s.emit e).host = s.host := rfl
@[simp] theorem State.emit_cores (e : Emit) : (s.emit e).cores = s.cores := rfl
@[simp] theorem State.emit_sluices (e : Emit) : (s.emit e).sluices = s.sluices := rfl
@[simp] theorem State.emit_coh (e : Emit) : (s.emit e).coh = s.coh := rfl
@[simp] theorem State.emit_dbg (e : Emit) : (s.emit e).dbg = s.dbg := rfl
@[simp] theorem State.emit_mc (e : Emit) : (s.emit e).mc = s.mc := rfl
@[simp] theorem State.emit_fab (e : Emit) : (s.emit e).fab = s.fab := rfl
@[simp] theorem State.emit_fe (e : Emit) : (s.emit e).fe = s.fe := rfl
@[simp] theorem State.emit_raw (e : Emit) (off' : Nat) : (s.emit e).raw off' = s.raw off' := rfl
@[simp] theorem State.emit_get (e : Emit) (g : Fld) : (s.emit e).get g = s.get g := rfl
@[simp] theorem State.emit_on (e : Emit) (g : Fld) : (s.emit e).on g = s.on g := rfl
@[simp] theorem State.emit_byte (e : Emit) (a' : Nat) : (s.emit e).byte a' = s.byte a' := rfl

@[simp] theorem State.setByte_pending (a : Nat) (b : Byte) : (s.setByte a b).pending = s.pending := rfl
@[simp] theorem State.setByte_out (a : Nat) (b : Byte) : (s.setByte a b).out = s.out := rfl
@[simp] theorem State.setByte_regs (a : Nat) (b : Byte) : (s.setByte a b).regs = s.regs := rfl
@[simp] theorem State.setByte_poison (a : Nat) (b : Byte) : (s.setByte a b).poison = s.poison := rfl
@[simp] theorem State.setByte_free (a : Nat) (b : Byte) : (s.setByte a b).free = s.free := rfl
@[simp] theorem State.setByte_boot (a : Nat) (b : Byte) : (s.setByte a b).boot = s.boot := rfl
@[simp] theorem State.setByte_mgmt (a : Nat) (b : Byte) : (s.setByte a b).mgmt = s.mgmt := rfl
@[simp] theorem State.setByte_tap (a : Nat) (b : Byte) : (s.setByte a b).tap = s.tap := rfl
@[simp] theorem State.setByte_evr (a : Nat) (b : Byte) : (s.setByte a b).evr = s.evr := rfl
@[simp] theorem State.setByte_pow (a : Nat) (b : Byte) : (s.setByte a b).pow = s.pow := rfl
@[simp] theorem State.setByte_sp (a : Nat) (b : Byte) : (s.setByte a b).sp = s.sp := rfl
@[simp] theorem State.setByte_host (a : Nat) (b : Byte) : (s.setByte a b).host = s.host := rfl
@[simp] theorem State.setByte_cores (a : Nat) (b : Byte) : (s.setByte a b).cores = s.cores := rfl
@[simp] theorem State.setByte_sluices (a : Nat) (b : Byte) : (s.setByte a b).sluices = s.sluices := rfl
@[simp] theorem State.setByte_coh (a : Nat) (b : Byte) : (s.setByte a b).coh = s.coh := rfl
@[simp] theorem State.setByte_dbg (a : Nat) (b : Byte) : (s.setByte a b).dbg = s.dbg := rfl
@[simp] theorem State.setByte_mc (a : Nat) (b : Byte) : (s.setByte a b).mc = s.mc := rfl
@[simp] theorem State.setByte_fab (a : Nat) (b : Byte) : (s.setByte a b).fab = s.fab := rfl
@[simp] theorem State.setByte_fe (a : Nat) (b : Byte) : (s.setByte a b).fe = s.fe := rfl
@[simp] theorem State.setByte_raw (a : Nat) (b : Byte) (off' : Nat) : (s.setByte a b).raw off' = s.raw off' := rfl
@[simp] theorem State.setByte_get (a : Nat) (b : Byte) (g : Fld) : (s.setByte a b).get g = s.get g := rfl
@[simp] theorem State.setByte_on (a : Nat) (b : Byte) (g : Fld) : (s.setByte a b).on g = s.on g := rfl

@[simp] theorem State.draw_pending : (s.draw.2).pending = s.pending := rfl
@[simp] theorem State.draw_out : (s.draw.2).out = s.out := rfl
@[simp] theorem State.draw_regs : (s.draw.2).regs = s.regs := rfl
@[simp] theorem State.draw_mem : (s.draw.2).mem = s.mem := rfl
@[simp] theorem State.draw_poison : (s.draw.2).poison = s.poison := rfl
@[simp] theorem State.draw_boot : (s.draw.2).boot = s.boot := rfl
@[simp] theorem State.draw_mgmt : (s.draw.2).mgmt = s.mgmt := rfl
@[simp] theorem State.draw_tap : (s.draw.2).tap = s.tap := rfl
@[simp] theorem State.draw_evr : (s.draw.2).evr = s.evr := rfl
@[simp] theorem State.draw_pow : (s.draw.2).pow = s.pow := rfl
@[simp] theorem State.draw_sp : (s.draw.2).sp = s.sp := rfl
@[simp] theorem State.draw_host : (s.draw.2).host = s.host := rfl
@[simp] theorem State.draw_cores : (s.draw.2).cores = s.cores := rfl
@[simp] theorem State.draw_sluices : (s.draw.2).sluices = s.sluices := rfl
@[simp] theorem State.draw_coh : (s.draw.2).coh = s.coh := rfl
@[simp] theorem State.draw_dbg : (s.draw.2).dbg = s.dbg := rfl
@[simp] theorem State.draw_mc : (s.draw.2).mc = s.mc := rfl
@[simp] theorem State.draw_fab : (s.draw.2).fab = s.fab := rfl
@[simp] theorem State.draw_fe : (s.draw.2).fe = s.fe := rfl
@[simp] theorem State.draw_raw (off' : Nat) : (s.draw.2).raw off' = s.raw off' := rfl
@[simp] theorem State.draw_get (g : Fld) : (s.draw.2).get g = s.get g := rfl
@[simp] theorem State.draw_on (g : Fld) : (s.draw.2).on g = s.on g := rfl
@[simp] theorem State.draw_byte (a' : Nat) : (s.draw.2).byte a' = s.byte a' := rfl

@[simp] theorem State.setCore_pending (c : Nat) (k : Core) : (s.setCore c k).pending = s.pending := rfl
@[simp] theorem State.setCore_out (c : Nat) (k : Core) : (s.setCore c k).out = s.out := rfl
@[simp] theorem State.setCore_regs (c : Nat) (k : Core) : (s.setCore c k).regs = s.regs := rfl
@[simp] theorem State.setCore_mem (c : Nat) (k : Core) : (s.setCore c k).mem = s.mem := rfl
@[simp] theorem State.setCore_poison (c : Nat) (k : Core) : (s.setCore c k).poison = s.poison := rfl
@[simp] theorem State.setCore_free (c : Nat) (k : Core) : (s.setCore c k).free = s.free := rfl
@[simp] theorem State.setCore_boot (c : Nat) (k : Core) : (s.setCore c k).boot = s.boot := rfl
@[simp] theorem State.setCore_mgmt (c : Nat) (k : Core) : (s.setCore c k).mgmt = s.mgmt := rfl
@[simp] theorem State.setCore_tap (c : Nat) (k : Core) : (s.setCore c k).tap = s.tap := rfl
@[simp] theorem State.setCore_evr (c : Nat) (k : Core) : (s.setCore c k).evr = s.evr := rfl
@[simp] theorem State.setCore_pow (c : Nat) (k : Core) : (s.setCore c k).pow = s.pow := rfl
@[simp] theorem State.setCore_sp (c : Nat) (k : Core) : (s.setCore c k).sp = s.sp := rfl
@[simp] theorem State.setCore_host (c : Nat) (k : Core) : (s.setCore c k).host = s.host := rfl
@[simp] theorem State.setCore_sluices (c : Nat) (k : Core) : (s.setCore c k).sluices = s.sluices := rfl
@[simp] theorem State.setCore_coh (c : Nat) (k : Core) : (s.setCore c k).coh = s.coh := rfl
@[simp] theorem State.setCore_dbg (c : Nat) (k : Core) : (s.setCore c k).dbg = s.dbg := rfl
@[simp] theorem State.setCore_mc (c : Nat) (k : Core) : (s.setCore c k).mc = s.mc := rfl
@[simp] theorem State.setCore_fab (c : Nat) (k : Core) : (s.setCore c k).fab = s.fab := rfl
@[simp] theorem State.setCore_fe (c : Nat) (k : Core) : (s.setCore c k).fe = s.fe := rfl
@[simp] theorem State.setCore_raw (c : Nat) (k : Core) (off' : Nat) : (s.setCore c k).raw off' = s.raw off' := rfl
@[simp] theorem State.setCore_get (c : Nat) (k : Core) (g : Fld) : (s.setCore c k).get g = s.get g := rfl
@[simp] theorem State.setCore_on (c : Nat) (k : Core) (g : Fld) : (s.setCore c k).on g = s.on g := rfl
@[simp] theorem State.setCore_byte (c : Nat) (k : Core) (a' : Nat) : (s.setCore c k).byte a' = s.byte a' := rfl

@[simp] theorem State.phaseTo_pending (p : Phase) : (s.phaseTo p).pending = s.pending := rfl
@[simp] theorem State.phaseTo_out (p : Phase) : (s.phaseTo p).out = s.out := rfl
@[simp] theorem State.phaseTo_regs (p : Phase) : (s.phaseTo p).regs = s.regs := rfl
@[simp] theorem State.phaseTo_mem (p : Phase) : (s.phaseTo p).mem = s.mem := rfl
@[simp] theorem State.phaseTo_poison (p : Phase) : (s.phaseTo p).poison = s.poison := rfl
@[simp] theorem State.phaseTo_free (p : Phase) : (s.phaseTo p).free = s.free := rfl
@[simp] theorem State.phaseTo_mgmt (p : Phase) : (s.phaseTo p).mgmt = s.mgmt := rfl
@[simp] theorem State.phaseTo_tap (p : Phase) : (s.phaseTo p).tap = s.tap := rfl
@[simp] theorem State.phaseTo_evr (p : Phase) : (s.phaseTo p).evr = s.evr := rfl
@[simp] theorem State.phaseTo_pow (p : Phase) : (s.phaseTo p).pow = s.pow := rfl
@[simp] theorem State.phaseTo_sp (p : Phase) : (s.phaseTo p).sp = s.sp := rfl
@[simp] theorem State.phaseTo_host (p : Phase) : (s.phaseTo p).host = s.host := rfl
@[simp] theorem State.phaseTo_cores (p : Phase) : (s.phaseTo p).cores = s.cores := rfl
@[simp] theorem State.phaseTo_sluices (p : Phase) : (s.phaseTo p).sluices = s.sluices := rfl
@[simp] theorem State.phaseTo_coh (p : Phase) : (s.phaseTo p).coh = s.coh := rfl
@[simp] theorem State.phaseTo_dbg (p : Phase) : (s.phaseTo p).dbg = s.dbg := rfl
@[simp] theorem State.phaseTo_mc (p : Phase) : (s.phaseTo p).mc = s.mc := rfl
@[simp] theorem State.phaseTo_fab (p : Phase) : (s.phaseTo p).fab = s.fab := rfl
@[simp] theorem State.phaseTo_fe (p : Phase) : (s.phaseTo p).fe = s.fe := rfl
@[simp] theorem State.phaseTo_raw (p : Phase) (off' : Nat) : (s.phaseTo p).raw off' = s.raw off' := rfl
@[simp] theorem State.phaseTo_get (p : Phase) (g : Fld) : (s.phaseTo p).get g = s.get g := rfl
@[simp] theorem State.phaseTo_on (p : Phase) (g : Fld) : (s.phaseTo p).on g = s.on g := rfl
@[simp] theorem State.phaseTo_byte (p : Phase) (a' : Nat) : (s.phaseTo p).byte a' = s.byte a' := rfl

@[simp] theorem State.setCtx_pending (c : Nat) (x : Ctx) : (s.setCtx c x).pending = s.pending := rfl
@[simp] theorem State.setCtx_out (c : Nat) (x : Ctx) : (s.setCtx c x).out = s.out := rfl
@[simp] theorem State.setCtx_regs (c : Nat) (x : Ctx) : (s.setCtx c x).regs = s.regs := rfl
@[simp] theorem State.setCtx_mem (c : Nat) (x : Ctx) : (s.setCtx c x).mem = s.mem := rfl
@[simp] theorem State.setCtx_poison (c : Nat) (x : Ctx) : (s.setCtx c x).poison = s.poison := rfl
@[simp] theorem State.setCtx_free (c : Nat) (x : Ctx) : (s.setCtx c x).free = s.free := rfl
@[simp] theorem State.setCtx_boot (c : Nat) (x : Ctx) : (s.setCtx c x).boot = s.boot := rfl
@[simp] theorem State.setCtx_mgmt (c : Nat) (x : Ctx) : (s.setCtx c x).mgmt = s.mgmt := rfl
@[simp] theorem State.setCtx_tap (c : Nat) (x : Ctx) : (s.setCtx c x).tap = s.tap := rfl
@[simp] theorem State.setCtx_evr (c : Nat) (x : Ctx) : (s.setCtx c x).evr = s.evr := rfl
@[simp] theorem State.setCtx_pow (c : Nat) (x : Ctx) : (s.setCtx c x).pow = s.pow := rfl
@[simp] theorem State.setCtx_sp (c : Nat) (x : Ctx) : (s.setCtx c x).sp = s.sp := rfl
@[simp] theorem State.setCtx_host (c : Nat) (x : Ctx) : (s.setCtx c x).host = s.host := rfl
@[simp] theorem State.setCtx_cores (c : Nat) (x : Ctx) : (s.setCtx c x).cores = s.cores := rfl
@[simp] theorem State.setCtx_sluices (c : Nat) (x : Ctx) : (s.setCtx c x).sluices = s.sluices := rfl
@[simp] theorem State.setCtx_coh (c : Nat) (x : Ctx) : (s.setCtx c x).coh = s.coh := rfl
@[simp] theorem State.setCtx_dbg (c : Nat) (x : Ctx) : (s.setCtx c x).dbg = s.dbg := rfl
@[simp] theorem State.setCtx_mc (c : Nat) (x : Ctx) : (s.setCtx c x).mc = s.mc := rfl
@[simp] theorem State.setCtx_fab (c : Nat) (x : Ctx) : (s.setCtx c x).fab = s.fab := rfl
@[simp] theorem State.setCtx_raw (c : Nat) (x : Ctx) (off' : Nat) : (s.setCtx c x).raw off' = s.raw off' := rfl
@[simp] theorem State.setCtx_get (c : Nat) (x : Ctx) (g : Fld) : (s.setCtx c x).get g = s.get g := rfl
@[simp] theorem State.setCtx_on (c : Nat) (x : Ctx) (g : Fld) : (s.setCtx c x).on g = s.on g := rfl
@[simp] theorem State.setCtx_byte (c : Nat) (x : Ctx) (a' : Nat) : (s.setCtx c x).byte a' = s.byte a' := rfl

@[simp] theorem State.setPort_pending (j : Nat) (p : Port) : (s.setPort j p).pending = s.pending := rfl
@[simp] theorem State.setPort_out (j : Nat) (p : Port) : (s.setPort j p).out = s.out := rfl
@[simp] theorem State.setPort_regs (j : Nat) (p : Port) : (s.setPort j p).regs = s.regs := rfl
@[simp] theorem State.setPort_mem (j : Nat) (p : Port) : (s.setPort j p).mem = s.mem := rfl
@[simp] theorem State.setPort_poison (j : Nat) (p : Port) : (s.setPort j p).poison = s.poison := rfl
@[simp] theorem State.setPort_free (j : Nat) (p : Port) : (s.setPort j p).free = s.free := rfl
@[simp] theorem State.setPort_boot (j : Nat) (p : Port) : (s.setPort j p).boot = s.boot := rfl
@[simp] theorem State.setPort_mgmt (j : Nat) (p : Port) : (s.setPort j p).mgmt = s.mgmt := rfl
@[simp] theorem State.setPort_tap (j : Nat) (p : Port) : (s.setPort j p).tap = s.tap := rfl
@[simp] theorem State.setPort_evr (j : Nat) (p : Port) : (s.setPort j p).evr = s.evr := rfl
@[simp] theorem State.setPort_pow (j : Nat) (p : Port) : (s.setPort j p).pow = s.pow := rfl
@[simp] theorem State.setPort_sp (j : Nat) (p : Port) : (s.setPort j p).sp = s.sp := rfl
@[simp] theorem State.setPort_host (j : Nat) (p : Port) : (s.setPort j p).host = s.host := rfl
@[simp] theorem State.setPort_cores (j : Nat) (p : Port) : (s.setPort j p).cores = s.cores := rfl
@[simp] theorem State.setPort_sluices (j : Nat) (p : Port) : (s.setPort j p).sluices = s.sluices := rfl
@[simp] theorem State.setPort_coh (j : Nat) (p : Port) : (s.setPort j p).coh = s.coh := rfl
@[simp] theorem State.setPort_dbg (j : Nat) (p : Port) : (s.setPort j p).dbg = s.dbg := rfl
@[simp] theorem State.setPort_mc (j : Nat) (p : Port) : (s.setPort j p).mc = s.mc := rfl
@[simp] theorem State.setPort_fe (j : Nat) (p : Port) : (s.setPort j p).fe = s.fe := rfl
@[simp] theorem State.setPort_raw (j : Nat) (p : Port) (off' : Nat) : (s.setPort j p).raw off' = s.raw off' := rfl
@[simp] theorem State.setPort_get (j : Nat) (p : Port) (g : Fld) : (s.setPort j p).get g = s.get g := rfl
@[simp] theorem State.setPort_on (j : Nat) (p : Port) (g : Fld) : (s.setPort j p).on g = s.on g := rfl
@[simp] theorem State.setPort_byte (j : Nat) (p : Port) (a' : Nat) : (s.setPort j p).byte a' = s.byte a' := rfl

@[simp] theorem State.openRow_pending (a : Nat) : (s.openRow a).pending = s.pending := rfl
@[simp] theorem State.openRow_out (a : Nat) : (s.openRow a).out = s.out := rfl
@[simp] theorem State.openRow_regs (a : Nat) : (s.openRow a).regs = s.regs := rfl
@[simp] theorem State.openRow_mem (a : Nat) : (s.openRow a).mem = s.mem := rfl
@[simp] theorem State.openRow_poison (a : Nat) : (s.openRow a).poison = s.poison := rfl
@[simp] theorem State.openRow_free (a : Nat) : (s.openRow a).free = s.free := rfl
@[simp] theorem State.openRow_boot (a : Nat) : (s.openRow a).boot = s.boot := rfl
@[simp] theorem State.openRow_mgmt (a : Nat) : (s.openRow a).mgmt = s.mgmt := rfl
@[simp] theorem State.openRow_tap (a : Nat) : (s.openRow a).tap = s.tap := rfl
@[simp] theorem State.openRow_evr (a : Nat) : (s.openRow a).evr = s.evr := rfl
@[simp] theorem State.openRow_pow (a : Nat) : (s.openRow a).pow = s.pow := rfl
@[simp] theorem State.openRow_sp (a : Nat) : (s.openRow a).sp = s.sp := rfl
@[simp] theorem State.openRow_host (a : Nat) : (s.openRow a).host = s.host := rfl
@[simp] theorem State.openRow_cores (a : Nat) : (s.openRow a).cores = s.cores := rfl
@[simp] theorem State.openRow_sluices (a : Nat) : (s.openRow a).sluices = s.sluices := rfl
@[simp] theorem State.openRow_coh (a : Nat) : (s.openRow a).coh = s.coh := rfl
@[simp] theorem State.openRow_dbg (a : Nat) : (s.openRow a).dbg = s.dbg := rfl
@[simp] theorem State.openRow_fab (a : Nat) : (s.openRow a).fab = s.fab := rfl
@[simp] theorem State.openRow_fe (a : Nat) : (s.openRow a).fe = s.fe := rfl
@[simp] theorem State.openRow_raw (a : Nat) (off' : Nat) : (s.openRow a).raw off' = s.raw off' := rfl
@[simp] theorem State.openRow_get (a : Nat) (g : Fld) : (s.openRow a).get g = s.get g := rfl
@[simp] theorem State.openRow_on (a : Nat) (g : Fld) : (s.openRow a).on g = s.on g := rfl
@[simp] theorem State.openRow_byte (a : Nat) (a' : Nat) : (s.openRow a).byte a' = s.byte a' := rfl

/-! ### What an update that may wait can answer -/

/-- A row that reads a line its home cannot serve leaves only the requests that it asked for; any other answers its next
state. -/
theorem State.unlessStalled_cases (t : State) :
    (t.coh.stalled = true ∧ s.unlessStalled t = t.coh.asked.foldl State.arriveNew s) ∨
    (t.coh.stalled = false ∧ s.unlessStalled t = t) := by
  unfold State.unlessStalled
  cases h : t.coh.stalled <;> simp

theorem State.unlessStalled_of_served {t : State} (h : t.coh.stalled = false) : s.unlessStalled t = t := by
  simp [State.unlessStalled, h]

theorem State.unlessStalled_of_stalled {t : State} (h : t.coh.stalled = true) :
    s.unlessStalled t = t.coh.asked.foldl State.arriveNew s := by
  simp [State.unlessStalled, h]

/-- A request for the host leaves by the requester's Quay, or the other, or, with no module in service, not at all. -/
theorem State.toHost_cases (q : Nat) (m : Nat → Emit) :
    (s.exitQuay q = none ∧ s.toHost q m = s) ∨ ∃ v, s.exitQuay q = some v ∧ s.toHost q m = s.emit (m v) := by
  unfold State.toHost
  cases h : s.exitQuay q <;> simp

end

end Sys2Proof.Machine
end

