-- ==== Sys2Proof/Laws/Homes.lean ====
section
/-! SUPPORT. A write of an agent at homes where nothing is under way is performed at once, and leaves them so: the law behind
the commands that end once their writes are performed (R259). -/

namespace Sys2Proof

open Machine

theorem mem_tabIns {β : Type} {i : Nat} {x : β} {e : Nat × β} : ∀ {t : Tab β}, e ∈ tabIns t i x → e = (i, x) ∨ e ∈ t
  | [], h => by simpa [tabIns] using h
  | (k, v) :: t, h => by
    simp only [tabIns] at h
    split at h
    · rcases List.mem_cons.1 h with h | h
      · exact .inl h
      · exact .inr (List.mem_cons_of_mem _ h)
    · split at h
      · exact (List.mem_cons.1 h).imp id fun h => h
      · rcases List.mem_cons.1 h with h | h
        · exact .inr (h ▸ List.mem_cons_self)
        · exact (mem_tabIns h).imp id (List.mem_cons_of_mem _)

theorem mem_tabDel {β : Type} {i : Nat} {e : Nat × β} : ∀ {t : Tab β}, e ∈ tabDel t i → e ∈ t
  | [], h => h
  | (k, v) :: t, h => by
    simp only [tabDel] at h
    split at h
    · exact List.mem_cons_of_mem _ (mem_tabDel h)
    · rcases List.mem_cons.1 h with h | h
      · exact h ▸ List.mem_cons_self
      · exact List.mem_cons_of_mem _ (mem_tabDel h)

theorem mem_of_tabFind {β : Type} {i : Nat} {v : β} : ∀ {t : Tab β}, tabFind t i = some v → (i, v) ∈ t
  | [], h => by simp [tabFind] at h
  | (k, w) :: t, h => by
    simp only [tabFind] at h
    split at h
    · rename_i e; cases h; exact e ▸ List.mem_cons_self
    · exact List.mem_cons_of_mem _ (mem_of_tabFind h)

namespace Laws

/-- Nothing is under way at the homes, and no line of the data array is pinned or stands beyond its 24 ways. -/
structure Calm (c : Coh) : Prop where
  txns : c.txns = []
  waitq : c.waitq = []
  redWait : c.redWait = []
  reds : c.reds = []
  rehome : c.rehome = none
  copying : c.copying = []
  rebuild : c.rebuild = []
  cis : ∀ e ∈ c.cis, e.2.pin = false ∧ e.2.way < 24

variable {s t : State}

@[simp] theorem chanAccess_coh (p a n : Nat) : (s.chanAccess p a n).coh = s.coh := rfl

@[simp] theorem memWrite_coh (line mask : Nat) (d : Data) (poison : Nat) : (s.memWrite line mask d poison).coh = s.coh := by
  simp only [State.memWrite]
  generalize hu : (s.chanAccess _ _ _).count _ _ = u
  have h : u.coh = s.coh := by rw [← hu, State.count_coh, chanAccess_coh]
  split <;> exact h

theorem Calm.busy (h : Calm s.coh) (line : Nat) : s.busy line = false := by simp [State.busy, h.txns, tabFind]

theorem Calm.lineOpen (h : Calm s.coh) (line : Nat) : s.lineOpen line = true := by
  simp [State.lineOpen, State.busy, State.queued, State.hasReds, State.heldLine, h.txns, h.waitq, h.reds, h.rehome, h.copying,
    h.rebuild, tabFind]

theorem Calm.trackers (h : Calm s.coh) (slice : Nat) : s.trackersFull slice = false := by simp [State.trackersFull, h.txns]

theorem Calm.setCis (h : Calm s.coh) (line : Nat) {c : CisLine} (hp : c.pin = false) (hw : c.way < 24) :
    Calm (s.setCis line c).coh :=
  { h with cis := fun e he => (mem_tabIns he).elim (fun e => e ▸ ⟨hp, hw⟩) (h.cis e) }

theorem Calm.tick (h : Calm s.coh) : Calm s.tick.2.coh := { h with }

theorem Calm.evict (h : Calm s.coh) (line : Nat) : Calm (s.cisEvict line).coh := by
  simp only [State.cisEvict]
  split
  · exact h
  · have : Calm (({ s.coh with cis := tabDel s.coh.cis line }) : Coh) := { h with cis := fun e he => h.cis e (mem_tabDel he) }
    split <;> simpa [State.delCis] using this

theorem oldest_some {l : Tab CisLine} (h : l ≠ []) : ∃ v, oldest l = some v ∧ v ∈ l := by
  have key : ∀ (l : Tab CisLine) (a : Nat × CisLine), ∃ v, l.foldl (fun a e => match a with
      | none => some e
      | some b => if e.2.use < b.2.use then some e else some b) (some a) = some v ∧ (v = a ∨ v ∈ l) := by
    intro l
    induction l with
    | nil => exact fun a => ⟨a, rfl, .inl rfl⟩
    | cons e l ih =>
      intro a
      simp only [List.foldl_cons]
      split
      · obtain ⟨v, h1, h2⟩ := ih e
        exact ⟨v, h1, .inr (h2.elim (· ▸ List.mem_cons_self) (List.mem_cons_of_mem _))⟩
      · obtain ⟨v, h1, h2⟩ := ih a
        exact ⟨v, h1, h2.imp id (List.mem_cons_of_mem _)⟩
  match l, h with
  | e :: l, _ =>
    obtain ⟨v, h1, h2⟩ := key l e
    exact ⟨v, h1, h2.elim (· ▸ List.mem_cons_self) (List.mem_cons_of_mem _)⟩

theorem Calm.takeWay (h : Calm s.coh) (slice set : Nat) :
    ∃ w t, s.takeWay slice set none = some (w, t) ∧ w < 24 ∧ Calm t.coh := by
  simp only [State.takeWay, Option.getD_none]
  split
  · rename_i w hw
    exact ⟨w, s, rfl, List.mem_range.1 (List.mem_of_find?_eq_some hw), h⟩
  · rename_i hn
    have h0 := List.find?_eq_none.1 hn 0 (by decide)
    simp only [Bool.not_eq_true', Bool.not_eq_false, List.any_eq_true, beq_iff_eq] at h0
    obtain ⟨e, he, e0⟩ := h0
    have mem : ∀ x ∈ s.cisSet slice set, x ∈ s.coh.cis := fun x hx => (List.mem_filter.1 hx).1
    have hne : (s.cisSet slice set).filter (fun e => decide (e.2.way < 24) && !e.2.pin && !s.hasReds e.1 && !s.busy e.1) ≠ [] := by
      intro hc
      have := List.filter_eq_nil_iff.1 hc e he
      simp [h.cis e (mem e he), h.busy, State.hasReds, h.reds] at this
    obtain ⟨v, h1, h2⟩ := oldest_some hne
    rw [h1]
    exact ⟨v.2.way, _, rfl, (h.cis v (mem v (List.mem_filter.1 h2).1)).2, h.evict v.1⟩

theorem Calm.cisAlloc (h : Calm s.coh) (line : Nat) : ∃ t, s.cisAlloc line = some t ∧ Calm t.coh := by
  simp only [State.cisAlloc]
  split
  · exact ⟨s, rfl, h⟩
  · have : s.redsFirst line = [] := by simp [State.redsFirst, h.reds]
    simp only [this, List.nil_append, List.foldl_cons, List.foldl_nil, Option.bind_some, State.cisPlace]
    obtain ⟨w, t, h1, h2, h3⟩ := h.takeWay (s.homeSlice line) (lineSet line)
    rw [h1]
    exact ⟨_, rfl, Calm.setCis h3.tick _ rfl h2⟩

@[simp] theorem event_coh (cls src code : Nat) (part : Option Nat) (unit ctx : Nat) (l : List Nat) :
    (s.event cls src code part unit ctx l).coh = s.coh := by
  simp only [State.event, State.record]
  split
  · rfl
  · rw [State.count_coh]

@[simp] theorem thrash_coh (line : Nat) : (s.thrash line).coh = s.coh := by
  simp only [State.thrash]
  split
  · rfl
  · generalize hu : s.count _ _ = u
    have h : u.coh = s.coh := by rw [← hu, State.count_coh]
    split
    · rw [event_coh, h]
    · exact h

theorem Calm.allocW (h : Calm s.coh) (line : Nat) : ∃ t, s.allocW line = some t ∧ Calm t.coh := by
  obtain ⟨t, h1, h2⟩ := h.cisAlloc line
  simp only [State.allocW, h1]
  split
  · refine ⟨_, rfl, ?_⟩
    split <;> simpa using h2
  · exact ⟨t, rfl, h2⟩

theorem Calm.cisPut (h : Calm s.coh) (line mask : Nat) (d : Data) (poison : Nat) (dirty : Bool) :
    Calm (s.cisPut line mask d poison dirty).coh := by
  simp only [State.cisPut]
  split
  · exact h
  · rename_i c hc
    have := h.cis _ (mem_of_tabFind hc)
    exact Calm.setCis h.tick _ this.1 this.2

theorem Calm.drop (h : Calm s.coh) (line : Nat) : Calm ((s.dropCopies line).breakResv line).coh := { h with }

theorem Calm.homeWrite (h : Calm s.coh) (line : Nat) (b : Data) (poison : Nat) : Calm (s.homeWriteBad line b poison).coh := by
  obtain ⟨t, h1, h2⟩ := h.allocW line
  simp only [State.homeWriteBad, h1]
  exact (h2.drop line).cisPut _ _ _ _ _

/-- A write of the device's own machinery whose line need not wait is performed at once. -/
theorem Calm.writeLineAt (h : Calm s.coh) (unit line : Nat) {b : Data}
    (hw : s.mustWait line (touched b &&& (15 ^^^ covered b)) = false) : Calm (s.writeLine 3 unit line b).coh := by
  obtain ⟨t, h1, -⟩ := h.cisAlloc line
  simp only [State.writeLine, State.writeLineBad]
  split
  · exact h
  · simp only [hw, h1, h.trackers, Option.isNone_some, Bool.or_self, Bool.false_eq_true, if_false, State.countWrite, if_true]
    exact h.homeWrite line b 0

/-- One that covers its sectors whole never waits. -/
theorem Calm.writeLine (h : Calm s.coh) (unit line : Nat) {b : Data} (hb : touched b &&& (15 ^^^ covered b) = 0) :
    Calm (s.writeLine 3 unit line b).coh := by
  have hm : s.onlyMem line 0 = 0 := by simp [State.onlyMem]
  exact h.writeLineAt unit line (by simp [hb, State.mustWait, h.lineOpen, State.chanWaits, hm, bit])

theorem Calm.pokeAs (h : Calm s.coh) (unit a : Nat) (l : List Byte)
    (hb : ∀ e ∈ splitLines a l, touched e.2 &&& (15 ^^^ covered e.2) = 0) : Calm (s.pokeAs 3 unit a l).coh := by
  simp only [State.pokeAs]
  generalize splitLines a l = ls at hb
  induction ls generalizing s with
  | nil => exact h
  | cons e ls ih => exact ih (h.writeLine unit e.1 (hb e List.mem_cons_self)) fun x hx => hb x (List.mem_cons_of_mem _ hx)

theorem Calm.written (h : Calm s.coh) (agent unit : Nat) : s.written agent unit = true := by
  simp [State.written, State.unserved, h.txns, h.waitq, h.redWait]

/-! ### Whole lines -/

/-- Offsets from the start of a line on, whole sectors of them, leave no sector covered in part. -/
theorem covers_all {n : Nat} {b : Data} (hn : n = 64 ∨ n = 128) (h : b.map (·.1) = List.range n) :
    touched b &&& (15 ^^^ covered b) = 0 := by
  have ht : touched b = sectorMask fun j => (b.map (·.1)).any fun o => o / 32 == j := by
    simp only [touched, List.any_map]; rfl
  have hc : covered b = sectorMask fun j => ((b.map (·.1)).filter fun o => o / 32 == j).length == 32 := by
    simp only [covered, List.filter_map, List.length_map]; rfl
  rw [ht, hc, h]
  rcases hn with rfl | rfl <;> decide

theorem whole_line {a : Nat} {d : List Byte} (ha : a % 128 = 0) (h : d.length = 64 ∨ d.length = 128) :
    ∀ e ∈ splitLines a d, touched e.2 &&& (15 ^^^ covered e.2) = 0 := by
  intro e he
  have h1 : (0 + d.length + 127) / 128 = 1 := by omega
  simp only [splitLines, ha, h1, List.mem_map, List.mem_range] at he
  obtain ⟨i, hi, rfl⟩ := he
  have hi : i = 0 := by omega
  subst hi
  refine covers_all h ?_
  have h128 : (d.drop 0).take 128 = d := by
    rw [List.drop_zero]; exact List.take_of_length_le (by omega)
  simp only [Nat.zero_mul, Nat.sub_self, Nat.zero_add, if_true, Nat.sub_zero, h128]
  apply List.ext_getElem
  · simp
  · simp

/-- A region written whole by the device's own machinery is performed at once. -/
theorem Calm.writeRegion (h : Calm s.coh) (a k : Nat) (d : Data) : Calm (s.writeRegion a k d).coh := by
  simp only [State.writeRegion, State.each]
  generalize spanLines a k = ls
  induction ls generalizing s with
  | nil => exact h
  | cons l ls ih => exact ih (h.pokeAs saveUnit _ _ (whole_line (by omega) (.inr (by simp))))

theorem Calm.openRegion (h : Calm s.coh) (a k : Nat) : Calm (s.openRegion a k).coh := h.writeRegion a k _

/-- A save of a context whose cores hold anything is performed at once where nothing is under way at the homes (R398). -/
theorem Calm.saveArea (h : Calm s.coh) (ctx : Nat) : Calm (s.saveArea ctx).coh := by
  simp only [State.saveArea]
  have h' := h.openRegion (s.saveBase ctx) 0x10000
  revert h'
  generalize s.openRegion (s.saveBase ctx) 0x10000 = t
  generalize List.mapIdx _ _ = ls
  intro h'
  induction ls generalizing t with
  | nil => exact h'
  | cons e ls ih =>
    refine ih _ ?_
    exact (((h'.writeRegion _ _ _).writeRegion _ _ _).writeRegion _ _ _).openRegion _ _

/-- A new graph of one entry is written at once (R259, R373). -/
theorem Calm.graphPut (h : Calm s.coh) (q k u : Nat) (runs : Nat × Nat) (ents : Nat) {l : List Byte} (hl : l.length = 64) :
    Calm (s.graphPut q k u runs ents l).coh := by
  have put : ∀ {t t' : State} {g : Graph} {b : Nat}, Calm t.coh → Calm (t.pokeAs 3 q (t'.graphBuf k g b) l).coh := fun h =>
    h.pokeAs _ _ _ (whole_line (by simp only [State.graphBuf, State.graphUnit]; omega) (.inl hl))
  unfold State.graphPut
  dsimp only
  rw [State.setRaw_coh, State.set_coh]
  exact put (put h)

/-! ### Reads -/

theorem wear_coh (kind unit k : Nat) : (s.wear kind unit k).coh = s.coh := rfl

@[simp] theorem sectorCheck_coh (sec err : Nat) : (s.sectorCheck sec err).coh = s.coh := by
  simp only [State.sectorCheck]
  split
  · rfl
  · split
    · rw [wear_coh, wear_coh, wear_coh, State.count_coh]
    · rw [event_coh, wear_coh, wear_coh]

theorem each_coh {α : Type} {f : State → α → State} (hf : ∀ s a, (f s a).coh = s.coh) (l : List α) : (s.each l f).coh = s.coh := by
  simp only [State.each]
  induction l generalizing s with
  | nil => rfl
  | cons a l ih => rw [List.foldl_cons, ih, hf]

@[simp] theorem fetched_coh (line mask : Nat) (narrow : Bool) : (s.fetched line mask narrow).coh = s.coh := by
  simp only [State.fetched]
  split
  · rfl
  · generalize hu : s.each _ _ = u
    have h : u.coh = s.coh := by rw [← hu]; exact each_coh (fun s a => sectorCheck_coh _ _) _
    split
    · rw [State.count_coh, chanAccess_coh, h]
    · rw [State.count_coh, State.count_coh, chanAccess_coh, h]

@[simp] theorem countCs_coh (f : Nat → Fld) (line k : Nat) : (s.countCs f line k).coh = s.coh := by
  simp only [State.countCs]
  split
  · rw [State.count_coh]
  · rfl

theorem Calm.touch (h : Calm s.coh) (line : Nat) : Calm (s.cisTouch line).coh := by
  simp only [State.cisTouch]
  split
  · exact h
  · rename_i c hc
    have := h.cis _ (mem_of_tabFind hc)
    exact Calm.setCis h.tick _ this.1 this.2

theorem Calm.countRead (h : Calm s.coh) (k line mask : Nat) (narrow : Bool) : Calm (s.countRead k line mask narrow).coh := by
  simp only [State.countRead]
  split
  · simpa using h.touch line
  · have : Calm (s.fetched line (s.onlyMem line mask) narrow).coh := by simpa using h
    simpa using this.touch line

theorem Calm.readHome (h : Calm s.coh) (who cls addr : Nat) (narrow : Bool) : Calm (s.readHome who cls addr narrow).1.coh := by
  have ask : ∀ n, Calm (s.askHome who cls addr n).coh := fun n => { h with }
  unfold State.readHome
  dsimp only
  generalize (if narrow = true then 2 ^ (addr % 128 / 32) else 15) = m
  split
  · exact { h with }
  · dsimp only
    split
    · exact ask narrow
    · exact h.countRead _ _ _ _

theorem Calm.readAs (h : Calm s.coh) (who cls : Nat) (narrow : Bool) (a k : Nat) : Calm (s.readAs who cls narrow a k).1.coh := by
  simp only [State.readAs]
  generalize readAddrs narrow a k = l
  induction l generalizing s with
  | nil => exact h
  | cons x l ih => exact ih (h.readHome who cls x narrow)

/-- A read of one piece of local memory for a command. -/
theorem Calm.feRead (h : Calm s.coh) {id ctx part va k pa : Nat} (hp : pieces va k = [(va, k)])
    (hl : s.locate ctx part va false = .mem pa) : Calm (s.feRead id ctx part va k).1.coh := by
  have := h.readAs (cmdReader id) 0 false pa k
  have e : s.getPiece (cmdReader id) 0 false ctx part va k = ((s.readAs (cmdReader id) 0 false pa k).1,
      if (s.readAs (cmdReader id) 0 false pa k).2.2 then .poison else .ok (s.readAs (cmdReader id) 0 false pa k).2.1) := by
    simp only [State.getPiece, hl]
  simp only [State.feRead, hp, State.getPieces, e]
  cases (s.readAs (cmdReader id) 0 false pa k).2.2 <;> exact this

/-! ### What shared operations answer -/

/-- Data on a window is marked as bad exactly where the command names a wire that the package has, which is then counted and
reported (R18). -/
theorem linkMark_cases (s : State) (link : Option Nat) :
    (∃ w, link = some w ∧ wireReal w = true ∧ s.linkMark link = (s.badCodeword w, true)) ∨
    ((∀ w, link = some w → wireReal w = false) ∧ s.linkMark link = (s, false)) := by
  unfold State.linkMark
  cases link with
  | none => exact .inr ⟨fun w h => (nomatch h), rfl⟩
  | some w =>
    by_cases hw : wireReal w = true
    · exact .inl ⟨w, rfl, hw, by simp [Option.filter, hw]⟩
    · refine .inr ⟨fun v h => ?_, by simp [Option.filter, hw]⟩
      cases h
      simpa using hw

/-- A completion leaves by a module that works, of the Quay that took the request first (R32); with all eight retired nothing
leaves. -/
theorem complete_cases (s : State) (mod : Nat) (m : Nat → Emit) :
    (∃ v, s.exitQuay (mod / 4 % 2) = some v ∧ s.complete mod m = s.emit (m v)) ∨
    (s.exitQuay (mod / 4 % 2) = none ∧ s.complete mod m = s) := by
  unfold State.complete State.toHost
  cases s.exitQuay (mod / 4 % 2) with
  | none => exact .inr ⟨rfl, rfl⟩
  | some v => exact .inl ⟨v, rfl, rfl⟩

end Laws
end Sys2Proof
end

