-- ==== Sys2Proof/Laws/Issue.lean ====
section
/-! SUPPORT. The issue of a core instruction, once: what an operation that issues leaves is what its body leaves, and the
laws of the registers, predicates and program counters of a core. -/

namespace Sys2Proof.Machine

/-- The issue of a legal word is its body's effect. -/
theorem State.instr_of_issues {s : State} {cls op : Nat} {at' : Issue} {w : BitVec 128} {o : Op}
    {body : Op → State → State} (h : Issues s cls op at' w o) : s.instr cls op at' w body = body o s := by
  obtain ⟨⟨hc, hg, hp, hw⟩, hgood, hrun, hb, hf, ht, hn, ha, he, hs, ⟨p, pa, hx⟩, ⟨h1, h2⟩, hl⟩ := h
  rcases o with ⟨core, group, pc, w', blk, all, ex⟩
  dsimp only at *
  subst hc hg hp hw
  have hne : all ≠ [] := by rintro rfl; exact hs he.symm
  obtain ⟨a, l, rfl⟩ := List.exists_cons_of_ne_nil hne
  obtain ⟨b, m, rfl⟩ := List.exists_cons_of_ne_nil hs
  simp only [Core.canIssue, Bool.and_eq_true, Bool.not_eq_true', Option.isNone_iff_eq_none] at hf
  have word : s.issueWord cls op at' w.toNat blk (a :: l) body = body ⟨at'.core, at'.group, at'.pc, w.toNat, blk, a :: l, b :: m⟩ s := by
    simp [State.issueWord, h1, h2, hl.1, hl.2, he, hgood]
  have fetch : s.issueAt cls op at' w.toNat blk (a :: l) body = body ⟨at'.core, at'.group, at'.pc, w.toNat, blk, a :: l, b :: m⟩ s := by
    simp [State.issueAt, hx, word]
  unfold State.instr
  simp only [hb, ha, hf.1, hf.2, hrun, ht, fetch]
  by_cases c : s.dbg.target = Option.some blk.ctx
  · simp [c, hn c]
  · simp [c]

section
variable {k : Core}

@[simp] theorem Core.reg_setReg_same {t r : Nat} {v : Lane} : (k.setReg t r v).reg t r = v := tabGet_set_same

theorem Core.reg_setReg_ne {t r t' r' : Nat} {v : Lane} (h : t' * 256 + r' ≠ t * 256 + r) : (k.setReg t r v).reg t' r' = k.reg t' r' :=
  tabGet_set_ne h

theorem Core.reg_setRegs_ne {t' r' : Nat} : ∀ {n : Nat} {k : Core} {t r v : Nat},
    (∀ i, i < n → t' * 256 + r' ≠ t * 256 + (r + i)) → (k.setRegs t r v n).reg t' r' = k.reg t' r'
  | 0, _, _, _, _, _ => rfl
  | n + 1, k, t, r, v, h => by
    have h0 := h 0 (by omega)
    rw [Core.setRegs, reg_setRegs_ne fun i hi => by have := h (i + 1) (by omega); omega, reg_setReg_ne (by simpa using h0)]

theorem Core.regs_congr {t r n : Nat} {k' : Core} (h : ∀ i, i < n → k'.reg t (r + i) = k.reg t (r + i)) :
    k'.regs t r n = k.regs t r n := by
  induction n generalizing r with
  | zero => rfl
  | succ n ih =>
    simp only [Core.regs]
    have h0 := h 0 (by omega)
    rw [Nat.add_zero] at h0
    rw [h0, ih fun i hi => by have := h (i + 1) (by omega); rwa [show r + (i + 1) = r + 1 + i by omega] at this]

/-- Registers read what was written to them, modulo their width. -/
theorem Core.regs_setRegs_same : ∀ {n : Nat} {k : Core} {t r v : Nat}, (k.setRegs t r v n).regs t r n = v % 2 ^ (32 * n)
  | 0, k, t, r, v => by simp [Core.regs, Nat.mod_one]
  | n + 1, k, t, r, v => by
    have e : (2 : Nat) ^ (32 * (n + 1)) = 2 ^ 32 * 2 ^ (32 * n) := by rw [← Nat.pow_add]; congr 1; omega
    rw [Core.setRegs, Core.regs, regs_setRegs_same, reg_setRegs_ne (fun i _ => by omega), reg_setReg_same, e,
      Nat.mod_mul, BitVec.toNat_ofNat]

@[simp] theorem Core.setRegs_rest : ∀ {n : Nat} {k : Core} {t r v : Nat}, { k.setRegs t r v n with t := k.t } = k
  | 0, _, _, _, _ => rfl
  | n + 1, k, t, r, v => by
    have := setRegs_rest (n := n) (k := k.setReg t r (BitVec.ofNat 32 v)) (t := t) (r := r + 1) (v := v / 2 ^ 32)
    rw [Core.setRegs]
    generalize (k.setReg t r (BitVec.ofNat 32 v)).setRegs t (r + 1) (v / 2 ^ 32) n = k' at this
    cases k'; cases k
    simp only [Core.setReg, Core.mk.injEq] at this ⊢
    simp_all

@[simp] theorem Core.thPc_setPc_same {t v : Nat} : (k.setPc t v).thPc t = v % 2 ^ 64 := tabGet_set_same

theorem Core.thPc_setPc_ne {t t' v : Nat} (h : t' ≠ t) : (k.setPc t v).thPc t' = k.thPc t' := tabGet_set_ne h

@[simp] theorem mem_setIns {l : List Nat} {i j : Nat} : j ∈ setIns l i ↔ j = i ∨ j ∈ l := by
  induction l with
  | nil => simp [setIns]
  | cons a t ih =>
    simp only [setIns]
    split
    · rename_i e; subst e; simp
    · split
      · simp
      · simp only [List.mem_cons, ih]; exact ⟨by rintro (h | h | h) <;> simp [h], by rintro (h | h | h) <;> simp [h]⟩

@[simp] theorem mem_setDel {l : List Nat} {i j : Nat} : j ∈ setDel l i ↔ j ∈ l ∧ j ≠ i := by simp [setDel]

@[simp] theorem Core.pred_setPred_same {t i : Nat} {b : Bool} : (k.setPred t i b).pred t i = b := by
  cases b <;> simp [Core.pred, Core.setPred]

theorem Core.pred_setPred_ne {t i t' i' : Nat} {b : Bool} (h : t' * 8 + i' ≠ t * 8 + i) :
    (k.setPred t i b).pred t' i' = k.pred t' i' := by
  cases b <;> simp [Core.pred, Core.setPred, h]

@[simp] theorem Core.ureg_setUreg_same {g r v : Nat} : (k.setUreg g r v).ureg g r = BitVec.ofNat 64 v := tabGet_set_same

theorem Core.ureg_setUreg_ne {g r g' r' v : Nat} (h : g' * 64 + r' ≠ g * 64 + r) : (k.setUreg g r v).ureg g' r' = k.ureg g' r' :=
  tabGet_set_ne h

@[simp] theorem Core.flags_raiseFlags_same {g f : Nat} : (k.raiseFlags g f).flags g = k.flags g ||| f := tabGet_set_same

theorem Core.flags_raiseFlags_ne {g g' f : Nat} (h : g' ≠ g) : (k.raiseFlags g f).flags g' = k.flags g' := tabGet_set_ne h

/-- The program counters after an advance of threads that are named once. -/
theorem Core.thPc_advance : ∀ {l : List Nat} {k : Core} {th : Nat}, l.Nodup →
    (k.advance l).thPc th = if th ∈ l then (k.thPc th + 16) % 2 ^ 64 else k.thPc th
  | [], _, _, _ => by simp [Core.advance]
  | a :: l, k, th, h => by
    have ha := List.nodup_cons.1 h
    have ih := thPc_advance (l := l) (k := k.setPc a (k.thPc a + 16)) (th := th) ha.2
    rw [show k.advance (a :: l) = (k.setPc a (k.thPc a + 16)).advance l from rfl, ih]
    by_cases c : th = a
    · subst c; simp [ha.1]
    · rw [thPc_setPc_ne c]; simp [c]

theorem Core.advance_rest : ∀ {l : List Nat} {k : Core}, { k.advance l with pc := k.pc } = k
  | [], _ => rfl
  | a :: l, k => by
    have := advance_rest (l := l) (k := k.setPc a (k.thPc a + 16))
    rw [show k.advance (a :: l) = (k.setPc a (k.thPc a + 16)).advance l from rfl]
    generalize (k.setPc a (k.thPc a + 16)).advance l = k' at this
    cases k'; cases k
    simp only [Core.setPc, Core.mk.injEq] at this ⊢
    simp_all

/-- A fragment names every thread once. -/
theorem Core.fragment_nodup {g pc : Nat} : (k.fragment g pc).Nodup := by
  have h : (((List.range 32).map (g * 32 + ·)).filter fun t => k.live.contains t && k.thPc t == pc && (tabFind k.wait t).isNone).Nodup := by
    refine List.Pairwise.filter _ (List.Pairwise.map _ (fun a b h e => h ?_) List.nodup_range)
    omega
  unfold Core.fragment
  dsimp only
  split
  · exact h
  · exact List.Pairwise.filter _ h

end

end Sys2Proof.Machine
end

