-- ==== Sys2Proof/Laws/Lanes.lean ====
section
/-! SUPPORT. What the shared lane operations do, once: each executing thread's destination, the frame, and the advance of
program counters. -/

namespace Sys2Proof.Machine

theorem nodup_filter {l m : List Nat} {p : Nat → Bool} (h : l.filter p = m) (hl : l.Nodup) : m.Nodup := by
  subst h; exact List.Pairwise.filter _ hl

/-- Folded writes of n registers: an executing thread's hold its value, others are unchanged. -/
theorem Core.lanes_fold {d n : Nat} {f : Nat → Nat} (hd : d + n ≤ 256) : ∀ {l : List Nat} {k : Core}, l.Nodup →
    (∀ th ∈ l, (l.foldl (fun r t => r.setRegs t d (f t) n) k).regs th d n = f th % 2 ^ (32 * n)) ∧
    (∀ th r, r < 256 → ¬(th ∈ l ∧ d ≤ r ∧ r < d + n) → (l.foldl (fun r t => r.setRegs t d (f t) n) k).reg th r = k.reg th r) ∧
    { l.foldl (fun r t => r.setRegs t d (f t) n) k with t := k.t } = k
  | [], k, _ => by simp
  | a :: l, k, h => by
    have ha := List.nodup_cons.1 h
    obtain ⟨i1, i2, i3⟩ := lanes_fold hd (l := l) (k := k.setRegs a d (f a) n) ha.2
    simp only [List.foldl_cons]
    generalize l.foldl (fun r t => r.setRegs t d (f t) n) (k.setRegs a d (f a) n) = k' at i1 i2 i3
    refine ⟨?_, ?_, ?_⟩
    · intro th ht
      by_cases c : th = a
      · subst c
        rw [regs_congr (k := k.setRegs th d (f th) n) fun i hi => i2 th (d + i) (by omega) (fun x => ha.1 x.1), regs_setRegs_same]
      · exact i1 th (by simpa [c] using ht)
    · intro th r hr hn
      rw [i2 th r hr fun x => hn ⟨by simp [x.1], x.2⟩]
      refine reg_setRegs_ne fun i hi => ?_
      by_cases c : th = a
      · subst c
        have : ¬(d ≤ r ∧ r < d + n) := fun x => hn ⟨by simp, x⟩
        omega
      · omega
    · have e := setRegs_rest (n := n) (k := k) (t := a) (r := d) (v := f a)
      generalize k.setRegs a d (f a) n = k1 at i3 e
      cases k'; cases k; cases k1
      simp only [Core.mk.injEq] at i3 e ⊢
      simp_all

/-- Folded writes of one predicate. -/
theorem Core.preds_fold {d : Nat} {f : Nat → Bool} (hd : d < 8) : ∀ {l : List Nat} {k : Core}, l.Nodup →
    (∀ th ∈ l, (l.foldl (fun r t => r.setPred t d (f t)) k).pred th d = f th) ∧
    (∀ th j, j < 8 → ¬(th ∈ l ∧ j = d) → (l.foldl (fun r t => r.setPred t d (f t)) k).pred th j = k.pred th j) ∧
    { l.foldl (fun r t => r.setPred t d (f t)) k with p := k.p } = k
  | [], k, _ => by simp
  | a :: l, k, h => by
    have ha := List.nodup_cons.1 h
    obtain ⟨i1, i2, i3⟩ := preds_fold (f := f) hd (l := l) (k := k.setPred a d (f a)) ha.2
    simp only [List.foldl_cons]
    generalize l.foldl (fun r t => r.setPred t d (f t)) (k.setPred a d (f a)) = k' at i1 i2 i3
    refine ⟨?_, ?_, ?_⟩
    · intro th ht
      by_cases c : th = a
      · subst c
        rw [i2 th d hd fun x => ha.1 x.1, pred_setPred_same]
      · exact i1 th (by simpa [c] using ht)
    · intro th j hj hn
      rw [i2 th j hj fun x => hn ⟨by simp [x.1], x.2⟩]
      refine pred_setPred_ne ?_
      by_cases c : th = a
      · subst c
        have : ¬(j = d) := fun x => hn ⟨by simp, x⟩
        omega
      · omega
    · cases k'; cases k
      simp only [Core.setPred, Core.mk.injEq] at i3 ⊢
      simp_all

theorem Core.advance_keep {l : List Nat} {k : Core} : k.advance l = { k with pc := (k.advance l).pc } := by
  have h := advance_rest (l := l) (k := k)
  generalize k.advance l = k' at h ⊢
  rw [← h]

/-- The instruction's end over a core whose program counters and fragment are the old ones. -/
theorem State.done_onCore {s : State} {o : Op} {k : Core} {keep : Core → Core → Core} {P : Core → Core → Prop}
    (hn : o.all.Nodup) (hp : P (s.core o.core) ((k.advance o.all).counted o.group o.all))
    (hpc : k.pc = (s.core o.core).pc ∧ k.turns = (s.core o.core).turns ∧ k.lastTurn = (s.core o.core).lastTurn)
    (hk : keep (s.core o.core) k = s.core o.core) : OnCore o s (s.done o k) keep P := by
  obtain ⟨h1, h2, h3⟩ := hpc
  refine ⟨(k.advance o.all).counted o.group o.all, rfl, hp, fun th => ?_, ?_, ?_⟩
  · refine (Core.thPc_advance (k := k) hn).trans ?_
    simp only [Core.thPc, h1]
  · rw [Core.advance_keep]
    simp only [Counted, Core.counted, h2, h3, and_self]
  · have e : { (k.advance o.all).counted o.group o.all with pc := k.pc, turns := k.turns, lastTurn := k.lastTurn } = k := by
      rw [Core.advance_keep]; rfl
    rw [← h1, ← h2, ← h3, e, hk]

@[simp] theorem Core.reg_advance {l : List Nat} {k : Core} {t r : Nat} : (k.advance l).reg t r = k.reg t r := by
  rw [advance_keep]; rfl

@[simp] theorem Core.reg_counted {g : Nat} {l : List Nat} {k : Core} {t r : Nat} : (k.counted g l).reg t r = k.reg t r := rfl

@[simp] theorem Core.regs_counted {g : Nat} {l : List Nat} {k : Core} {t r n : Nat} : (k.counted g l).regs t r n = k.regs t r n :=
  regs_congr fun _ _ => rfl

@[simp] theorem Core.regs_advance {l : List Nat} {k : Core} {t r n : Nat} : (k.advance l).regs t r n = k.regs t r n :=
  regs_congr fun _ _ => reg_advance

/-- `lanesT`, whole. -/
theorem State.lanesT_writes {s : State} {o : Op} {n : Nat} {f : Core → Nat → Nat} (hn : o.all.Nodup) (he : o.ex.Nodup)
    (hd : wD o.w + n ≤ 256) : Writes o n (f (s.core o.core)) s (s.lanesT o n f) := by
  obtain ⟨i1, i2, i3⟩ := Core.lanes_fold (f := f (s.core o.core)) hd (k := s.core o.core) he
  refine done_onCore hn ⟨fun th ht => ?_, fun th r hr hh => ?_⟩ ?_ i3
  · rw [Core.regs_counted, Core.regs_advance]; exact i1 th ht
  · rw [Core.reg_counted, Core.reg_advance]; exact i2 th r hr hh
  · have h1 := congrArg Core.pc i3; have h2 := congrArg Core.turns i3; have h3 := congrArg Core.lastTurn i3; exact ⟨h1, h2, h3⟩

/-- `lanesP`, whole. -/
theorem State.lanesP_writes {s : State} {o : Op} {f : Core → Nat → Bool} (hn : o.all.Nodup) (he : o.ex.Nodup)
    (hd : wD o.w < 8) : WritesPred o (f (s.core o.core)) s (s.lanesP o f) := by
  obtain ⟨i1, i2, i3⟩ := Core.preds_fold (f := f (s.core o.core)) hd (k := s.core o.core) he
  refine done_onCore hn ⟨fun th ht => ?_, fun th r hr hh => ?_⟩ ?_ i3
  · rw [Core.advance_keep]; exact i1 th ht
  · rw [Core.advance_keep]; exact i2 th r hr hh
  · have h1 := congrArg Core.pc i3; have h2 := congrArg Core.turns i3; have h3 := congrArg Core.lastTurn i3; exact ⟨h1, h2, h3⟩

/-- Folds of a step and of the step with flags agree but for FSTAT, whose word takes every lane's flags. -/
theorem Core.flags_fold {g : Nat} {f : Nat → Nat} {st : Core → Nat → Core}
    (h1 : ∀ (k : Core) (v : Tab Nat) t, st { k with fstat := v } t = { st k t with fstat := v })
    (h2 : ∀ (k : Core) t, (st k t).fstat = k.fstat) : ∀ {l : List Nat} {k : Core},
    let k' := l.foldl (fun r t => (st r t).raiseFlags g (f t)) k
    k' = { l.foldl st k with fstat := k'.fstat } ∧
    k'.flags g = l.foldl (fun a t => a ||| f t) (k.flags g) ∧ ∀ g', g' ≠ g → k'.flags g' = k.flags g'
  | [], k => by simp
  | a :: l, k => by
    have fr : ∀ (k : Core) (v : Tab Nat), l.foldl st { k with fstat := v } = { l.foldl st k with fstat := v } := by
      induction l with
      | nil => intro k v; rfl
      | cons b m ih => intro k v; rw [List.foldl_cons, h1, ih, List.foldl_cons]
    obtain ⟨i1, i2, i3⟩ := flags_fold (g := g) (f := f) h1 h2 (l := l) (k := (st k a).raiseFlags g (f a))
    simp only [List.foldl_cons]
    refine ⟨?_, ?_, ?_⟩
    · rw [i1]
      dsimp only
      rw [show (st k a).raiseFlags g (f a) = { st k a with fstat := ((st k a).raiseFlags g (f a)).fstat } from rfl, fr]
    · rw [i2, flags_raiseFlags_same]
      simp [Core.flags, h2]
    · intro g' hg
      rw [i3 g' hg, flags_raiseFlags_ne hg]
      simp [Core.flags, h2]

theorem Core.setRegs_fstat : ∀ {n : Nat} {k : Core} {t r v : Nat}, (k.setRegs t r v n).fstat = k.fstat := by
  intro n k t r v
  have := congrArg Core.fstat (setRegs_rest (n := n) (k := k) (t := t) (r := r) (v := v))
  exact this

theorem Core.setRegs_withFlags : ∀ {n : Nat} {k : Core} {v : Tab Nat} {t r x : Nat},
    ({ k with fstat := v }).setRegs t r x n = { k.setRegs t r x n with fstat := v }
  | 0, _, _, _, _, _ => rfl
  | n + 1, k, v, t, r, x => by
    rw [Core.setRegs, Core.setRegs]
    exact setRegs_withFlags (n := n) (k := k.setReg t r (BitVec.ofNat 32 x))

/-- `lanesF`, whole. -/
theorem State.lanesF_writes {s : State} {o : Op} {n : Nat} {f : Core → Nat → Nat × Nat} (hn : o.all.Nodup) (he : o.ex.Nodup)
    (hd : wD o.w + n ≤ 256) : WritesFlags o n (f (s.core o.core)) s (s.lanesF o n f) := by
  obtain ⟨i1, i2, i3⟩ := Core.lanes_fold (f := fun t => (f (s.core o.core) t).1) hd (k := s.core o.core) he
  have fl := Core.flags_fold (g := o.group) (f := fun t => (f (s.core o.core) t).2)
    (st := fun r t => r.setRegs t (wD o.w) (f (s.core o.core) t).1 n) (fun k v t => Core.setRegs_withFlags)
    (fun k t => Core.setRegs_fstat) (l := o.ex) (k := s.core o.core)
  unfold lanesF
  dsimp only at fl ⊢
  generalize o.ex.foldl (fun r t => (r.setRegs t (wD o.w) (f (s.core o.core) t).1 n).raiseFlags o.group (f (s.core o.core) t).2)
    (s.core o.core) = k' at fl
  generalize o.ex.foldl (fun r t => r.setRegs t (wD o.w) (f (s.core o.core) t).1 n) (s.core o.core) = k1 at i1 i2 i3 fl
  obtain ⟨f1, f2, f3⟩ := fl
  have hr : ∀ th r, k'.reg th r = k1.reg th r := by intro th r; rw [f1]; rfl
  refine done_onCore hn ⟨⟨fun th ht => ?_, fun th r hr' hh => ?_⟩, ?_, fun g hg => ?_⟩ ?_ ?_
  · rw [Core.regs_counted, Core.regs_advance, Core.regs_congr fun i _ => hr th (wD o.w + i)]; exact i1 th ht
  · rw [Core.reg_counted, Core.reg_advance, hr]; exact i2 th r hr' hh
  · rw [Core.advance_keep]; exact f2
  · rw [Core.advance_keep]; exact f3 g hg
  · rw [f1]; have h1 := congrArg Core.pc i3; have h2 := congrArg Core.turns i3; have h3 := congrArg Core.lastTurn i3; exact ⟨h1, h2, h3⟩
  · rw [f1]
    exact congrArg (fun k : Core => { k with fstat := (s.core o.core).fstat }) i3

/-- The fold of FSETP: predicates, flags, and nothing else. -/
theorem State.predsF_writes {s : State} {o : Op} {f : Nat → Bool × Nat} (hn : o.all.Nodup) (he : o.ex.Nodup) (hd : wD o.w < 8) :
    OnCore o s (s.done o (o.ex.foldl (fun r t => (r.setPred t (wD o.w) (f t).1).raiseFlags o.group (f t).2) (s.core o.core)))
      (fun k k' => { k' with p := k.p, fstat := k.fstat }) fun k k' =>
        LanePreds o (wD o.w) (fun th => (f th).1) k k' ∧ LaneFlags o (fun th => (f th).2) k k' := by
  obtain ⟨i1, i2, i3⟩ := Core.preds_fold (f := fun t => (f t).1) hd (k := s.core o.core) he
  have fl := Core.flags_fold (g := o.group) (f := fun t => (f t).2) (st := fun r t => r.setPred t (wD o.w) (f t).1)
    (fun k v t => rfl) (fun k t => rfl) (l := o.ex) (k := s.core o.core)
  dsimp only at fl
  generalize o.ex.foldl (fun r t => (r.setPred t (wD o.w) (f t).1).raiseFlags o.group (f t).2) (s.core o.core) = k' at fl
  generalize o.ex.foldl (fun r t => r.setPred t (wD o.w) (f t).1) (s.core o.core) = k1 at i1 i2 i3 fl
  obtain ⟨f1, f2, f3⟩ := fl
  have hr : ∀ th i, k'.pred th i = k1.pred th i := by intro th i; rw [f1]; rfl
  refine done_onCore hn ⟨⟨fun th ht => ?_, fun th r hr' hh => ?_⟩, ?_, fun g hg => ?_⟩ ?_ ?_
  · rw [Core.advance_keep]; exact (hr th _).trans (i1 th ht)
  · rw [Core.advance_keep]; exact (hr th r).trans (i2 th r hr' hh)
  · rw [Core.advance_keep]; exact f2
  · rw [Core.advance_keep]; exact f3 g hg
  · rw [f1]; have h1 := congrArg Core.pc i3; have h2 := congrArg Core.turns i3; have h3 := congrArg Core.lastTurn i3; exact ⟨h1, h2, h3⟩
  · rw [f1]
    exact congrArg (fun k : Core => { k with fstat := (s.core o.core).fstat }) i3

/-- A write of one uniform register, whole. -/
theorem State.uniform_writes {s : State} {o : Op} {v : Nat} (hn : o.all.Nodup) (hd : wD o.w < 64) :
    WritesUniform o (BitVec.ofNat 64 v) s (s.done o ((s.core o.core).setUreg o.group (wD o.w) v)) := by
  refine done_onCore hn ⟨?_, fun g r hr hh => ?_⟩ ⟨rfl, rfl, rfl⟩ rfl
  · rw [Core.advance_keep]; exact Core.ureg_setUreg_same
  · rw [Core.advance_keep]
    refine Core.ureg_setUreg_ne ?_
    by_cases c : g = o.group
    · subst c; have : r ≠ wD o.w := fun x => hh ⟨rfl, x⟩; omega
    · omega

/-- The issue of a fragment names every thread once. -/
theorem Issues.nodup {s : State} {cls op : Nat} {at' : Issue} {w : BitVec 128} {o : Op} (h : Issues s cls op at' w o) :
    o.all.Nodup ∧ o.ex.Nodup := by
  have ha : o.all.Nodup := by rw [← h.all]; exact Core.fragment_nodup
  exact ⟨ha, nodup_filter h.ex ha⟩

end Sys2Proof.Machine
end

