-- ==== Sys2Proof/Tests/Slice0.lean ====
section
/-! SUPPORT. Tests: an ill-formed operand for each check, one step on small states, and for every statement a state and
operands that meet its hypotheses. -/

namespace Sys2Proof.Tests

open Sys2Proof.Machine

/-- A test of the next state that a command answers. -/
def nextIs (o : Out) (p : State → Bool) : Bool := match o with | .next t => p t | _ => false

/-- The machine at a step of the start-up, no input asserted but PWR_GOOD. -/
def st0 (p : Phase) (regs : Tab (BitVec 64)) : State :=
  { State.reset with boot := { Boot.reset with phase := p, dev0 := true, dev1 := true }, regs := regs }

/-- The machine after these samples of an input, newest first, and no other. -/
def seen (p : Pin) (l : List Bool) (s : State) : State := { s with boot := { s.boot with pinHist := [(p.index, l)] } }

/-- Thread 0 of core 0 stands at 0, in a core block of context 1 of 32 threads, with R1 = 7 and R2 = 5; the core caches a
translation of the page at 0 for every access. -/
def stCore (f : Core → Core) : State :=
  { st0 .ready [] with
    cores := [(0, f { Core.idle with blk := some ⟨1, 1, 0, 0, 32, false, false, 0⟩, live := [0], t := [(1, 7), (2, 5)] })]
    host := { HostIf.reset with tlb := [⟨0, 0, 1, 0, 12, 0, true, true, 0, false, false⟩] } }

/-- An instruction word from its fields: lowest bit and value. -/
def enc (l : List (Nat × Nat)) : BitVec 128 := BitVec.ofNat 128 (l.foldl (fun a e => a + e.2 * 2 ^ e.1) 0)

/-- The operation that a word issues as. -/
def opAt (s : State) (at' : Issue) (w : BitVec 128) : Op :=
  let k := s.core at'.core
  let l := k.fragment at'.group at'.pc
  ⟨at'.core, at'.group, at'.pc, w.toNat, k.blk.getD ⟨0, 0, 0, 0, 0, false, false, 0⟩, l, l.filter (guardOk k w.toNat)⟩

/-- The word issues, as a computation. -/
def issues (s : State) (cls op : Nat) (at' : Issue) (w : BitVec 128) : Bool :=
  let o := opAt s at' w
  let k := s.core o.core
  at'.bad == none && s.running && (k.blk == some o.blk) && k.canIssue && k.turn at' && (s.dbg.target != some o.blk.ctx || s.breakHit o.pc == none) && (o.ex != []) &&
  (match s.xlate o.core o.blk.ctx o.pc .fetch with | .ok _ _ => true | _ => false) &&
  (wClass o.w == cls) && (wOp o.w == op) && opDefined cls op o.w && legal o.w

theorem issues_sound {s : State} {cls op : Nat} {at' : Issue} {w : BitVec 128} (h : issues s cls op at' w = true) :
    Issues s cls op at' w (opAt s at' w) := by
  simp only [issues, Bool.and_eq_true, Bool.or_eq_true, bne_iff_ne, ne_eq, beq_iff_eq] at h
  obtain ⟨⟨⟨⟨⟨⟨⟨⟨⟨⟨⟨h0, h1⟩, h2⟩, h3⟩, h3'⟩, h4⟩, h5⟩, h6⟩, h7⟩, h8⟩, h9⟩, h10⟩ := h
  refine ⟨⟨rfl, rfl, rfl, rfl⟩, by simpa using h0, h1, h2, h3, h3', fun e => h4.resolve_left (· e), rfl, rfl, h5, ?_, ⟨h7, h8⟩, h9, h10⟩
  split at h6
  · exact ⟨_, _, by assumption⟩
  · exact absurd h6 (by decide)

/-! ### Well-formedness -/

set_option maxRecDepth 40000 in
/-- Ill-formed operands, one for each kind of check. -/
theorem test_illFormed1 : (([.ucieTrained [8], .pcieConfigRequest 8 1 1 none none, .pcieConfigRequest 0 64 1 none none,
    .pcieConfigRequest 0 1 1024 none none, .supplyOutOfRange 17 1000, .selfTestDone [] [24] true,
    .wearThresholdReached 7 1 1 1, .substitutionDrainComplete (2 ^ 32), .ucieModuleFailure 8,
    .registerWrite 1 (2 ^ 24) 8 0, .registerWrite 1 1 2 0, .registerWrite 64 1 8 0, .bar4Read 8 0 0 8 none,
    .hostReadCompletion 1 1 [] none, .pageWalkEntryRead 1024 1, .faultLogClear 1 16 0,
    .mov ⟨1024, 0, 0, none, []⟩ 0, .deviceBarrierArrival 1 16 1, .barrierWatchdogExpiry 1 3 1,
    .mma 1 1 0, .limiterFrameBoundary 16 1, .sluiceMessageArrival 64 1 1 1 none,
    .sluiceMessageArrival 1 1024 1 1 none, .sluiceMessageArrival 1 1 4 1 none, .directoryRebuildComplete 256 1,
    .directoryRebuildComplete 1 2048, .wbDirty 128 1 none, .wbDirty 1 (localTop / 128) none,
    .rdOnce 1 1 localTop 0, .wrLine 1 1 1 0 [] none, .csPsliceWrite 1 4 0,
    .csHomemapWrite 1024 0, .rowIdleClose 1536 1, .rowIdleClose 1 32,
    .refreshBandFall 12, .patrolScrubRead 1 21, .mcEvacRequest 1536, .debugAccessRead 8] : List Instr).all fun c => !c.wf) = true := by decide
set_option maxRecDepth 40000 in
/-- Ill-formed operands, the other half. -/
theorem test_illFormed2 : (([.commandFetch 4096 1 1 0 [], .commandFetch 1 1 1 0 [0], .headShadowRead 4096 1 1,
    .npOverrunLimit 1024, .berthConfigWrite 4096 false 0, .partitionConfigWrite 1 7 0,
    .functionBindWrite 0 0, .migrationFreeze 0, .dataFlit 36 1 [] (List.replicate 256 0),
    .dataFlit 1 3 [] (List.replicate 256 0), .dataFlit 1 1 [] [], .retransmitTimeout false 512 1,
    .portEnable 1 2, .trainingAttemptFailed 1 [4] false, .controlInterval [(1024, [])] true,
    .railReading 15 1 0 false, .voltageAck 8, .droopDetected 1 2 700,
    .temperatureConversion 416 0, .hotClear 24, .cvInit 4,
    .logEnableWrite 1 17 0, .snapshotFreezeToken (2 ^ 16), .dynamicAddressAssignment 128,
    .challenge .i3c 8 (List.replicate 32 0) [], .challenge .i3c 1 [] [], .rdOnce 0 1 0 0,
    .rdOnce 6 1 0 0, .wrLine 0 1 1 0 (List.replicate 128 0) none, .wrPart 1 1 0 0 [] none,
    .wrPart 1 1 127 0 [0, 0] none, .memoryReadResponse 1 [(4, 0)] false none, .mov ⟨0, 16, 0, none, []⟩ 0,
    .mov ⟨0, 0, 0x10000000000000, none, []⟩ 0] : List Instr).all fun c => !c.wf) = true := by decide
set_option maxRecDepth 40000 in
/-- Operands at the ends of their ranges. -/
theorem test_wellFormed : (([.registerWrite 0 0x100000 8 0, .doorbell 0 0 8 0, .mov ⟨1023, 15, 0, none, []⟩ 0,
    .dataFlit 35 0 [] (List.replicate 256 0), .pcieConfigRequest 7 0 1023 none none, .queueEnable 4095,
    .supplyOutOfRange 16 0, .functionBindWrite 63 0, .rdOnce 5 0 0 0] : List Instr).all fun c => c.wf) = true := by decide
/-- Hypotheses of StepRunsFrontCommand. -/
theorem witness_StepRunsFrontCommand : State.reset.pending = [] := rfl

/-- Hypotheses of StepKeepsCanonicalForm. -/
theorem witness_StepKeepsCanonicalForm : State.reset.Canonical ∧ step State.reset = .next State.reset :=
  ⟨by constructor <;> decide, rfl⟩

/-- Hypotheses of QueueIsFirstInFirstOut. -/
theorem witness_QueueIsFirstInFirstOut :
    step { State.reset with pending := [.refresh 0 0, .refresh 1 0] } = .next { State.reset with pending := [.refresh 1 0] } := rfl

/-- Hypotheses of StartUpSteps, clause by clause. -/
theorem witness_StartUpSteps :
    State.reset.Canonical ∧ State.reset.pinFilt .pkgReset = true ∧ State.reset.boot.phase = .held ∧
    State.reset.powerOk = true ∧ State.reset.boot.clockBad = false ∧
    (let s := seen .pkgReset [false, false, false, false] State.reset
     pinNext ((false :: s.pinSamples .pkgReset).take 100) true (s.pinChatter .pkgReset) = (false, false)) ∧
    (∀ n : Fin 12, (st0 (.running n) []).atStep n = true) ∧ (st0 (.running 1) []).Canonical ∧
    (st0 (.running 1) []).pinFilt .coolant = false := by
  refine ⟨?_, ?_⟩
  · constructor <;> decide
  · exact ⟨by decide, by decide, by decide, by decide, by decide, by decide, by constructor <;> decide, by decide⟩
/-- Step 8 leads on where the complexes pass and a Quay bridge link is in service. -/
theorem witness_StartUpSteps2 : (!true || (List.range 4).all ((st0 (.running 8) []).isRetired 6)) = false := by decide

/-- Hypotheses of FirmwareAndConfigurationRequests. -/
theorem witness_FirmwareAndConfigurationRequests :
    (st0 (.running 4) []).atStep 4 = true ∧
    ((st0 (.running 9) []).linkUp = true ∧ (st0 (.running 9) []).modules ≠ 0 ∧ (st0 (.running 9) []).boot.stopped = false ∧
      (st0 (.running 9) []).boot.phase ≠ .ready ∧ (st0 (.running 9) []).inRerun = false) ∧
    (st0 .ready []).moduleOut 0 = false ∧
    ((st0 .ready []).linkUp = true ∧ (st0 .ready []).modules ≠ 0 ∧ (st0 .ready []).boot.phase = .ready) := by decide

/-- Hypotheses of BoardInputs: PWR_GOOD asserts; deasserts; PKG_RESET_N, COOLANT_FAULT_N, VR_ALERT_N and TRST_N assert. -/
theorem witness_BoardInputs :
    (let s := seen .pwrGood [true, true, true, true] (st0 .held [])
     s.pinFilt .pwrGood = false ∧ s.pinNow .pwrGood true = (true, false)) ∧
    (let s := seen .pwrGood [false, false, false, false] (st0 .held pinHold)
     s.pinFilt .pwrGood = true ∧ s.pinChatter .pwrGood = false ∧ s.pinNow .pwrGood false = (false, false)) ∧
    (∀ p : Pin, p ≠ .pwrGood →
      let s := seen p [true, true, true, true] (st0 .ready [(A.PW_PIN_STAT 0, 3)])
      s.powerOk = true ∧ s.pinFilt p = false ∧ s.pinNow p true = (true, false)) := by
  refine ⟨by decide, by decide, fun p h => ?_⟩
  cases p
  · exact absurd rfl h
  all_goals decide
/-- COOLANT_FAULT_N and VR_ALERT_N deassert; chatter starts and ends. -/
theorem witness_BoardInputs2 :
    (let s := seen .coolant [false, false, false, false] (st0 .ready [(A.PW_PIN_STAT 2, 3)])
     s.pinFilt .coolant = true ∧ s.pinNow .coolant false = (false, false)) ∧
    (let s := seen .vrAlert [false, false, false, false] (st0 .ready [(A.PW_STAT, 0x1000), (A.PW_PIN_STAT 0, 3), (A.PW_PIN_STAT 3, 3)])
     s.powerOk = true ∧ s.pinFilt .vrAlert = true ∧ s.pinNow .vrAlert false = (false, false) ∧
      s.on F.PW_STAT_VRALERT = true ∧ s.on F.PW_STAT_VRSTUCK = false) ∧
    (let s := seen .trst [false, true, false, true, false, true, false, true, false] (st0 .ready [(A.PW_PIN_STAT 0, 3), (A.PW_PIN_STAT 4, 3)])
     s.pinFilt .trst = true ∧ s.pinChatter .trst = false ∧ s.pinNow .trst true = (true, true) ∧ s.running = true ∧ s.powerOk = true) ∧
    (let s := seen .vrAlert [false, false] (st0 .held [(A.PW_PIN_STAT 3, 7)])
     s.pinFilt .vrAlert = true ∧ s.pinChatter .vrAlert = true ∧ s.pinNow .vrAlert false = (true, false)) ∧
    (st0 .ready [(A.PW_PIN_STAT 0, 3), (A.PW_PIN_STAT 2, 3)]).on (F.PW_PIN_STAT_STUCK 2) = false ∧
    (st0 .ready [(A.PW_PIN_STAT 0, 3)]).pinFilt .pwrGood = true ∧ (st0 .ready []).supplyOut 0 900 = true := by decide
/-- A replacement under way. -/
def stR (r : Repl) : State := { st0 .ready [] with sp := { Spare.reset with repl := [r] } }

/-- Hypotheses of WearAndSparing: a threshold of 3 reached and not reached, a wire draining and training, a module that
fails, a spare cluster, a free SP_RETIRE, a repair record update. -/
theorem witness_WearAndSparing :
    ((st0 .ready [(A.SP_THR 3, 3)]).wear 3 5 1).wornOut 3 5 0 = false ∧
    ((st0 .ready [(A.SP_THR 3, 3)]).wear 3 5 3).wornOut 3 5 0 = true ∧
    ((st0 .ready [(A.SP_THR 6, 3)]).wear 6 5 3).wornOut 6 5 (2 ^ 32) = true ∧
    wearKey 3 5 ∉ (st0 .ready [(A.SP_THR 3, 3)]).sp.acted ∧
    (stR ⟨0, 7, 256, 1, 0, 0⟩).replFind 0 7 = some ⟨0, 7, 256, 1, 0, 0⟩ ∧
    (stR ⟨0, 7, 256, 2, 0, 0⟩).replFind 0 7 = some ⟨0, 7, 256, 2, 0, 0⟩ ∧
    (st0 .ready []).linkUp = true ∧ (st0 .ready []).running = true ∧ (st0 .ready []).isRetired 8 0 = false ∧
    (stR ⟨5, 3, 8, 1, 0, 1⟩).replFind 5 3 = some ⟨5, 3, 8, 1, 0, 1⟩ := by decide
theorem witness_WearAndSparing2 :
    (stR ⟨5, 3, 8, 2, 0, 1⟩).replFind 5 3 = some ⟨5, 3, 8, 2, 0, 1⟩ ∧ (stR ⟨5, 3, 8, 2, 0, 1⟩).clusterHeld 3 = false ∧
    ((stR ⟨5, 3, 8, 2, 0, 1⟩).clusterLines 3).any (stR ⟨5, 3, 8, 2, 0, 1⟩).busy = false ∧
    ((stR ⟨5, 3, 8, 2, 0, 1⟩).coh.wb.filter fun w => w.cluster == 3) = [] ∧
    ((stR ⟨5, 3, 8, 2, 0, 1⟩).coh.pend.any fun q => q.cluster == 3) = false ∧
    (st0 .ready []).barOk = true ∧ bit (5 : BitVec 64).toNat 32 = false ∧ (st0 .ready []).sp.recBusy = false ∧
    (st0 .ready []).on F.BT_UPD_CTL_BUSY = false ∧ (st0 .ready []).get F.SP_REC_STAT_SEQ + 1 ≤ 0xFFFFFFFE := by decide
/-- SP_RETIRE of cluster 3 and of slice 3. -/
theorem witness_WearAndSparing3 :
    (let v : BitVec 64 := 0x100030001
     let t := ((st0 .ready []).set F.SP_RETIRE_KIND (bits v.toNat 1 0)).set F.SP_RETIRE_UNIT 3
     bit v.toNat 32 = true ∧ bits v.toNat 1 0 = 1 ∧ bits v.toNat 27 16 = 3 ∧ t.clThere 3 = true ∧ t.replFind 5 3 = none ∧
      t.spareClusters 3 ≠ []) ∧
    (let v : BitVec 64 := 0x100030002
     let t := ((st0 .ready []).set F.SP_RETIRE_KIND (bits v.toNat 1 0)).set F.SP_RETIRE_UNIT 3
     bit v.toNat 32 = true ∧ bits v.toNat 1 0 = 2 ∧ bits v.toNat 27 16 = 3 ∧ t.slThere 3 = true ∧ t.replFind 4 3 = none ∧
      t.spareSlices 3 ≠ []) := by decide

/-- A queued event record, and log 16 enabled or not. -/
def stE (regs : Tab (BitVec 64)) (acks : Option (List Nat)) : State :=
  { st0 .ready regs with evr := { Recorder.reset with queue := [⟨0, 0, 1, 7, 16, 1, none, 0, 0x3FF, [], false⟩], snapAcks := acks, snapNum := 4 } }

/-- Hypotheses of RecorderAndSnapshots. -/
theorem witness_RecorderAndSnapshots :
    Regs.wf (stE [] none).regs = true ∧ (stE [] none).on (F.EV_LOG_CFG_EN 16) = false ∧ (stE [] none).evr.held.length < 256 ∧ (stE [] none).evr.adv = [] ∧ (stE [] none).evr.held = [] ∧
    (stE [(A.EV_LOG_CFG 16, 0x106)] none).on (F.EV_LOG_CFG_EN 16) = true ∧
    (stE [(A.EV_LOG_CFG 16, 0x106)] none).logUsed 16 < (stE [(A.EV_LOG_CFG 16, 0x106)] none).logSize 16 ∧
    (stE [] none).logAccess 0 3 = true ∧ bit (0x106 : BitVec 64).toNat 8 = true ∧
    (stE [(A.CS_HOMEMAP 0, 3)] none).logPlaceOk 3 (bits (0x106 : BitVec 64).toNat 4 0) = true ∧
    ((stE [] none).get (F.EV_LOG_WR_WR 3) + 2 ^ 32 - (0 : BitVec 64).toNat % 2 ^ 32) % 2 ^ 32 ≤ (stE [] none).logSize 3 ∧
    ((stE [] none).get (F.EV_LOG_WR_WR 3) + 2 ^ 32 - (1 : BitVec 64).toNat % 2 ^ 32) % 2 ^ 32 > (stE [] none).logSize 3 ∧
    (stE [] none).on F.EV_SNAP_BUSY = false ∧ (stE [] (some [])).snapThere 256 = true ∧
    (stE [] (some [])).evr.snapWait = [] ∧ (stE [] (some [])).tokenWaits 256 = false ∧
    ({ stE [] none with sp := { Spare.reset with repl := [⟨0, 2 ^ 29 + 7, 256, 1, 0, 0⟩] } } : State).tokenWaits 494 = true := by decide
theorem witness_RecorderAndSnapshots2 : (stE [] (some [])).snapAll (List.range 511) = true ∧
    (List.range 511).any (stE [] (some [])).tokenWaits = false := by
  refine ⟨?_, List.any_eq_false.2 fun u _ h => by simp [State.tokenWaits, stE, st0, State.reset, Spare.reset] at h⟩
  simp only [State.snapAll, List.all_eq_true, List.mem_range, List.contains_iff_mem, Bool.or_eq_true]
  exact fun _ h => Or.inr h

/-- A record leaves the queue for the held ones, and the snapshot's end shows its number. -/
theorem test_eventRecordWrite : nextIs (exec .eventRecordWrite (stE [] none)) (fun t => t.evr.held.length == 1 && t.evr.queue == []) = true := by
  decide
/-- A die with a step under way and a droop window. -/
def stP (step : Tab Nat) (droop : List Nat) : State := { st0 .ready [] with pow := { Power.reset with step := step, droop := droop } }

set_option maxRecDepth 40000 in
/-- Hypotheses of VoltageAndDroopSteps. -/
theorem witness_VoltageAndDroopSteps :
    (stP [] []).running = true ∧ (stP [] [2]).pow.droop.contains (2 * 1 + 0) = true ∧ (stP [] [2]).pow.droop.contains (2 * 1) = true ∧
    tabGet 0 (stP [(1, 2)] []).pow.step 1 = 2 ∧ (stP [(1, 2)] []).pow.droop = [] ∧ tabGet 0 (stP [(1, 3)] []).pow.step 1 = 3 ∧
    tabGet 0 (stP [(1, 1)] []).pow.step 1 = 1 ∧ tabGet 0 (stP [(1, 4)] []).pow.step 1 = 4 ∧
    (stP [(1, 2)] []).clockStopped 1 = false ∧
    tabGet 0 ({ stP [] [] with pow := { Power.reset with newMv := [(1, 800)] } } : State).pow.newMv 1 = 800 ∧
    (let s : State := ((stP [] []).set (F.PW_DIE_STAT_PSTATE 1) 3).set F.PW_VTAB_V8 800
     700 + s.droopMv < s.vtab (s.get (F.PW_DIE_STAT_PSTATE 1)) ∧ s.vtab (s.get (F.PW_DIE_STAT_PSTATE 1)) ≤ 790 + s.droopMv) := by decide
set_option maxRecDepth 40000 in
/-- A die whose cores are all gated while PF0 is in D3hot. -/
theorem witness_VoltageAndDroopSteps2 :
    ({ st0 .ready [] with pow := { Power.reset with d3 := true, gated := List.range 1024 } } : State).clockStopped 0 = true := by decide

/-- Hypotheses of PowerControlAndHeat: a reading of 1,100 mV and 10 A of rail 10, a point, a limit of 2,000 W and one of 100 W, four
voltages of 700 mV. -/
theorem witness_PowerControlAndHeat :
    (st0 .ready []).Canonical ∧ (st0 .ready []).running = true ∧
    (((1100 : Nat) : Int) - (st0 .ready []).railMv 10).natAbs * 5 ≤ (st0 .ready []).railMv 10 ∧
    (0 : Int) < 10 * ((1100 : Nat) : Int) ∧ (10 : Int) * ((1100 : Nat) : Int) ≤ 2 * (railBudget 10 : Int) ∧
    (st0 .ready []).boot.phase ≠ .held ∧ ((st0 .ready []).hottest 3).any (· ≥ 102) = false ∧ (st0 .ready []).barOk = true ∧
    1200 ≤ (2000 : BitVec 64).toNat % 4096 ∧ (2000 : BitVec 64).toNat % 4096 ≤ 2700 ∧ (100 : BitVec 64).toNat % 4096 < 1200 ∧
    tabGet 0 ({ st0 .ready [] with pow := { Power.reset with tripRun := [(0, 1)] } } : State).pow.tripRun 0 = 1 := by
  exact ⟨by constructor <;> decide, by decide⟩
theorem witness_PowerControlAndHeat2 :
    let v : BitVec 64 := 700 + 700 * 2 ^ 10 + 700 * 2 ^ 20 + 700 * 2 ^ 30
    bits v.toNat 9 0 ≤ 900 ∧ bits v.toNat 19 10 ≤ bits v.toNat 9 0 ∧ bits v.toNat 29 20 ≤ bits v.toNat 19 10 ∧
    bits v.toNat 39 30 ≤ bits v.toNat 29 20 ∧ 600 ≤ bits v.toNat 39 30 := by decide

/-- The second reading of 110 °C trips, R462. -/
theorem test_thermtrip :
    nextIs (exec (.temperatureConversion 0 110) ({ st0 .ready [] with pow := { Power.reset with tripRun := [(0, 1)] } } : State))
      (fun t => t.pow.trip && t.boot.stopped) = true := by decide
/-- A flash operation whose checks have passed. -/
def stU : State := { st0 .ready [] with boot := { (st0 .ready []).boot with upd := some ⟨1, 0, 0, [], 0, [], 0⟩ } }

/-- Hypotheses of FlashUpdatesAndRecovery. -/
theorem witness_FlashUpdatesAndRecovery :
    (st0 .ready []).Canonical ∧ (st0 .ready []).barOk = true ∧ (st0 .ready [(A.BT_UPD_CTL, 16)]).on F.BT_UPD_CTL_BUSY = true ∧
    (st0 .ready []).on F.BT_UPD_CTL_BUSY = false ∧ (st0 .ready []).boot.upd = none ∧ (st0 .ready []).on F.BT_STAT_LOCK = false ∧
    stU.boot.upd = some ⟨1, 0, 0, [], 0, [], 0⟩ ∧ (st0 (.recovery 5) []).inRecovery = true ∧
    (st0 (.recovery 5) []).boot.dev0 = true ∧
    (st0 (.unready 2 1) []).boot.phase = .unready 2 1 ∧ (st0 .ready []).running = true :=
  ⟨by constructor <;> decide, by decide⟩
theorem witness_FlashUpdatesAndRecovery2 : 1024 + [(0x51 : Byte)].length ≤ fwSlotSize := Nat.le_of_ble_eq_true rfl

/-- Hypotheses of SpdmAnswers, over the Data Object Exchange of PF0. -/
theorem witness_SpdmAnswers :
    (st0 .ready []).spdmOn (.doe 0) = true ∧ (st0 .ready []).on F.BT_STAT_IDFAIL = false ∧
    (st0 .ready [(A.BT_STAT, 0xFFFFFFFFFFFFFFFF)]).on F.BT_STAT_IDFAIL = true := by decide

/-- Hypotheses of TestAccessPort: the test hold, and the running device. -/
theorem witness_TestAccessPort :
    State.reset.powerOk = true ∧ State.reset.pinFilt .trst = false ∧ State.reset.pinFilt .pkgReset = true ∧ State.reset.boot.noPath = [] ∧ State.reset.sp.retired = [] ∧
    (st0 .ready [(A.PW_PIN_STAT 0, 3)]).powerOk = true ∧ (st0 .ready [(A.PW_PIN_STAT 0, 3)]).pinFilt .trst = false ∧
    (st0 .ready [(A.PW_PIN_STAT 0, 3)]).pinFilt .pkgReset = false := by decide

/-- Hypotheses of CheckValueUnit: an idle channel, and one that feeds. -/
theorem witness_CheckValueUnit :
    (st0 .ready []).Canonical ∧ (st0 .ready []).barOk = true ∧ (st0 .ready []).on (F.CV_CTL_BUSY 3) = false ∧
    (st0 .ready []).get (F.CV_ADDR_ADDR 3) + (st0 .ready []).get (F.CV_LEN_LEN 3) ≤ localTop ∧
    (st0 .ready [(A.CV_CTL 3, 4)]).on (F.CV_CTL_BUSY 3) = true ∧ (st0 .ready [(A.CV_CTL 3, 4)]).spanReady 0 0 = true := ⟨by constructor <;> decide, by decide⟩
/-- Hypotheses of PlainWritesRespectAccessCodes: PW_CTL, with its RW, W1C, W1S and RWL fields elsewhere in the map. -/
theorem witness_PlainWritesRespectAccessCodes :
    (st0 .ready []).Canonical ∧ (regDesc? A.PW_CTL).isSome = true ∧ (st0 .ready []).barOk = true ∧ 0x800000 ≤ A.PW_CTL ∧
    A.PW_CTL < 0x900000 ∧ A.PW_CTL % 8 = 0 ∧ A.PW_CTL ≠ A.PW_PKG_LIMIT ∧ A.PW_CTL ≠ A.PW_VTAB ∧
    (st0 .ready [(A.BT_STAT, 0xFFFFFFFFFFFFFFFF)]).on F.BT_STAT_LOCK = true := ⟨by constructor <;> decide, by decide⟩
theorem witness_PlainWritesRespectAccessCodes2 :
    (regMap.any fun d => d.fields.any fun f => f.acc == .w1c) = true ∧ (regMap.any fun d => d.fields.any fun f => f.acc == .rwl) = true := by decide

set_option maxRecDepth 100000 in
/-- Hypotheses of HostAccessesOfTheBars: BAR4 in local memory and beyond it, a 2-byte BAR0 access, an ACTIVE queue 0 of generation
1, and a synchronisation under way. -/
theorem witness_HostAccessesOfTheBars :
    (st0 .ready []).Canonical ∧ (st0 .ready []).boot.stopped = false ∧ (st0 .ready []).funcOk 0 = true ∧
    (st0 .ready []).bar4In 0 0x1000 8 = true ∧ (st0 .ready []).bar4Addr 0 0x1000 8 = some 0x1000 ∧
    (st0 .ready []).bar4In 0 localTop 8 = true ∧ (st0 .ready []).bar4Addr 0 localTop 8 = none ∧ bar0Fits 0 2 = false ∧
    ((st0 .ready []).readAs (bar4Reader 0) 6 false 0x1000 8).1.coh.stalled = false ∧ (st0 .ready []).coh.got = [] ∧
    (st0 .ready []).exitQuay 0 = some 0 ∧
    (({ st0 .ready [] with coh := { Coh.reset with waitq := [⟨1, .rdOnce, 0x1000, 16, 99, 0, 0x3FF, 0, 0, 6, 0⟩] } } : State).readAs
      (bar4Reader 0) 6 false 0x1000 8).1.coh.stalled = true ∧
    (st0 .ready [(A.PT_HWIN_SYNC, 0)]).get F.PT_HWIN_SYNC_DONE = 0 ∧ (st0 .ready []).host.reads = [] ∧ (st0 .ready []).cores = [] :=
  ⟨by constructor <;> decide, by decide⟩
theorem witness_HostAccessesOfTheBars2 :
    let s := st0 .ready [(A.FE_Q_CFG 0, 6), (A.FE_Q_STAT 0, 1)]
    s.qFunc 0 = 0 ∧ s.qState 0 = 1 ∧ bits (0x100000001 : BitVec 64).toNat 59 56 = 0 ∧ bits (0x100000001 : BitVec 64).toNat 63 60 = 0 ∧
    bits (0x100000001 : BitVec 64).toNat 47 32 = s.genOf (s.qFunc 0) ∧ bits (0x100000001 : BitVec 64).toNat 55 48 = s.get (F.FE_Q_STAT_EPOCH 0) ∧
    (bits (0x100000001 : BitVec 64).toNat 31 0 + 2 ^ 32 - s.get (F.FE_Q_PTR_TAIL 0)) % 2 ^ 32 ≤ 2 ^ s.get (F.FE_Q_CFG_SIZE 0) ∧
    (bits (0x100000001 : BitVec 64).toNat 31 0 + 2 ^ 32 - s.get (F.FE_Q_PTR_HEAD 0)) % 2 ^ 32 ≤ 2 ^ s.get (F.FE_Q_CFG_SIZE 0) ∧
    bits (1 : BitVec 64).toNat 47 32 ≠ s.genOf (s.qFunc 0) := by decide

/-- A walk of core 5 at a level whose entry holds a value, with the entry stored at address 0. -/
def stW (e : List Host.Cell) (lvl : Nat) : State :=
  { st0 .ready [] with mem := e, host := { HostIf.reset with
      walks := [⟨0, 5, 1, 0, 0x1000, 0, lvl, 0, false, 0, 0, [0], 0⟩], invs := [⟨0, none, none, 0, 2 ^ 64⟩] } }

/-- Hypotheses of TranslationAndPowerCommands: an absent entry faults, a next table, a leaf; a gated core that is waited for. -/
theorem witness_TranslationAndPowerCommands :
    (stW [] 0).Canonical ∧
    ((stW [] 3).host.walks.find? (sameWalk 5 0x1000)).isSome = true ∧
    (match (stW [] 3).walkLevel 3 0 0x1000 false .read with | .fault _ _ => true | _ => false) = true ∧
    (st0 .ready []).fnSees 0 3 = true ∧ bit (1 : BitVec 64).toNat 0 = true ∧ bit (0x80000000 : BitVec 64).toNat 31 = true ∧
    (st0 .ready []).on (F.PT_XLAT_INV_BUSY 0) = false ∧ ((stW [] 0).host.invs.find? fun x => x.func == 0).isSome = true ∧
    (stW [] 0).allLanded ⟨0, none, none, 0, 2 ^ 64⟩ = true ∧ (st0 .ready []).canGate 7 = true ∧ (st0 .ready []).running = true :=
  ⟨by constructor <;> decide, by decide⟩
set_option maxRecDepth 20000 in
theorem witness_TranslationAndPowerCommands2 :
    (match (stW [(0, 1), (1, 0x10)] 3).walkLevel 3 0 0x1000 false .read with | .next n => n == 4096 | _ => false) = true ∧
    (match (stW [(8, 3), (9, 0x50)] 0).walkLevel 0 0 0x1000 false .read with | .leaf p => p.pa == 0x5000 | _ => false) = true := by decide

/-- A core gated while a launch of a RUNNING context waits for it. -/
theorem witness_TranslationAndPowerCommands3 :
    let s : State := { st0 .ready [(A.PT_CTX_STAT 1, 2)] with
      pow := { Power.reset with gated := [9] }
      fe := { Front.reset with launches := [⟨1, 1, 0, 1, 0, 0, 1, 0, false, false, false, 0, [], 4, [9], none, 0, 0, []⟩] } }
    (s.ungating (9 / 64)).contains 9 = true := by decide
/-- Hypotheses of IntegerLaneResults: each row's word with D = R4, A = R1, B = R2 (a pair for SZ64), and MAD's C = R2. -/
theorem witness_IntegerLaneResults : ([1, 2, 3, 5, 6, 7, 8, 9, 0xA, 0xB, 0xC, 0xD, 0xE, 0xF].all fun op =>
    issues (stCore id) 1 op ⟨0, 0, 0, none, []⟩ (enc [(0, 1), (4, op), (24, 4), (32, 1), (40, if op = 1 ∨ op = 0xB then 0 else 2), (48, if op = 7 then 2 else 0)]) &&
    issues (stCore id) 1 op ⟨0, 0, 0, none, []⟩ (enc [(0, 1), (4, op), (24, 4), (32, 2), (40, if op = 1 ∨ op = 0xB then 0 else 8), (78, 1)])) = true := by decide
/-- ADD of 7 and 5, and the wrap of SUB (R188). -/
theorem test_add : nextIs (exec (.add ⟨0, 0, 0, none, []⟩ (enc [(0, 1), (4, 2), (24, 4), (32, 1), (40, 2)])) (stCore id)) (fun t =>
    (t.core 0).reg 0 4 == 12 && (t.core 0).thPc 0 == 16) = true := by decide
theorem test_sub_wraps : nextIs (exec (.sub ⟨0, 0, 0, none, []⟩ (enc [(0, 1), (4, 3), (24, 4), (32, 2), (40, 1)])) (stCore id)) (fun t =>
    (t.core 0).reg 0 4 == 0xFFFFFFFE) = true := by decide
/-- Hypotheses of ComparisonAndCrossLaneResults: a word of each row, VOTE's three functions and LRED's six. -/
theorem witness_ComparisonAndCrossLaneResults :
    (issues (stCore id) 1 0x04 ⟨0, 0, 0, none, []⟩ (enc [(0, 1), (4, 4), (24, 4), (32, 1), (40, 2), (48, 1), (60, 3)]) &&
     issues (stCore id) 1 0x10 ⟨0, 0, 0, none, []⟩ (enc [(0, 1), (4, 0x10), (24, 4), (62, 1), (32, 1), (40, 2), (80, 5), (77, 1)]) &&
     issues (stCore id) 1 0x11 ⟨0, 0, 0, none, []⟩ (enc [(0, 1), (4, 0x11), (24, 4), (32, 2), (40, 6), (48, 7), (60, 3), (78, 1)]) &&
     issues (stCore id) 1 0x12 ⟨0, 0, 0, none, []⟩ (enc [(0, 1), (4, 0x12), (24, 4), (62, 1), (32, 1), (40, 2), (48, 3), (56, 3), (58, 3), (60, 3), (96, 0x96)]) &&
     issues (stCore id) 1 0x13 ⟨0, 0, 0, none, []⟩ (enc [(0, 1), (4, 0x13), (24, 4), (32, 1)]) &&
     issues (stCore id) 1 0x14 ⟨0, 0, 0, none, []⟩ (enc [(0, 1), (4, 0x14), (24, 4), (32, 2), (78, 1)]) &&
     ([0, 1, 2, 3].all fun f => issues (stCore id) 1 0x15 ⟨0, 0, 0, none, []⟩ (enc [(0, 1), (4, 0x15), (24, 4), (32, 1), (40, 2), (84, f)])) &&
     issues (stCore id) 1 0x16 ⟨0, 0, 0, none, []⟩ (enc [(0, 1), (4, 0x16), (24, 4), (62, 1), (32, 1), (56, 3)]) &&
     issues (stCore id) 1 0x16 ⟨0, 0, 0, none, []⟩ (enc [(0, 1), (4, 0x16), (24, 4), (62, 1), (32, 1), (56, 3), (84, 1)]) &&
     issues (stCore id) 1 0x16 ⟨0, 0, 0, none, []⟩ (enc [(0, 1), (4, 0x16), (24, 4), (32, 1), (56, 3), (84, 2)]) &&
     ([0, 1, 2, 3, 4, 5].all fun f => issues (stCore id) 1 0x17 ⟨0, 0, 0, none, []⟩ (enc [(0, 1), (4, 0x17), (24, 4), (32, 1), (84, f)]))) = true := by decide
/-- R188: the carry out of 7 + 0xFFFFFFFF; R189: a ballot of the one executing lane. -/
theorem test_addc_carry : nextIs (exec (.addc ⟨0, 0, 0, none, []⟩ (enc [(0, 1), (4, 4), (24, 4), (32, 1), (58, 2), (48, 1), (60, 3), (96, 0xFFFFFFFF)])) (stCore id))
    (fun t => (t.core 0).reg 0 4 == 6 && (t.core 0).pred 0 1) = true := by decide
theorem test_vote_ballot : nextIs (exec (.vote ⟨0, 0, 0, none, []⟩ (enc [(0, 1), (4, 0x16), (24, 4), (32, 1), (56, 3), (84, 2)])) (stCore fun k => { k with p := [1] }))
    (fun t => (t.core 0).reg 0 4 == 1) = true := by decide

/-- Hypotheses of FloatingPointLaneResults: each FPU row in FP32 and FP64, a plain and two codebook conversions, an SFU word. -/
theorem witness_FloatingPointLaneResults :
    (([1, 2, 3, 4, 5].all fun op => issues (stCore id) 2 op ⟨0, 0, 0, none, []⟩ (enc [(0, 2), (4, op), (24, 4), (32, 1), (40, 2)]) &&
      issues (stCore id) 2 op ⟨0, 0, 0, none, []⟩ (enc [(0, 2), (4, op), (24, 4), (32, 2), (40, 6), (64, 1)])) &&
     issues (stCore id) 2 6 ⟨0, 0, 0, none, []⟩ (enc [(0, 2), (4, 6), (24, 4), (62, 1), (32, 1), (40, 2), (80, 13)]) &&
     issues (stCore id) 3 1 ⟨0, 0, 0, none, []⟩ (enc [(0, 3), (4, 1), (24, 4), (32, 1), (64, 2), (69, 0)]) &&
     issues (stCore id) 3 1 ⟨0, 0, 0, none, []⟩ (enc [(0, 3), (4, 1), (24, 4), (32, 1), (60, 1), (48, 5), (64, 2), (69, 11)]) &&
     issues (stCore id) 3 2 ⟨0, 0, 0, none, []⟩ (enc [(0, 3), (4, 2), (24, 4), (32, 1), (84, 3)])) = true := by decide
theorem witness_FloatingPointLaneResults2 :
    tableFault ((stCore id).core 0) 11 0 = 0 ∧ 8 % 16 ≠ 0 ∧ 0xB0000 % 16 = 0 ∧ ((stCore id).core 0).P < 0xB0000 + 16 := by decide
/-- R77: 1 + 2^-24 in FP32 ties to even and is inexact; R71: infinity − infinity is the canonical NaN with NV. -/
theorem test_fadd_rounds : fadd 0 0 0x3F800000 0x33800000 = (0x3F800000, flNX) := by decide
theorem test_fadd_invalid : fadd 0 0 0x7F800000 0xFF800000 = (0x7FC00000, flNV) := by decide

/-- Hypotheses of FloatingPointRules: a quiet NaN and a number of FP32, unordered and ordered values, 128 against INT8. -/
theorem witness_FloatingPointRules : (decodeEl 0 0x7FC00000).isNaN = true ∧ (decodeEl 0 0x3F800000).isNaN = false ∧ 0 ≤ 3 ∧
    (Val.nan true).isNaN = true ∧ (Val.fin false 1 0).isNaN = false ∧ 0 < 8 ∧ 2 ^ (8 - 1) ≤ 128 := by decide
/-- Hypotheses of UniformResults: each row with u5 and an immediate, and UFIRST of a register and of a pair. -/
theorem witness_UniformResults :
    (([2, 3, 4, 5, 6, 7, 8, 9].all fun op =>
      issues (stCore id) 8 op ⟨0, 0, 0, none, []⟩ (enc [(0, 8), (4, op), (24, 4), (62, 2), (32, 5), (56, 1), (58, 2), (96, 0xFFFFFFFF)])) &&
     issues (stCore id) 8 1 ⟨0, 0, 0, none, []⟩ (enc [(0, 8), (4, 1), (24, 63), (62, 2), (56, 2), (96, 7)]) &&
     issues (stCore id) 8 0xA ⟨0, 0, 0, none, []⟩ (enc [(0, 8), (4, 0xA), (24, 4), (62, 2), (32, 1)]) &&
     issues (stCore id) 8 0xA ⟨0, 0, 0, none, []⟩ (enc [(0, 8), (4, 0xA), (24, 4), (62, 2), (32, 2), (78, 1)])) = true := by decide
/-- R186: a 64-bit immediate is sign-extended. -/
theorem test_usub : nextIs (exec (.usub ⟨0, 0, 0, none, []⟩ (enc [(0, 8), (4, 3), (24, 4), (62, 2), (32, 5), (56, 1), (58, 2), (96, 0xFFFFFFFF)])) (stCore id))
    (fun t => (t.core 0).ureg 0 4 == 1) = true := by decide

/-- Hypotheses of ControlFlowOfTheCores: every row; BRX and CALLX to the pair R2 (aligned 0) and to the pair R0 (7 × 2^32 + 0 is
aligned, so R2's 5 serves for the misaligned target), in a core block without cluster and residence and with no waiting thread. -/
theorem witness_ControlFlowOfTheCores :
    (issues (stCore id) 7 1 ⟨0, 0, 0, none, []⟩ (enc [(0, 7), (4, 1)]) && issues (stCore id) 7 2 ⟨0, 0, 0, none, []⟩ (enc [(0, 7), (4, 2), (96, 0xFFFFFFFF)]) &&
     issues (stCore id) 7 3 ⟨0, 0, 0, none, []⟩ (enc [(0, 7), (4, 3), (32, 2)]) && issues (stCore id) 7 3 ⟨0, 0, 0, none, []⟩ (enc [(0, 7), (4, 3), (32, 4)]) &&
     issues (stCore id) 7 4 ⟨0, 0, 0, none, []⟩ (enc [(0, 7), (4, 4), (24, 6), (96, 3)]) &&
     issues (stCore id) 7 5 ⟨0, 0, 0, none, []⟩ (enc [(0, 7), (4, 5), (24, 6), (32, 2)]) && issues (stCore id) 7 5 ⟨0, 0, 0, none, []⟩ (enc [(0, 7), (4, 5), (24, 6), (32, 4)]) &&
     issues (stCore id) 7 6 ⟨0, 0, 0, none, []⟩ (enc [(0, 7), (4, 6)]) && issues (stCore id) 7 7 ⟨0, 0, 0, none, []⟩ (enc [(0, 7), (4, 7), (96, 0x1234)]) &&
     issues (stCore id) 7 8 ⟨0, 0, 0, none, []⟩ (enc [(0, 7), (4, 8), (24, 3), (62, 2)]) && issues (stCore id) 7 9 ⟨0, 0, 0, none, []⟩ (enc [(0, 7), (4, 9), (96, 127)])) = true ∧
    ((stCore id).core 0).regs 0 2 2 % 16 ≠ 0 ∧ ((stCore id).core 0).regs 0 4 2 % 16 = 0 ∧ ((stCore id).core 0).wait = [] ∧
    ((stCore id).core 0).blk.all (fun b => !b.cluster && !b.resident) = true := by decide
/-- R201: a backward branch wraps modulo 2^64; a trap is being taken. -/
theorem test_bra_back : nextIs (exec (.bra ⟨0, 0, 0, none, []⟩ (enc [(0, 7), (4, 2), (96, 0xFFFFFFFF)])) (stCore id))
    (fun t => (t.core 0).thPc 0 == 0xFFFFFFFFFFFFFFF0) = true := by decide
theorem test_trap : nextIs (exec (.trap ⟨0, 0, 0, none, []⟩ (enc [(0, 7), (4, 7), (96, 9)])) (stCore id))
    (fun t => (t.core 0).exc.any fun x => x.code == 0x37 && x.extra == [9]) = true := by decide
/-- Hypotheses of IssueOutcomes: a row; the states that issue nothing; a breakpoint; a miss, a fault and a hit of the fetch; words
of a reserved class, of another row, illegal (a reserved bit set), and guarded by a false predicate. -/
theorem witness_IssueOutcomes :
    (coreRow (.add ⟨0, 0, 0, none, []⟩ 0)).isSome = true ∧ (State.reset.core 0).blk = none ∧ ((stCore id).core 0).fragment 0 16 = [] ∧
    ((stCore fun k => { k with exc := some ⟨0x37, 0, 0, [], 0, 0, 0, 7, false, false, []⟩ }).core 0).exc.isSome = true ∧
    State.reset.running = false ∧ ((stCore fun k => { k with stopped := true }).core 0).stopped = true ∧
    (stCore id).dbg.step ≠ some (0, 0, 0) ∧ ((stCore id).core 0).exc = none ∧ ((stCore id).core 0).canIssue = true ∧
    ((stCore id).core 0).turn ⟨0, 0, 0, none, []⟩ = true ∧ ((stCore id).core 0).flight 0 0 = none ∧
    ((stCore fun k => { k with live := [0, 1], pc := [(1, 16)] }).core 0).turn ⟨0, 0, 16, none, []⟩ = false ∧
    ((stCore id).core 0).fragment 0 0 ≠ [] ∧ (stCore id).running = true ∧ (stCore id).dbg.target ≠ some 1 ∧
    ({ stCore id with dbg := ⟨some 1, none, none⟩, regs := [(A.TD_BRK 0, 1)] } : State).breakHit 0 = some 0 := by decide
theorem witness_IssueOutcomes1 :
    (match (stCore id).xlate 0 1 0x1000 .fetch with | .miss => true | _ => false) = true ∧
    (match (stCore id).xlate 0 1 0x10000000000000 .fetch with | .fault c _ _ => c == 0x0A | _ => false) = true ∧
    (match (stCore id).xlate 0 1 0 .fetch with | .ok _ _ => true | _ => false) = true := by decide
theorem witness_IssueOutcomes2 :
    opDefined (wClass 0xF) (wOp 0xF) 0xF = false ∧ opDefined 7 1 0x17 = true ∧ wClass 0x17 ≠ 1 ∧
    opDefined 1 2 0x21 = true ∧ (∃ t ∈ [0].filter (guardOk ((stCore id).core 0) 0x21), t % 32 = 0) ∧ wClass 0x21 = 1 ∧ wOp 0x21 = 2 ∧ legal (0x21 + 2 ^ 79) = false ∧ legal (0x21 + 2 ^ 16) = true ∧
    [0].filter (guardOk ((stCore id).core 0) (0x21 + 2 ^ 16)) = [] ∧ [0].filter (guardOk ((stCore id).core 0) 0x21) ≠ [] := by decide
/-- Hypotheses of ScratchpadAccessChecks: each row with SPACE = 1 at R1 = 7 plus a displacement: aligned, odd, and at P. -/
theorem witness_ScratchpadAccessChecks :
    ([1, 2, 3, 4, 5, 6, 7, 0x11, 0x13, 0x15, 0x16, 0x17].all fun op =>
      issues (stCore id) 4 op ⟨0, 0, 0, none, []⟩ (enc [(0, 4), (4, op), (17, 1), (24, 8), (32, 1), (96, 9)])) = true ∧
    (coreRow (.ld32 ⟨0, 0, 0, none, []⟩ 0)).isSome = true ∧
    (let o := opAt (stCore id) ⟨0, 0, 0, none, []⟩ (enc [(0, 4), (4, 5), (17, 1), (24, 8), (32, 1), (96, 9)])
     o.ex = [0] ∧ laneOff o ((stCore id).core 0) 0 = 16) ∧
    (let o := opAt (stCore id) ⟨0, 0, 0, none, []⟩ (enc [(0, 4), (4, 5), (17, 1), (24, 8), (32, 1), (96, 8)])
     laneOff o ((stCore id).core 0) 0 % 4 ≠ 0) ∧
    (let o := opAt (stCore id) ⟨0, 0, 0, none, []⟩ (enc [(0, 4), (4, 5), (17, 1), (24, 8), (32, 1), (96, 0xFFFFFFF5)])
     laneOff o ((stCore id).core 0) 0 = -4) ∧
    (let o := opAt (stCore id) ⟨0, 0, 0, none, []⟩ (enc [(0, 4), (4, 5), (17, 1), (24, 8), (32, 1), (96, 11 * 65536 - 7)])
     (((stCore id).core 0).P : Int) < laneOff o ((stCore id).core 0) 0 + 4) := by decide

/-- Hypotheses of LoadsAndStoresOfTheCores: scratchpad accesses at 16; a device load at 16 (R4 = 0 pair) found in the store buffer,
or in the Well cache; a device store with room. -/
theorem witness_LoadsAndStoresOfTheCores :
    let o := opAt (stCore id) ⟨0, 0, 0, none, []⟩ (enc [(0, 4), (4, 5), (24, 8), (32, 4), (96, 16)])
    let sb := stCore fun k => { k with sb := [⟨0, 0, [(16, 1), (17, 2), (18, 3), (19, 4)], false, false, 16, 0⟩] }
    let wc := stCore fun k => { k with lines := [(0, [(16, 9)])] }
    laneVa o ((stCore id).core 0) 0 = 16 ∧ issues sb 4 5 ⟨0, 0, 0, none, []⟩ (enc [(0, 4), (4, 5), (24, 8), (32, 4), (96, 16)]) = true ∧
    (match sb.laneCheck o false false 16 4 with | .ok va pa p => va == 16 && pa == 16 && loadClass p 0 == 0 | _ => false) = true ∧
    region 16 = .localMem ∧ (listed ((sb.core 0).sbLine 0) 16 4).isSome = true ∧
    anyListed ((wc.core 0).sbLine 0) 16 4 = false ∧ wc.lineOut 0 0 = false ∧ beyondWell o.w = false ∧
    ((wc.core 0).lines.find? fun e => e.1 == 0).isSome = true := by decide
theorem witness_LoadsAndStoresOfTheCores2 :
    let o := opAt (stCore id) ⟨0, 0, 0, none, []⟩ (enc [(0, 4), (4, 0x15), (24, 1), (32, 4), (96, 16)])
    issues (stCore id) 4 0x15 ⟨0, 0, 0, none, []⟩ (enc [(0, 4), (4, 0x15), (24, 1), (32, 4), (96, 16)]) = true ∧ isLoadOp 0x15 = false ∧
    (match (stCore id).laneCheck o true false 16 4 with | .ok va pa _ => va == 16 && pa == 16 | _ => false) = true ∧
    ((stCore id).core 0).sb.length + o.ex.length ≤ 64 ∧ o.ex = [0] ∧ wSem o.w = 0 ∧
    (let o := opAt (stCore id) ⟨0, 0, 0, none, []⟩ (enc [(0, 4), (4, 5), (17, 1), (24, 8), (32, 1), (96, 9)])
     wSpace o.w = true ∧ o.ex = [0] ∧ 0 ≤ laneOff o ((stCore id).core 0) 0 ∧ laneOff o ((stCore id).core 0) 0 % 4 = 0 ∧
     laneOff o ((stCore id).core 0) 0 + 4 ≤ ((stCore id).core 0).P) := by decide
/-- R196: a signed byte of the scratchpad; R240: a store stays in the buffer and memory is as before. -/
theorem test_ld8s : nextIs (exec (.ld8s ⟨0, 0, 0, none, []⟩ (enc [(0, 4), (4, 2), (17, 1), (24, 8), (32, 1), (96, 9)])) (stCore fun k => { k with well := [(16, 0x80)] }))
    (fun t => (t.core 0).reg 0 8 == 0xFFFFFF80) = true := by decide
theorem test_st32 : nextIs (exec (.st32 ⟨0, 0, 0, none, []⟩ (enc [(0, 4), (4, 0x15), (24, 1), (32, 4), (96, 16)])) (stCore id))
    (fun t => t.mem == [] && listed ((t.core 0).sbLine 0) 16 4 == some [7, 0, 0, 0]) = true := by decide
/-- Hypotheses of AtomicsOfTheCores: each scratchpad operation at 16; device words of the four rows at 16; a flight that is in. -/
theorem witness_AtomicsOfTheCores :
    ([0, 2, 3, 5, 6, 8, 9, 10, 11, 12].all fun a =>
      let w := enc [(0, 5), (4, 1), (17, 1), (24, 8), (32, 1), (40, 2), (48, if a = 12 then 6 else 0), (64, a), (96, 9)]
      issues (stCore id) 5 1 ⟨0, 0, 0, none, []⟩ w && laneOff (opAt (stCore id) ⟨0, 0, 0, none, []⟩ w) ((stCore id).core 0) 0 == 16) = true ∧
    ([1, 2, 3, 4].all fun op =>
      let w := enc [(0, 5), (4, op), (24, if op = 2 then 0 else 4), (32, 4), (40, if op = 3 then 0 else 2), (96, 16)]
      let o := opAt (stCore id) ⟨0, 0, 0, none, []⟩ w
      issues (stCore id) 5 op ⟨0, 0, 0, none, []⟩ w && ((stCore id).lanesCheck o (op != 3) true 4 o.ex).2 == none) = true ∧
    ((stCore id).core 0).flight 0 0 = none ∧ ((stCore id).core 0).sb = [] ∧ (stCore id).coh.pend = [] := by decide
theorem witness_AtomicsOfTheCores2 :
    let s := fun (wt : List Nat) (p : Bool) => stCore fun k => { k with flights := [⟨0, 0, [0], wt, [(0, 5)], p⟩] }
    let w := enc [(0, 5), (4, 1), (24, 4), (32, 4), (40, 2), (96, 16)]
    issues (s [] false) 5 1 ⟨0, 0, 0, none, []⟩ w = true ∧ issues (s [] true) 5 1 ⟨0, 0, 0, none, []⟩ w = true ∧ issues (s [3] false) 5 1 ⟨0, 0, 0, none, []⟩ w = true ∧
    (((s [] false).core 0).flight 0 0).isSome = true := by decide
/-- R199: the outcome of a conditional store; R198: an exchange in the scratchpad returns the old value. -/
theorem test_stc : nextIs (exec (.stc ⟨0, 0, 0, none, []⟩ (enc [(0, 5), (4, 4), (24, 4), (32, 4), (40, 2), (96, 16)]))
    (stCore fun k => { k with flights := [⟨0, 0, [0], [], [(0, 1)], false⟩] }))
    (fun t => (t.core 0).pred 0 4 && (t.core 0).thPc 0 == 16) = true := by decide
theorem test_exchange : nextIs (exec (.atom ⟨0, 0, 0, none, []⟩ (enc [(0, 5), (4, 1), (17, 1), (24, 8), (32, 1), (40, 2), (64, 11), (96, 9)]))
    (stCore fun k => { k with well := [(16, 0x80)] }))
    (fun t => (t.core 0).reg 0 8 == 0x80 && (t.core 0).wellGet 16 4 == [5, 0, 0, 0]) = true := by decide
/-- A core with a release, not done or done, of the fragment at 0. -/
def stRel (scope : Nat) (d : Bool) : State := stCore fun k => { k with rels := [⟨0, 0, [0], scope, 0, d⟩] }
/-- Hypotheses of FencesAndReleases. -/
theorem witness_FencesAndReleases :
    let f := fun sem sc => enc [(0, 6), (4, 1), (18, sem), (20, sc)]
    issues (stCore id) 6 1 ⟨0, 0, 0, none, []⟩ (f 1 2) = true ∧ issues (stCore id) 6 1 ⟨0, 0, 0, none, []⟩ (f 3 1) = true ∧
    issues (stCore id) 6 2 ⟨0, 0, 0, none, []⟩ (enc [(0, 6), (4, 2)]) = true ∧ ((stCore id).core 0).rels = [] ∧ (stCore id).atomsOut 0 = false ∧
    (let s := { stCore fun k => { k with sb := [⟨0, 5, [(0, 1)], false, false, 0, 0⟩] } with coh := { Coh.reset with serial := 1 } }
     issues s 6 1 ⟨0, 0, 0, none, []⟩ (f 2 2) = true ∧ (s.core 0).sb.length = 1) ∧
    issues (stRel 2 false) 6 1 ⟨0, 0, 0, none, []⟩ (f 2 2) = true ∧ issues (stRel 2 true) 6 1 ⟨0, 0, 0, none, []⟩ (f 2 2) = true ∧
    issues (stRel 3 false) 6 2 ⟨0, 0, 0, none, []⟩ (enc [(0, 6), (4, 2)]) = true ∧ (stRel 3 false).fabPending 0 0 = false ∧
    ((stRel 2 false).core 0).stopped = false ∧
    ({ stRel 3 false with fab := { (stRel 3 false).fab with conns := [⟨5, 1, 0, false, [⟨0, 0, 0, none, [], false, false,
      ⟨0, 0, 0, 1, 0, 0, none, 0⟩, 0⟩], [], false⟩] } } : State).fabPending 0 1 = true := by decide
/-- R245: a device-scope release with nothing outstanding holds. -/
theorem test_releaseComplete : nextIs (exec (.releaseComplete ⟨0, 0, 0, none, []⟩) (stRel 2 false)) (fun t => (t.core 0).rels.all (·.done)) = true := by decide

/-- Hypotheses of BarriersOfTheCores: forbidden scopes; a last and an awaited arrival; a waiting block at a device barrier; threads
whose release is on its way; a watchdog. -/
theorem witness_BarriersOfTheCores :
    let b := fun sc n => enc [(0, 6), (4, 3), (69, sc), (71, n)]
    issues (stCore id) 6 3 ⟨0, 0, 0, none, []⟩ (b 1 0) = true ∧ issues (stCore id) 6 3 ⟨0, 0, 0, none, []⟩ (b 2 1) = true ∧
    issues (stCore id) 6 3 ⟨0, 0, 0, none, []⟩ (b 0 3) = true ∧ wBScope (b 0 3).toNat = 0 ∧ ((stCore id).core 0).rels = [] ∧ ((stCore id).core 0).rq = [] ∧
    ((stCore id).core 0).live = [0] ∧ (opAt (stCore id) ⟨0, 0, 0, none, []⟩ (b 0 3)).ex = [0] ∧
    (let s := stCore fun k => { k with live := [0, 40] }
     issues s 6 3 ⟨0, 0, 0, none, []⟩ (b 0 3) = true ∧ (opAt s ⟨0, 0, 0, none, []⟩ (b 0 3)).ex = [0] ∧ tabFind (s.core 0).wait 40 = none) ∧
    (let s := stCore fun k => { k with wait := [(0, .barDone 2 1)] }
     ((s.core 0).live.filter fun th => tabFind (s.core 0).wait th == some (.barDone 2 1)) = [0]) ∧
    (let s := stCore fun k => { k with wait := [(0, .bar 0 1 9)] }
     (s.core 0).live.filter ((s.core 0).waitsAt 0 1) = [0] ∧ (s.core 0).exc = none ∧ (s.core 0).stopped = false ∧
     s.barRaised 0 0 1 ⟨1, 1, 0, 0, 32, false, false, 0⟩ = false ∧ s.berthHolds 0 0 1 ⟨1, 1, 0, 0, 32, false, false, 0⟩ = false) := by decide
theorem witness_BarriersOfTheCores2 :
    let s : State := { stCore fun k => { k with wait := [(0, .bar 2 1 9)] } with
      fe := { Front.reset with launches := [⟨1, 1, 0, 1, 0, 0, 1, 0, false, false, false, 0, [], 4, [0], none, 0, 0, []⟩] } }
    (s.launch 1).any (fun l => (s.blockCores l 0) == [0] && !l.arrived.contains (1, 0)) = true ∧ (s.core 0).allAt 2 1 = true ∧
    (s.core 0).allAt 2 0 = false ∧ (s.core 0).live ≠ [] := by decide
/-- R168: the last arrival at a core barrier goes on. -/
theorem test_bar_last : nextIs (exec (.bar ⟨0, 0, 0, none, []⟩ (enc [(0, 6), (4, 3), (71, 3)])) (stCore id)) (fun t => (t.core 0).thPc 0 == 16 && (t.core 0).wait == []) = true := by decide

/-- Hypotheses of ExceptionsAreTakenAfterTheirDrain: a core that is taking a trap, drained, with a setup store left, and held. -/
theorem witness_ExceptionsAreTakenAfterTheirDrain :
    let e : Core → Core := fun k => { k with exc := some ⟨0x37, 0, 0, [0], 0, 0, 0, 7, false, false, [9]⟩ }
    let s := stCore e
    let v := stCore fun k => { e k with sb := [⟨0, 0x4000000000, [(0, 1)], true, true, 0, 0⟩] }
    let h : State := { s with dbg := ⟨some 1, none, none⟩, regs := [(A.TD_DBG_CTL, 0x4000)] }
    (s.core 0).exc.isSome = true ∧ ((s.flushCore 0).core 0).sb = [] ∧ (s.flushCore 0).dbg.held ≠ some 0 ∧ (s.flushCore 0).dbg.target ≠ some 1 ∧
    ((s.flushCore 0).core 0).exc = (s.core 0).exc ∧ ((s.flushCore 0).core 0).blk = (s.core 0).blk ∧
    ((v.flushCore 0).core 0).sb ≠ [] ∧ (h.flushCore 0).dbg.target = some 1 ∧ (h.flushCore 0).on F.TD_DBG_CTL_HOLD = true ∧ ((stCore id).core 0).exc = none := by decide
/-- R178, R404: a trap's context is torn down and its fault is logged. -/
theorem test_exception_tears : nextIs (exec (.exceptionDrainComplete 0)
    { stCore fun k => { k with exc := some ⟨0x37, 0, 0, [0], 0, 0, 0, 7, false, false, [9]⟩ } with regs := [(A.PT_CTX_STAT 1, 2)] })
    (fun t => t.ctxState 1 == 6 && t.get (F.PT_FAULT_STAT_COUNT 0) == 1 && (t.core 0).exc.isNone) = true := by decide
/-- An engine operation of core 0 with an FP32 tile of one element in slot 0, and that slot open. -/
def mop (op : Nat) (started : Bool) (steps : Nat) (a : List Byte) : MtxOp :=
  ⟨7, 0, 3, 0, 0, 0, toBytes 32 op, a, [], toBytes 32 0x2010002, [], [], started, steps, 0⟩
/-- Core 0 with one operation queued. -/
def stMtx (x : MtxOp) : State := stCore fun k => { k with queue := [x], slots := [(0, ⟨0, 0, 1, 1, 0, false, fpOne, fpOne, 0, 0, false⟩)] }
/-- Hypotheses of MatrixIssueAndCompletion: an issue that faults, waits, or finds room; starts and completions. -/
theorem witness_MatrixIssueAndCompletion :
    let w := enc [(0, 9), (4, 1), (24, 3), (32, 5), (56, 1)]
    let full := stCore fun k => { k with queue := List.replicate 32 (mop 2 false 0 []) }
    issues (stCore id) 9 1 ⟨0, 0, 0, none, []⟩ w = true ∧ issues (stCore id) 9 2 ⟨0, 0, 0, none, []⟩ (enc [(0, 9), (4, 2), (24, 3), (62, 2), (96, 0xFFFF)]) = true ∧
    ((stCore id).core 0).token 0 3 = ⟨false, 0⟩ ∧ (issueCode ((stCore id).core 0) 0).isSome = true ∧
    issues full 9 1 ⟨0, 0, 0, none, []⟩ w = true ∧ 32 ≤ (full.core 0).queue.length ∧
    ((stMtx (mop 2 false 0 [])).core 0).mtx 7 = some (mop 2 false 0 []) ∧ (mop 2 false 0 []).mayStart [] = true ∧
    lowest (((stMtx (mop 2 false 0 [])).core 0).startCodes (mop 2 false 0 [])) = none ∧
    lowest (((stMtx (mop 2 false 0 [])).setCore 0 { (stMtx (mop 2 false 0 [])).core 0 with slots := [] }).core 0 |>.startCodes (mop 2 false 0 [])) = some 0x29 ∧
    lowest (((stMtx (mop 0x101 false 0 [])).core 0).startCodes (mop 0x101 false 0 [])) = none ∧ (mop 0x101 false 0 []).r.clear = true ∧
    (mop 2 true 1 []).finished = true ∧ (mop 2 true 0 []).finished = false := by decide
set_option maxRecDepth 20000 in
/-- An issue that is accepted: a READ of the tile into a value tile at 256. -/
theorem witness_MatrixIssueAndCompletion2 :
    let k := (((stCore id).core 0).wellPut 0 (toBytes 32 (2 + 2 * 2 ^ 48 + 3 * 2 ^ 80))).wellPut 64
      (toBytes 32 (2 + 16 * 2 ^ 16 + 16 * 2 ^ 25) ++ toBytes 32 (1 + 256 * 2 ^ 16 + 16 * 2 ^ 36 + 16 * 2 ^ 49 + 64 * 2 ^ 64))
    issueCode k 0 = none ∧ k.queue.length < 32 := by decide
/-- R106: a finished operation frees its token with its status. -/
theorem test_mtx_complete : nextIs (exec (.mtxOperationComplete 0 7) (stMtx (mop 2 true 1 []))) (fun t =>
    (t.core 0).queue == [] && (t.core 0).token 0 3 == ⟨false, 0⟩) = true := by decide
/-- Hypotheses of MatrixWork: an MMA with a step left, and done; a READ, a READRAW and a LOAD with an open slot. -/
theorem witness_MatrixWork :
    let a := toBytes 32 (1 + 5 * 16 + 32 * 2 ^ 49)
    ((stMtx (mop 1 true 0 a)).core 0).mtx 7 = some (mop 1 true 0 a) ∧ (mop 1 true 0 a).r.op = 1 ∧ (mop 1 true 0 a).finished = false ∧
    (mop 1 true 1 a).finished = true ∧ (mop 1 true 0 a).tc.mode = 0 ∧ (mop 2 true 0 []).r.op = 2 ∧
    (((stMtx (mop 2 true 0 [])).core 0).slot (mop 2 true 0 []).tc).isSome = true ∧ (mop 3 true 0 []).r.op = 3 ∧
    (mop 4 true 0 a).r.op = 4 ∧ (mop 4 true 0 a).ta.kind ≠ 4 ∧ (mop 4 true 0 a).r.add = false ∧ (stCore id).running = true ∧ (stCore id).clockStopped 0 = false := by decide
/-- R127: one K-step of E5M2 zeros keeps the element's value. -/
theorem test_mma : nextIs (exec (.mma 0 7 1) (stMtx (mop 1 true 0 (toBytes 32 (1 + 5 * 16 + 32 * 2 ^ 49))))) (fun t =>
    (t.core 0).fpEl (mop 1 true 0 []).tc 0 0 == 0 && (t.core 0).queue.all (·.finished)) = true := by decide
/-- A machine with one request in flight, a directory and a data-array line at line 8. -/
def stReq (k : ReqKind) (dir : Tab DirEnt) (txns : Tab Txn) : State :=
  { stCore id with coh := { Coh.reset with serial := 9, reqs := [⟨3, k, 1024, 0, 0, 0, 1, 0, 0, 0, 3⟩], dir := dir, txns := txns
                                           cis := [(8, ⟨0, lineSet 8, 0, [], 15, 0, 0, false, 0⟩)] } }
set_option maxRecDepth 20000 in
/-- Hypotheses of HomeRequests: each kind on an idle line and behind a write; snoops for a shared line and an owned one; a held line. -/
theorem witness_HomeRequests :
    ([ReqKind.rdShared false, .rdOwn, .upgrade, .rdNarrow, .atomic ⟨0, false, 1024, [(0, 1, 0)], 0, false⟩].all fun k =>
      let s := stReq k [] []
      let w := stReq k [] [(8, ⟨⟨1, .wrLine [] 0, 1024, 4, 0, 0, 0, 0, 0, 0, 1⟩, [2], [], false, 0, [], false, false, false, none⟩)]
      !s.heldLine 8 && (s.coh.reqs.find? fun x => x.id == 3).isSome && s.dirVictim 8 k == none && s.lineOpen 8 &&
      !s.outOfTurn ⟨3, k, 1024, 0, 0, 0, 1, 0, 0, 0, 3⟩ && !s.trackersFull (s.homeSlice 8) && !w.lineOpen 8 &&
      (w.txn 8).any fun t => !t.joins k) = true := by decide
set_option maxRecDepth 20000 in
theorem witness_HomeRequests2 :
    (snoopPlan .rdOwn 0 (some (.shared [0, 3, 7]))).2 = [3, 7] ∧ (snoopPlan (.rdShared false) 0 (some (.owner 5))) = (0, [5]) ∧
    (stReq .rdOwn [] []).dirOf 8 = none ∧ ((stReq .rdOwn [] []).cisFind 8).any (fun c => c.sv % 16 == 15) = true ∧
    ({ stReq .rdOwn [] [] with coh := { (stReq .rdOwn [] []).coh with copying := [(stReq .rdOwn [] []).homeSlice 8] } } : State).heldLine 8 = true ∧
    (let t : Txn := ⟨⟨1, .rdOnce, 1024, 4, 0, 0, 0, 0, 0, 0, 1⟩, [], [], true, 0, [], false, false, true, none⟩
     t.joins (.rdShared false) = true ∧ (stReq (.rdShared false) [] [(8, t)]).txn 8 = some t) ∧
    (let q := { stReq .rdOwn [] [] with coh := { (stReq .rdOwn [] []).coh with waitq := [⟨2, .rdOwn, 1024, 0, 0, 3, 1, 0, 0, 0, 2⟩] } }
     q.txn 8 = none ∧ q.lineOpen 8 = false) ∧
    (stReq .rdOwn [] []).coh.reqs.find? (fun x => x.id == 77) = none ∧ 1024 < localTop := by decide
set_option maxRecDepth 20000 in
/-- R280: RD_SHARED of an uncached line grants E. -/
theorem test_rdShared : nextIs (exec (.rdShared 3 0) (stReq (.rdShared false) [] [])) (fun t =>
    t.coh.grants.any (fun g => g.st == .E && g.cluster == 0) && t.coh.reqs == []) = true := by decide

/-- A machine with line 8 in cluster 2's cache in a state, owned by it, and a snoop of a kind on its way to it. -/
def stSnp (st : CState) (kind : Nat) (rs : List SReply) (gs : List Grant) (txns : Tab Txn) : State :=
  { stCore id with coh := { Coh.reset with serial := 9, cc := [(8 * 128 + 2, ⟨st, [(0, 7)], 0⟩)], dir := [(8, ⟨.owner 2, 0⟩)]
                                           snoops := [⟨8, 2, kind, 5⟩], replies := rs, grants := gs, txns := txns } }
/-- Hypotheses of SnoopsWritebacksAndFills. -/
theorem witness_SnoopsWritebacksAndFills :
    ([0, 1, 2, 3, 4].all fun k => ((stSnp .M k [] [] []).coh.snoops.find? fun x => x.kind == k && x.target == 2 && x.line == 8).isSome) = true ∧
    ((stSnp .M 0 [] [] []).ccFind 2 8).isSome = true ∧ (stCore id).snoopFind 2 8 = none ∧
    (stSnp .M 0 [] [] []).wbFind 2 8 = none ∧ (stSnp .M 0 [] [] []).dirOf 8 = some (.owner 2) ∧ (stSnp .M 0 [] [] []).txn 8 = none ∧
    ((stSnp .E 0 [] [⟨8, 2, .M, none⟩] []).coh.grants.find? fun g => g.cluster == 2 && g.line == 8).isSome = true ∧
    (stSnp .M 0 [] [] []).heldLine 8 = false ∧ ((stSnp .M 0 [] [] []).cisAlloc 8).isSome = true ∧
    (let t : Txn := ⟨⟨1, .rdOwn, 1024, 0, 40, 5, 1, 0, 0, 0, 1⟩, [2], [], false, 0, [], false, true, false, none⟩
     let s := stSnp .M 0 [⟨8, 2, true, none, true, false⟩] [] [(8, t)]
     (s.coh.replies.find? fun r => r.cluster == 2 && r.line == 8).isSome = true ∧ s.txn 8 = some t) := by decide
/-- A machine whose line 8 needs an entry in a full directory set. -/
def stDirFull : State := (stReq .rdOwn ([1947, 3000, 5992, 7045, 8984, 10037, 13029, 14082, 16021, 17074, 20066, 23058, 24111, 27103, 30095, 31148].map fun l => (l, ⟨.owner 3, l⟩))
  [(8, ⟨⟨1, .rdOwn, 1024, 0, 40, 5, 1, 0, 0, 0, 1⟩, [], [], false, 0, [], false, false, false, none⟩)]).set (F.CS_PSLICE_SLICES 0 0) 1
theorem stDirFull_homes : stDirFull.homeList 0 = [0] := by decide +kernel
theorem stDirFull_home {l : Nat} (h : l < 2 ^ 23) : stDirFull.homeSlice l = 0 := by
  have e : l / 2 ^ 23 = 0 := Nat.div_eq_of_lt h
  simp only [State.homeSlice, e, stDirFull_homes]
  cases homeHash l * [0].length / 2 ^ 32 <;> rfl
/-- Line 8 needs an entry, and line 1947, the least recently used, must give up its own. -/
theorem witness_DirectorySetFull : stDirFull.dirVictim 8 .rdOwn = some 1947 ∧ stDirFull.txn 1947 = none ∧
    (stDirFull.txn 8).any (fun q => q.gives && !q.served && q.await == [] && q.wbs == []) = true := by
  refine ⟨?_, by decide, by decide⟩
  have e : (stDirFull.coh.dir.filter fun e => stDirFull.homeSlice e.1 == stDirFull.homeSlice 8 && dirSet e.1 == dirSet 8) =
      stDirFull.coh.dir := by
    refine List.filter_eq_self.mpr fun e he => ?_
    have k : (stDirFull.coh.dir.all fun e => decide (e.1 < 2 ^ 23) && dirSet e.1 == dirSet 8) = true := by decide +kernel
    have k := List.all_eq_true.mp k e he
    simp only [Bool.and_eq_true, decide_eq_true_eq] at k
    simp only [stDirFull_home k.1, stDirFull_home (show 8 < 2 ^ 23 by decide), k.2, beq_self_eq_true, Bool.and_self]
  have d : stDirFull.dirOf 8 = none := by decide
  simp only [State.dirVictim, d, e]
  decide
/-- R280: a share leaves S at the owner, returns its data and forwards the line. -/
theorem test_snpShare : nextIs (exec (.snpShare 2 8 false) (stSnp .M 0 [] [] [])) (fun t =>
    (t.ccFind 2 8).any (fun c => c.st == .S) && t.coh.replies.any (fun r => r.data.isSome) && t.coh.grants.any (fun g => g.cluster == 5)) = true := by decide

set_option maxRecDepth 20000 in
/-- Hypotheses of ReductionsAndDirectoryUpkeep: a reduction in flight, a buffered one, a set being rebuilt. -/
theorem witness_ReductionsAndDirectoryUpkeep :
    let a : AtomReq := ⟨0, false, 1024, [(0, 1, 0)], 0, false⟩
    let s := stReq (.red a) [] []
    let b := { s with coh := { s.coh with reds := [⟨8, 0, a, 5, [(5, 0)], 1⟩], rebuild := [(0, 8)] } }
    (s.takeRed 3).isSome = true ∧ s.coh.redWait = [] ∧ (s.cisAlloc 8).isSome = true ∧ s.trackersFull (s.homeSlice 8) = false ∧ b.redsWait 8 = false ∧ s.busy 8 = false ∧ (s.cisFind 8).isSome = true ∧ s.onlyMem 8 1 = 0 ∧
    (s.takeRed 4).isNone = true ∧ s.bufferUse 0 < 64 ∧
    (stReq (.red a) [] [(8, ⟨⟨1, .rdOwn, 1024, 0, 40, 5, 1, 0, 0, 0, 1⟩, [2], [], false, 0, [], false, true, false, none⟩)]).busy 8 = true ∧
    s.lineOpen 8 = true ∧ s.redMate a = none ∧ b.heldLine 8 = false ∧ b.queued 8 = false ∧ b.hasReds 8 = true ∧ (b.cisAlloc 8).isSome = true ∧ (0, 8) ∈ b.coh.rebuild := by decide
/-- Core 0 with a Sluice to itself, changed by `f`, u3 = the length and Berth 0 in use by its context. -/
def stSlu (f : Sluice → Sluice) (count : Nat) (ws : List BWaiter) : State :=
  { stCore fun k => { k with u := [(3, 1)], pc := [] } with
    sluices := [f ⟨0, 0, 1, 1, 0, 0, 0, 0, 64, 0, 64, 9, 0, 64, 32, 0, 0, [], [], []⟩]
    fe := { Front.reset with waiters := ws }
    regs := [(A.FE_BERTH_OWN 0, BitVec.ofNat 64 (setBits (setBits (setBits 0 (F.FE_BERTH_OWN_EN 0).hi (F.FE_BERTH_OWN_EN 0).lo 1)
      (F.FE_BERTH_OWN_CTX 0).hi (F.FE_BERTH_OWN_CTX 0).lo 1) (F.FE_BERTH_OWN_COUNT 0).hi (F.FE_BERTH_OWN_COUNT 0).lo count))] }
/-- A STREAM word: opcode, WIDTH, NB and more. -/
def strm (op width nb : Nat) (l : List (Nat × Nat)) : BitVec 128 := enc ([(0, 10), (4, op), (19, width), (21, nb)] ++ l)
set_option maxRecDepth 20000 in
/-- Hypotheses of StreamsOfTheCores: each opcode, blocking and not; Sluices that can and cannot proceed. -/
theorem witness_StreamsOfTheCores :
    ([0, 1].all fun nb =>
      issues (stSlu id 0 []) 10 1 ⟨0, 0, 0, none, []⟩ (strm 1 2 nb []) && issues (stSlu id 0 []) 10 2 ⟨0, 0, 0, none, []⟩ (strm 2 2 nb []) &&
      issues (stSlu id 0 []) 10 3 ⟨0, 0, 0, none, []⟩ (strm 3 0 nb [(40, 3)]) && issues (stSlu id 0 []) 10 4 ⟨0, 0, 0, none, []⟩ (strm 4 0 nb [(40, 3)]) &&
      issues (stSlu id 0 []) 10 5 ⟨0, 0, 0, none, []⟩ (strm 5 0 nb []) && issues (stSlu id 1 []) 10 5 ⟨0, 0, 0, none, []⟩ (strm 5 0 nb [])) = true := by decide
set_option maxRecDepth 20000 in
theorem witness_StreamsOfTheCores2 :
    let k := (stSlu id 0 []).core 0
    let o := fun w => opAt (stSlu id 0 []) ⟨0, 0, 0, none, []⟩ w
    (stSlu id 0 []).sluiceAt 1 0 0 true = some ⟨0, 0, 1, 1, 0, 0, 0, 0, 64, 0, 64, 9, 0, 64, 32, 0, 0, [], [], []⟩ ∧
    ((stSlu id 0 []).sluiceAt 1 0 0 false).isSome = true ∧ (stSlu id 0 []).sluiceAt 1 0 2 false = none ∧ (stSlu id 0 []).sluiceAt 1 0 2 true = none ∧
    streamFault (o (strm 3 0 0 [(40, 3)])) k ((stSlu id 0 []).sluiceAt 1 0 0 true) true = none ∧
    streamFault (o (strm 3 0 0 [(40, 3)])) k none true = some 0x38 ∧ streamFault (o (strm 3 0 0 [(40, 2)])) k none true = some 0x38 ∧
    streamFault (o (strm 4 0 0 [(40, 3)])) k ((stSlu id 0 []).sluiceAt 1 0 0 false) false = none ∧
    (stSlu id 1 []).berthOf 0 1 = true ∧ (stSlu id 1 []).get (F.FE_BERTH_OWN_COUNT 0) = 1 ∧ (stSlu id 1 []).berthOf 1 1 = false ∧
    (stSlu id 0 []).get (F.FE_BERTH_OWN_COUNT 0) = 0 := by decide
set_option maxRecDepth 20000 in
/-- R214: a send of 4 units takes its credits. -/
theorem test_ssend : nextIs (exec (.ssend ⟨0, 0, 0, none, []⟩ (strm 1 0 0 [(32, 1)])) (stSlu id 0 [])) (fun t =>
    t.sluices.any (fun x => x.units == 60 && x.msgs == 31 && x.fly.any (fun m => m.take 5 == [7, 0, 0, 0, 0]))) = true := by decide

/-- Hypotheses of SluiceRowsAndShares. -/
theorem witness_SluiceRowsAndShares :
    let s := stSlu (fun x => { x with fly := [List.replicate 32 5], back := [4] }) 0 []
    (s.sluiceIn 0 0 0).any (fun x => x.fly.length == 1 && x.back == [4] && x.fsize == 64) = true ∧ s.sluiceIn 0 0 3 = none ∧
    (s.core 0).blk.any (fun b => b.launch == 1) = true ∧
    ((stSlu id 0 []).sluiceIn 0 0 0).any (fun x => x.fly == []) = true ∧ s.barOk = true ∧ State.reset.barOk = false ∧
    bit (1 : BitVec 64).toNat 0 = true ∧ ((stCore fun k => { k with stalls := [⟨3, 0, true, 0, 9⟩, ⟨1, 0, true, 0, 9⟩] }).core 0).stalls.find? (fun x => x.group == 1) = some ⟨1, 0, true, 0, 9⟩ ∧ (s.core 0).canIssue = true ∧
    ((stCore fun k => { k with stopped := true }).core 0).canIssue = false := by decide
set_option maxRecDepth 20000 in
/-- R214: four units and a message come back. -/
theorem test_sluiceCredit : nextIs (exec (.sluiceCreditReturn 0 0 0) (stSlu (fun x => { x with back := [4], units := 60, msgs := 31 }) 0 [])) (fun t =>
    t.sluices.any (fun x => x.units == 64 && x.msgs == 32 && x.back == [])) = true := by decide
set_option maxRecDepth 20000 in
/-- R225: 4 + 15 × 4 is 64; 5 would be 65. -/
theorem test_slShare : nextIs (exec (.slShareWrite 0 (BitVec.ofNat 64 0x0405)) (stSlu id 0 [])) (fun t =>
    t.on F.SL_ERR_SUM && t.get (F.SL_SHARE_SEAM 0) == 4 && !t.on F.SL_ERR_BUSY) = true ∧
    nextIs (exec (.slShareWrite 0 (BitVec.ofNat 64 0x0003)) (stSlu id 0 [])) (fun t =>
    !t.on F.SL_ERR_SUM && t.get (F.SL_SHARE_SEAM 0) == 3 && t.get (F.SL_SHARE_BRIDGE 0) == 0) = true := by decide

/-- A launch of context 1 of 40 threads on core 0 or 1: grid 2, `next` and `done` blocks. -/
def stLaunch (next done : Nat) : State :=
  { stCore (fun k => { k with live := [] }) with
    fe := { Front.reset with launches := [⟨1, 9, 0, 1, 0, 4096, 40, 0, false, false, false, 0, [7], 2, [0, 1], none, next, done, []⟩] }
    regs := [(A.PT_CTX_STAT 1, BitVec.ofNat 64 (setBits 0 (F.PT_CTX_STAT_STATE 1).hi (F.PT_CTX_STAT_STATE 1).lo 2))] }
set_option maxRecDepth 20000 in
/-- Hypotheses of CoreBlocksStartAndEnd: a block for core 1, none for the busy core 0; a block with nothing outstanding. -/
theorem witness_CoreBlocksStartAndEnd :
    let s := stLaunch 1 0
    let l := (s.launch 1).getD ⟨0, 0, 0, 0, 0, 0, 0, 0, false, false, false, 0, [], 0, [], none, 0, 0, []⟩
    (s.launch 1).isSome = true ∧ s.launch 2 = none ∧ l.next < l.grid ∧ s.ctxState l.ctx = 2 ∧ l.cluster = false ∧ l.slot = none ∧
    l.takes 1 = [1] ∧ l.cores.contains 1 = true ∧ s.coreFree 1 = true ∧ s.firstFor l 1 = true ∧ s.dispatchOk l 0 = false ∧
    ((s.core 0).blk.any fun b => b.launch == 1) = true ∧ (s.core 0).live = [] ∧ (s.core 0).stopped = false ∧ s.atomsOut 0 = false ∧
    s.fabPending 0 (2 ^ 64) = false ∧ s.written 0 0 = true ∧ l.doneBlocks + 1 ≠ l.grid ∧
    ((stLaunch 2 1).launch 1).any (fun l => l.doneBlocks + 1 == l.grid) = true := by decide
set_option maxRecDepth 20000 in
/-- R154: the second block starts on core 1. -/
theorem test_dispatch : nextIs (exec (.coreBlockDispatch 1 1) (stLaunch 1 0)) (fun t =>
    (t.core 1).reg 33 0 == 33#32 && (t.core 1).reg 33 1 == 1#32 && (t.core 1).ureg 1 0 == 7#64 && (t.core 1).thPc 39 == 4096) = true := by decide

/-- Core 0 with a store-buffer entry of a line, its line held in a state by its cluster, and a host read of one byte out. -/
def stDrain (line : Nat) (closed : Bool) (cc : List CState) (agent : Nat) : State :=
  { stCore (fun k => { k with sb := [⟨3, line, [(0, 7)], false, closed, 0, 0⟩], sent := [⟨0, 0, [0], 2 ^ 40, 2 ^ 64 + 5⟩] }) with
    coh := { Coh.reset with cc := cc.map fun st => (line * 128, ⟨st, [], 0⟩) }
    host := { HostIf.reset with reads := [⟨5, agent, 0, 0, 1, 64, 2 ^ 40, 1, 0, 0, [0], 9⟩] } }
set_option maxRecDepth 20000 in
/-- Hypotheses of StoreBuffersAndHostAnswers. -/
theorem witness_StoreBuffersAndHostAnswers :
    let s := stDrain 8 true [.M] 0
    ((s.core 0).sb.map (·.closed)) = [true] ∧ (s.core 0).blk.isSome = true ∧ region (8 * 128) = .localMem ∧
    (s.ccFind 0 8).any (fun c => c.st == .M) = true ∧ (stDrain 8 true [] 0).ccFind 0 8 = none ∧
    region (0x200000000 * 128) = .hostWin ∧ region (0x400000000 * 128) = .setup0 ∧
    (s.host.reads.find? fun r => r.id == 5).any (fun r => r.len == 1 && r.agent != 2) = true ∧ s.host.reads.find? (fun r => r.id == 6) = none ∧
    ((s.core 0).sent.any fun x => x.id == 2 ^ 64 + 5) = true ∧ (s.core 0).exc = none ∧ s.ctxState 1 ≠ 6 ∧ s.lineOut 0 8 = false ∧ ({ s with coh := { s.coh with reqs := [⟨3, .red ⟨0, false, 1024, [], 0, false⟩, 1024, 0, 0, 0, 1, 0, 0, 0, 3⟩] } } : State).lineOut 0 8 = true ∧
    s.running = true ∧ State.reset.running = false ∧ s.get (F.PT_FAULT_STAT_COUNT (s.ctxPart 1)) < 16 := by decide
set_option maxRecDepth 20000 in
/-- R53: a refused read of a core raises 0x13. -/
theorem test_hostRefusal : nextIs (exec (.hostReadCompletion 5 0x13 [] none) (stDrain 8 true [] 0)) (fun t =>
    (t.core 0).exc.any (fun e => e.code == 0x13 && e.va == 64) && t.host.reads == []) = true := by decide

/-- Partition 1 homes chunk 0 on slice 0; CS registers as `regs` adds; line 8 stands in the data array. -/
def stCs (regs : Tab (BitVec 64)) (rehome : Option (Nat × BitVec 64)) (pinning : Tab (Nat × Nat × Nat × Nat)) (pin : Bool) : State :=
  let s : State := { st0 .ready [] with coh := { Coh.reset with
    rehome := rehome, pinning := pinning, dir := [(8, ⟨.owner 2, 0⟩)], cis := [(8, ⟨0, 0, 0, [], 15, 15, 0, pin, 0⟩)] } }
  (regs.foldl (fun s e => s.setRaw e.1 e.2) s).set (F.CS_HOMEMAP_PART 0) 1
set_option maxRecDepth 40000 in
/-- Hypotheses of HomesFlushesAndPins. -/
theorem witness_HomesFlushesAndPins :
    let s := stCs [] none [] true
    let b := (s.set F.CS_REHOME_BUSY 1).set (F.CS_FLUSH_BUSY 1) 1
    s.barOk = true ∧ s.on F.CS_REHOME_BUSY = false ∧ b.on F.CS_REHOME_BUSY = true ∧ b.on (F.CS_FLUSH_BUSY 1) = true ∧
    s.on (F.CS_FLUSH_BUSY 1) = false ∧ b.barOk = true ∧ b.busy 8 = false ∧ s.chunkPart (8 * 128) = 1 ∧
    s.on (F.CS_PIN_CTL_BUSY 1) = false ∧ (s.set (F.CS_PIN_CTL_BUSY 1) 1).on (F.CS_PIN_CTL_BUSY 1) = true ∧
    (s.cisFind 8).any (·.pin) = true ∧ s.hasReds 8 = false ∧ s.busy 8 = false ∧ s.heldLine 8 = false ∧
    s.chanWaits 8 (s.onlyMem 8 15) = false ∧ s.sliceOwner (s.homeSlice 8) ≠ some 1 ∧
    (let q := s.set (F.CS_PSLICE_SLICES 1 0) 1; q.sliceOwner (q.homeSlice 8) = some 1) := by decide
set_option maxRecDepth 40000 in
theorem witness_HomesFlushesAndPins2 :
    let s := (stCs [] none [] true).set (F.CS_PSLICE_SLICES 2 0) 1
    s.barOk = true ∧ s.presentSlices 0 (s.get (F.CS_PSLICE_SLICES 2 0)) &&& 1 ≠ 0 ∧
    (stCs [] (some (A.CS_HOMEMAP 5, 1#64)) [] true).coh.rehome = some (A.CS_HOMEMAP 5, 1#64) ∧ (stCs [] none [] true).coh.txns = [] ∧
    [2, 3, 8, 9, 10].all (fun st => tabFind (stCs [] none [(1, st, 8, 1, 0)] true).coh.pinning 1 == some (st, 8, 1, 0)) = true := by decide
set_option maxRecDepth 40000 in
/-- R287: a range unpin of line 8 ends with PIN clear and STATUS 0. -/
theorem test_unpin : nextIs (exec (.pinOperationComplete 1 0) (stCs [] none [(1, 9, 8, 1, 0)] true)) (fun t =>
    (t.cisFind 8).any (fun c => !c.pin) && t.get (F.CS_PIN_CTL_STATUS 1) == 0) = true := by decide

set_option maxRecDepth 40000 in
/-- Hypotheses of MemoryReadsAndSliceCopies: transactions of line 8 that wait for memory, and replacements of slice 3. -/
theorem witness_MemoryReadsAndSliceCopies :
    let tx := fun (k : ReqKind) => ({ st0 .ready [] with coh := { Coh.reset with txns := [(8, ⟨⟨1, k, 1024, 0, 0, 0, 1, 0, 0, 0, 1⟩, [], [], true, 1, [], false, false, false, none⟩)] } } : State)
    let t : Txn := ⟨⟨1, .rdOwn, 1024, 0, 0, 0, 1, 0, 0, 0, 1⟩, [], [], true, 1, [], false, false, false, none⟩
    (tx .rdOwn).txn 8 = some t ∧ (tx .rdOwn).chanTurn 8 t = true ∧ (tx .rdOwn).noWay 8 t = false ∧
    ((tx .rdNarrow).txn 8).any (fun t => t.mem && t.req.kind == .rdNarrow && (tx .rdNarrow).chanTurn 8 t) = true ∧ (tx .rdNarrow).txn 9 = none ∧
    (tx .rdNarrow).sectorPoison 32 = false ∧ (tx .rdNarrow).sectorMarked 32 = false ∧
    (let u := { tx .rdNarrow with mc := { (tx .rdNarrow).mc with bad := [32] } }; 32 ∈ u.mc.bad ∧ u.sectorMarked 32 = false) ∧
    (let s := ({ st0 .ready [] with sp := { Spare.reset with repl := [⟨4, 3, 16, 1, 0, 2⟩, ⟨4, 5, 0, 2, 0, 2⟩] } } : State)
     (s.replFind 4 3).any (fun r => r.stage == 1) = true ∧ (s.replFind 4 5).any (fun r => r.stage == 2) = true ∧ s.replFind 4 4 = none ∧
     s.coh.txns = [] ∧ (tx .rdOwn).homeSlice 8 < 256) := by decide
set_option maxRecDepth 40000 in
/-- R295: physical slice 16, the spare of the domain, takes slot 3. -/
theorem test_sliceCopy : nextIs (exec (.sliceCopyComplete 3)
    { st0 .ready [] with sp := { Spare.reset with repl := [⟨4, 3, 16, 1, 0, 2⟩] } }) (fun t => t.slPhys 3 == 17 && t.isRetired 2 3) = true := by decide

/-- A ready machine with replacements listed. -/
def stRepl (l : List Repl) (f : MemCtl → MemCtl) : State :=
  { st0 .ready [] with sp := { Spare.reset with repl := l }, mc := f (st0 .ready []).mc }
set_option maxRecDepth 40000 in
/-- Hypotheses of ChannelsRowsAndWindows. -/
theorem witness_ChannelsRowsAndWindows :
    let s := stRepl [⟨2, 5, 1, 1, 0, 2⟩, ⟨1, 3, 128, 3, 7, 1⟩, ⟨1, 133, 260, 1, 0, 1⟩] id
    let w := s.set (F.MC_STACK_BAND 0) 1
    s.chThere 0 = true ∧ s.chFailed 0 = false ∧ s.coh.txns = [] ∧ tabGet 0 s.mc.parity 0 + 1 < 3 ∧ s.lostAt 0 = false ∧
    (s.replFind 2 5).isSome = true ∧ s.replFind 2 6 = none ∧ (s.evacAt 0 3).isSome = true ∧ (s.evacAt 1 1).isSome = true ∧
    s.sectorMarked 0 = false ∧ (0 ∉ s.mc.bad) ∧ s.servePhys 0 < 1584 ∧ s.rowUnit (s.rowAt 0) < 2 ^ 40 ∧ (stRepl [] fun m => { m with bad := [7] }).mc.bad = [7] ∧
    s.evacAt 1 3 = none ∧ s.evacAt 0 1 = none ∧ s.barOk = true ∧ State.reset.barOk = false ∧ w.get (F.MC_STACK_BAND 0) = 1 ∧ w.dieBad 10 = false ∧
    toSigned 8 (w.get (F.MC_STACK_TEMP 0)) + 3 ≤ 85 ∧ s.get (F.MC_STACK_BAND 0) = 0 := by decide
set_option maxRecDepth 40000 in
theorem witness_ChannelsRowsAndWindows2 :
    let s := stRepl [⟨1, 3, 128, 3, 7, 1⟩] id
    let e := stRepl [⟨1, 3, 128, 3, 0x7FFFF, 1⟩] fun m => { m with failed := [3], parity := [(0, 2)] }
    7 + 1 < chanRows ∧ (e.evacAt 0 3).any (fun r => decide (chanRows ≤ r.mark + 1 ∧ r.unit < 1536)) = true ∧ 3 ≤ tabGet 0 e.mc.parity 0 + 1 ∧
    e.chFailed 3 = true ∧ (s.get (F.MC_CH_STAT_STATE 0)) ≠ 2 ∧ s.on (F.MC_STACK_EVAC 0) = false ∧ s.replFind 1 0 = none ∧
    (s.set (F.MC_STACK_EVAC 0) 1).on (F.MC_STACK_EVAC 0) = true ∧ s.capReg 0 = 384 ∧ bits (0x1FFD0 : BitVec 64).toNat 7 0 = 208 := by decide
set_option maxRecDepth 100000 in
/-- The spares of a stack: 4 at reset, none once they are retired; a row's channel. -/
theorem witness_ChannelsRowsAndWindows3 :
    let s := stRepl [] id
    (s.spareChannels 0).length = 4 ∧ s.chLogical 0 = some 0 ∧
    ({ s with sp := { s.sp with retired := [128, 129, 130, 131].map (unitKey 3 ·) } } : State).spareChannels 0 = [] := by decide
set_option maxRecDepth 40000 in
/-- R317: the spare 128 takes slot 3 after the last row. -/
theorem test_evacEnd : nextIs (exec (.evacRowCopy 0 []) (stRepl [⟨1, 3, 128, 3, 0x7FFFF, 1⟩] id)) (fun t => t.chPhys 3 == 129) = true := by decide

/-- A command of queue 0 fetched from the ring: its opcode and operand words from offset 16. -/
def mkCmd (op : Nat) (ws : List Nat) (parent : Option Nat) : Cmd :=
  Cmd.fresh 7 0 3 0 0 0 parent (toBytes 8 op ++ toBytes 8 0 ++ ws.flatMap (toBytes 8))
/-- Queue 0 is ACTIVE in context 1 of partition 0, which runs, with rings of 64 entries and tables that map the first GiB. -/
def stFe (cmds : List Cmd) (f : Front → Front) : State :=
  let s : State := { st0 .ready [] with fe := f { Front.reset with cmds := cmds }, mem := [(0, 1#8), (1, 0x10#8), (0x1000, 7#8)] }
  let s := ((s.set (F.FE_Q_OWN_CTX 0) 1).set (F.PT_CTX_STAT_STATE 1) 2).set (F.FE_Q_STAT_STATE 0) 1
  (s.set (F.FE_Q_CFG_CQSIZE 0) 6).set (F.FE_Q_CFG_SIZE 0) 6
set_option maxRecDepth 40000 in
/-- Hypotheses of FrontEndCommandsStart: each command may start; a WAIT that has started may look again; a level that runs. -/
theorem witness_FrontEndCommandsStart :
    ([0x01, 0x0B, 0x0C, 0x0F, 0x11, 0x03, 0x0A, 0x09, 0x02, 0x05].all fun op =>
      let c := mkCmd op [0, 0, 0, 0] none
      let s := stFe [c] id
      s.cmd c.id == some c && c.op == op && s.mayStart c) = true ∧
    (let c := { mkCmd 0x09 [0, 0, 0, 0] none with started := true }
     let s := stFe [c] id
     s.mayRetry c = true ∧ c.waitMode 0 = true ∧ s.mayStart c = false ∧ s.frozenPart (s.qPart 0) = false ∧ (s.fe.cmds.map (·.id)).Nodup ∧
     (mkCmd 0x09 [1, 0, 0, 0] none).waitMode 1 = true) := by decide
set_option maxRecDepth 40000 in
/-- A graph that is defined, and one that is not; a marker that matches; an address without tables faults. -/
theorem witness_FrontEndCommandsStart2 :
    let c := mkCmd 0x03 [0, 0, 0, 0] none
    let s := (stFe [c] fun f => { f with graphs := [(0, ⟨1, 0, 1, 0⟩)] }).set (F.FE_GRAPH_DEFINED 0 0) 1
    tabFind s.fe.graphs (s.graphOf c) = some ⟨1, 0, 1, 0⟩ ∧ s.graphDefined (s.graphOf c) = true ∧
    tabFind (stFe [c] id).fe.graphs 0 = none ∧
    (let m := mkCmd 0x0E [] none
     let s := stFe [m] fun f => { f with nests := [(0, [.cond true false])] }
     matchMarker m.op (s.nestOf 0 none) = some ([], none) ∧ (s.setCmds []).stage1 m = 0 ∧ m.started = false) := by decide
set_option maxRecDepth 200000 in
/-- A read of the first GiB gives its bytes; the second faults. -/
theorem witness_FrontEndCommandsStart3 :
    let c := mkCmd 0x0C [0, 0, 0, 0] none
    ((stFe [c] id).cmdRead c 0 8).2 = .ok [1, 0x10, 0, 0, 0, 0, 0, 0] ∧
    (match ((stFe [c] id).cmdRead c 0x40000000 8).2 with | .fault _ => true | _ => false) = true ∧
    (stFe [c] id).locate 1 0 0 true = .mem 0 ∧ (match (stFe [c] id).locate 1 0 0x40000000 true with | .fault _ => true | _ => false) = true := by decide
set_option maxRecDepth 40000 in
/-- R365: a NOP is over when it starts. -/
theorem test_cmdNop : nextIs (exec (.cmdNop 7) (stFe [mkCmd 0x01 [] none] id)) (fun t =>
    t.fe.cmds.all fun c => c.started && c.ended && c.status == 0) = true := by decide

set_option maxRecDepth 60000 in
/-- Hypotheses of GraphsLaunchesAndPosts: a define that fits and one that does not, patches and deletes of a graph. -/
theorem witness_GraphsLaunchesAndPosts :
    let w := fun a => mkCmd 0x04 [a * 65536 + 2 ^ 48, 0, 1, 0] none
    let st := fun c cmds f => (((stFe (c :: cmds) f).set (F.FE_GRAPH_DEFINED 0 0) 1).set (F.FE_GRAPH_ENTRIES 0 0) 1)
    let g := fun (fe : Front) => { fe with graphs := [(0, ⟨1, 0, 1, 0⟩)] }
    let pin := fun b => { mkCmd 0x03 [0] none with id := 8 + b, started := true, graph := some (0, b) }
    ([0, 1, 2].all fun a => (st (w a) [] g).mayStart (w a) && (w a).patchAct a && (w a).op == 4) = true ∧
    (w 1).word 24 < 64 * (st (w 1) [] g).graphEntries 0 ∧ patchPairs (patchN (w 1).entry) = [24] ∧ (st (w 1) [] g).pinned 0 0 = false ∧
    (st (w 1) [pin 0, pin 1] g).pinned 0 0 = true ∧ (st (w 1) [pin 0, pin 1] g).pinned 0 1 = true ∧ (st (w 1) [pin 0, pin 1] g).pins 0 = 2 ∧
    ((st (w 1) [pin 0, pin 1] g).fe.cmds.map (·.id)).Nodup ∧ (st (w 2) [] g).pins 0 = 0 ∧
    (let c := { w 1 with started := true }; (stFe [c] g).mayRetry c = true) ∧
    ((stFe [w 0] id).set (F.FE_GSIZE_SIZE 0) 1).storeFit 0 1 = some (0, 1) ∧ (stFe [w 0] id).storeFit 0 1 = none ∧
    graphOpsOk [1] 1 1 0 = true ∧ graphOpsOk [0x11] 1 1 0 = false := by decide
set_option maxRecDepth 60000 in
/-- A launch: no refusal for 1 core block of 1 thread; a core set in the context's share. A Berth with room, and a full one. -/
theorem witness_GraphsLaunchesAndPosts2 :
    let kd := toBytes 24 0 ++ toBytes 4 1 ++ toBytes 36 0
    let b := fun (n : Nat) => (((stFe [mkCmd 0x12 [0] none] id).set (F.FE_BERTH_OWN_EN 0) 1).set (F.FE_BERTH_OWN_CTX 0) 1).set (F.FE_BERTH_OWN_COUNT 0) n
    kdRefused kd (usableCores 0 1 false).length = false ∧ kdRefused (toBytes 64 0) 1 = true ∧ usableCores 0 1 false = [0] ∧
    ((stFe [] id).set (F.PT_CTX_CL_CLUSTERS 1 0) 1).coreSetOk 1 0 1 = true ∧ (stFe [] id).coreSetOk 1 0 1 = false ∧
    (b 0).berthOf 0 1 = true ∧ 0 < (b 0).berthDepth 0 ∧ (b 0).berthOf 1 1 = false ∧ (b 64).berthDepth 0 ≤ (b 64).get (F.FE_BERTH_OWN_COUNT 0) ∧
    (b 0).mayStart (mkCmd 0x12 [0] none) = true ∧ (mkCmd 0x02 [0, 0, 0x400] none).word 24 = 0 := by decide
/-- A define of one entry, whose line its home has answered, in a store of one unit. -/
def defCmd : Cmd := mkCmd 0x04 [2 ^ 48, 0, 1, 0] none
def stDef (got : List Got) : State := { (stFe [defCmd] id).set (F.FE_GSIZE_SIZE 0) 1 with coh := { Coh.reset with got := got } }
def stDefine : State := stDef [⟨cmdReader 7, 0, false, [(0, 1), (1, 0x10)], 0⟩]
def defEntry : List Byte := [1, 0x10] ++ List.replicate 62 0
theorem stDef_calm (g : List Got) : Laws.Calm (stDef g).coh := ⟨rfl, rfl, rfl, rfl, rfl, rfl, rfl, fun _ h => nomatch h⟩
set_option maxRecDepth 200000 in
theorem defineRead : stDefine.cmdRead defCmd 0 64 = (stDef [], .ok defEntry) := by
  have h : stDefine.locate (stDefine.qCtx defCmd.queue) (stDefine.qPart defCmd.queue) 0 false = .mem 0 := by decide +kernel
  have hp : pieces 0 64 = [(0, 64)] := by decide
  simp only [State.cmdRead, State.feRead, hp, State.getPieces, State.getPiece, h]
  rfl
set_option maxRecDepth 200000 in
/-- A define whose entries are read, fit and are written at once; one whose read is asked for. -/
theorem witness_GraphsLaunchesAndPosts3 :
    (stDefine.cmd defCmd.id = some defCmd ∧ defCmd.op = 0x04 ∧ stDefine.mayStart defCmd = true ∧ stDefine.coh.stalled = false) ∧
    defCmd.patchAct 0 = true ∧ bits (defCmd.word 32) 12 0 = 1 ∧ stDefine.graphOf defCmd = 0 ∧ tabFind stDefine.fe.graphs 0 = none ∧
    (∃ t, stDefine.cmdRead defCmd (defCmd.word 24) 64 = (t, .ok defEntry) ∧ t.coh.stalled = false ∧ t.storeFit 0 1 = some (0, 1) ∧
      graphOpsOk defEntry 1 1 0 = true ∧ (t.graphPut defCmd.queue 0 1 (0, 1) 1 defEntry).written 3 defCmd.queue = true) := by
  refine ⟨by decide +kernel, by decide, by decide, by decide +kernel, by decide, stDef [], defineRead, by decide, by decide +kernel,
    by decide, ?_⟩
  exact ((stDef_calm []).graphPut _ _ _ _ _ (by decide)).written _ _
set_option maxRecDepth 60000 in
/-- R373: a delete without pins drops the graph. -/
theorem test_graphDelete : nextIs (exec (.graphDelete 7) (((stFe [mkCmd 0x04 [2 * 65536] none]
    fun fe => { fe with graphs := [(0, ⟨1, 0, 1, 0⟩)] }).set (F.FE_GRAPH_DEFINED 0 0) 1))) (fun t => t.fe.graphs == []) = true := by decide

set_option maxRecDepth 60000 in
/-- Hypotheses of SnapshotsRegulationAndSelection. -/
theorem witness_SnapshotsRegulationAndSelection :
    ([(0x13, 0), (0x16, 0), (0x16, 1), (0x16, 2), (0x16, 3), (0x17, 0), (0x17, 1), (0x17, 2)].all fun e =>
      let c := mkCmd e.1 [e.2, 0] none
      let s := stFe [c] id
      s.cmd c.id == some c && c.op == e.1 && s.mayStart c && bits (c.word 16) 3 0 == e.2 && bits (c.word 16) 1 0 == e.2 % 4 &&
      !s.on F.BT_UPD_CTL_BUSY && s.boot.upd == none && tabFind s.boot.selDone c.id == none) = true ∧
    (stFe [] id).selImage 1 0 = none ∧ ((stFe [] id).set F.BT_UPD_CTL_BUSY 1).on F.BT_UPD_CTL_BUSY = true := by decide
/-- A configuration slot of no entries with SEQ 5 and VERSION 9, sealed with its CRC. -/
def slot9 : List Byte :=
  let l := toBytes 4 cfgMagic ++ toBytes 4 1 ++ toBytes 4 5 ++ toBytes 4 9 ++ toBytes 48 0
  patch32 l 16 (crc32c l)
/-- The command's machine with that slot as current slot of device 0 and as its factory slot, device 1 present or not. -/
def stCfg (c : Cmd) (dev1 : Bool) : State :=
  let s := stFe [c] id
  let at' := fun (a : Nat) => slot9.mapIdx fun i b => (a + i, b)
  { s with boot := { s.boot with dev1 := dev1, flash0 := if offCfg < offFactory then at' offCfg ++ at' offFactory else at' offFactory ++ at' offCfg } }
set_option maxRecDepth 200000 in
theorem witness_SnapshotsRegulationAndSelection2 :
    let c := mkCmd 0x17 [2, 9] none
    (stCfg c true).selImage 0 9 = some slot9 ∧ (stCfg c true).selImage 2 9 = some slot9 ∧ (stCfg c true).selSeq = 5 ∧
    (stCfg c true).flashThere (stCfg c true).selDev = true ∧ (stCfg c false).flashThere (stCfg c false).selDev = false ∧
    (stCfg c true).mayStart c = true := by decide
set_option maxRecDepth 60000 in
/-- R321: a guarantee of 300 would exceed 208: status 0x5C. -/
theorem test_regulate : nextIs (exec (.regulateMcReg 7) (stFe [mkCmd 0x16 [0, 255] none] id)) (fun t =>
    t.fe.cmds.all (fun c => c.ended && c.status == 0x5C) && t.on F.MC_ERR_RANGE) = true := by decide

set_option maxRecDepth 100000 in
/-- Hypotheses of PumpAndLighterStarts: each opcode may start; a share with Pump 0 and Lighter 0, and one with neither. -/
theorem witness_PumpAndLighterStarts :
    ([0x07, 0x08, 0x05, 0x06, 0x14, 0x15].all fun op =>
      let c := mkCmd op [64, 0, 0, 0] none
      let s := stFe [c] id
      s.cmd c.id == some c && c.job == none && s.mayStart c && !s.coh.stalled && c.word 16 % 64 == 0) = true ∧
    (mkCmd 0x07 [1] none).word 16 % 64 ≠ 0 ∧
    (let s := ((stFe [] id).set (F.PT_PART_PU_PUMPS 0 0) 1).set (F.PT_PART_LT_LIGHTERS 0) 1
     s.pickPump 0 0xFF 0 = some 0 ∧ s.pickLighter 0 none = some 192 ∧ s.pickLighter 0 (some 1) = some 192) := by decide
set_option maxRecDepth 200000 in
/-- A FILL of 4 bytes at 0x2000 passes its checks; one of 0 bytes does not; a gather's descriptor of zeros is out of range. -/
theorem witness_PumpAndLighterStarts2 :
    let c := mkCmd 0x06 [0, 0x2000, 4, 2 ^ 24] none
    let s := stFe [c] id
    leastStop (s.lightChecks c).1 = none ∧ s.pickLighter 0 (s.destQuay c (s.lightChecks c).2) = none ∧
    (leastStop (s.lightChecks (mkCmd 0x06 [0, 0, 0, 2 ^ 24] none)).1).map (·.code) = some 0x41 ∧
    (leastStop (s.lightChecks (mkCmd 0x06 [0, 0x40000000, 4, 2 ^ 24] none)).1).map (·.code) = some 0x01 ∧
    (leastStop (s.descStops (mkCmd 0x08 [64] none) (toBytes 64 0) (gatherResv (toBytes 64 0)) (gatherRange (toBytes 64 0)))).map (·.code) = some 0x41 := by
  decide

/-- A command with a job on a unit; the descriptor and position are given. -/
def mkJob (op : Nat) (ws : List Nat) (unit : Nat) (desc : List Byte) (f : Job → Job) : Cmd :=
  { mkCmd op ws none with started := true, job := some (f (Job.new unit desc)) }
set_option maxRecDepth 200000 in
/-- Hypotheses of PumpAndLighterProgress: raw and block streams, gathers, a FILL of core 0, ended and moving jobs. -/
theorem witness_PumpAndLighterProgress :
    let sd := fun (fmt n : Nat) => toBytes 8 0 ++ toBytes 8 (n + fmt * 2 ^ 24 + 2 ^ 40) ++ toBytes 8 (64 * 2 ^ 20) ++ toBytes 40 0 ++ toBytes 128 0
    let raw := mkJob 0x07 [64] 0 (sd 0 64) id
    let fill := mkJob 0x06 [0x11, 0, 64, 2 ^ 24 + 2 ^ 16] 192 [] id
    let st := fun (c : Cmd) => ({ stFe [c] id with cores := [(0, { Core.idle with blk := some ⟨1, 1, 0, 0, 32, false, false, 0⟩ })] } : State)
    ([raw, mkJob 0x07 [64] 0 (sd 1 64) id, mkJob 0x07 [64] 0 (sd 1 8) id, mkJob 0x08 [64] 0 (toBytes 64 0) id, fill,
      mkJob 0x14 [0] 192 [] id, mkJob 0x15 [0] 192 [] id].all fun c => (st c).activeJob c == c.job && (st c).cmd 7 == some c) = true ∧
    streamFormat (sd 0 64) = 0 ∧ streamFormat (sd 1 64) ≠ 0 ∧ streamSrcLen (sd 1 8) < 16 ∧ (streamDesc (sd 0 64)).targets[0]? = some 0 ∧
    (st raw).clThere 0 = true ∧ (st raw).reachable 1 0 = true ∧ (st raw).delivering raw == raw.job ∧
    fill.tosp = true ∧ fill.core = 0 ∧ 0 < fill.len ∧ (st fill).reachable 1 0 = true ∧
    ((st raw).srcPieces raw false (pieces 0 64)).2 = .ok ([1, 0x10] ++ List.replicate 62 0) ∧ (st fill).coh.stalled = false ∧ (st fill).fabOut 7 = false ∧
    (let e := mkJob 0x06 [0, 0, 64, 2 ^ 24] 192 [] fun j => { j with ended := true }
     (st e).performed e (e.job.getD (Job.new 0 [])) = true ∧ (st fill).performed fill (fill.job.getD (Job.new 0 [])) = false) := by decide
set_option maxRecDepth 200000 in
/-- A raw block, an empty header, entries of a gather. -/
theorem witness_PumpAndLighterProgress2 :
    (blockHdr (toBytes 16 0)).ok = false ∧ ({ stFe [] id with sp := { Spare.reset with clSlot := [(0, 0)] } } : State).clThere 0 = false ∧
    (mkJob 0x06 [0] 0xFFFF [] id).job.any (fun j => decide (224 ≤ j.unit) && !j.ended) = true ∧ bits 2 4 1 ≠ 0 ∧ bits 0x41 4 1 = 0 ∧ bit 0x41 0 = true := by decide
set_option maxRecDepth 200000 in
/-- R340: a FILL of 64 bytes of 0x11 into the scratchpad of core 0. -/
theorem test_fill : nextIs (exec (.fill 7) { stFe [mkJob 0x06 [0x11, 0, 64, 2 ^ 24 + 2 ^ 16] 192 [] id] id with
    cores := [(0, { Core.idle with blk := some ⟨1, 1, 0, 0, 32, false, false, 0⟩ })] }) (fun t =>
    (t.core 0).wellGet 0 65 == List.replicate 64 0x11 ++ [0]) = true := by decide

/-- Queue 0 with a ring in the host window at its start, TAIL 1, and that chunk mapped for partition 0. -/
def stRing (cmds : List Cmd) : State :=
  ((((stFe cmds id).set (F.FE_Q_RING_BASE 0) 0x10000000).set (F.FE_Q_PTR_TAIL 0) 1).set (F.PT_HWIN_V 0) 1).set (F.PT_HWIN_W 0) 1
set_option maxRecDepth 100000 in
/-- Hypotheses of FetchOfEntries: a ring entry within TAIL, mapped and not; a CALL's entry. -/
theorem witness_FetchOfEntries :
    let s := stRing []
    s.running = true ∧ s.written 4 0 = true ∧ s.readRoom = true ∧ s.qState 0 = 1 ∧ s.feRuns 0 = true ∧ s.levelIdle 0 none = true ∧
    1 + entExt (toBytes 64 1) ≤ (s.get (F.FE_Q_PTR_TAIL 0) + 2 ^ 32 - s.get (F.FE_Q_PTR_HEAD 0)) % 2 ^ 32 ∧
    s.hwinCheck (s.qPart 0) false (s.ringAddr 0 0) = 0 ∧ (stFe [] id).hwinCheck 0 false ((stFe [] id).ringAddr 0 0) ≠ 0 ∧
    (s.ringRead 0 0 0 1).2 = none ∧ (s.ringRead 0 0 0x13 1).2 = some { code := 0x13, pa := s.ringAddr 0 0 } ∧
    (let d := { mkCmd 0x11 [0, 1] none with started := true, ents := 1 }
     let s := stFe [d] id
     d.id ≠ 0 ∧ s.cmd d.id = some d ∧ d.fetching = true ∧ s.levelIdle 0 (some 7) = true) := by decide
set_option maxRecDepth 200000 in
/-- Entries taken: a marker, a NOP that passes, a reserved opcode, and one skipped; a CALL's reads. -/
theorem witness_FetchOfEntries2 :
    let s := stRing []
    (mkCmd 0x0E [] none).marker = true ∧ (mkCmd 0x01 [0, 0, 0, 0, 0, 0] none).marker = false ∧ nestRuns (s.nestOf 0 none) = true ∧
    s.stage1 (mkCmd 0x01 [0, 0, 0, 0, 0, 0] none) = 0 ∧ s.stage1 (mkCmd 0x30 [0, 0, 0, 0, 0, 0] none) = 0x50 ∧
    nestRuns [.cond false false] = false ∧
    (let d := { mkCmd 0x11 [0, 1] none with started := true, ents := 1, base := 0 }
     (match ((stFe [d] id).levelRead d 0 64).2 with | .ok e => entExt e == 0 | _ => false) = true ∧
     (match ((stFe [d] id).levelRead { d with base := 0x40000000 } 0 64).2 with | .fault _ => true | _ => false) = true) := by decide
set_option maxRecDepth 100000 in
/-- R357: HEAD and NEXT move past a NOP, which waits to start. -/
theorem test_fetch : nextIs (exec (.commandFetch 0 0 0 1 (toBytes 64 1)) (stRing [])) (fun t =>
    t.get (F.FE_Q_PTR_HEAD 0) == 1 && t.get (F.FE_Q_SEQ_NEXT 0) == 1 && t.fe.cmds.all (fun c => c.op == 1 && !c.started)) = true := by decide

set_option maxRecDepth 100000 in
/-- Hypotheses of CompletionsWatchdogsAndResets. -/
theorem witness_CompletionsWatchdogsAndResets :
    let ended := { mkCmd 0x01 [] none with started := true, ended := true }
    let runs := { mkCmd 0x09 [0, 0, 0, 0] none with started := true, entry := toBytes 2 9 ++ toBytes 2 1 ++ toBytes 60 0 }
    let call := { mkCmd 0x11 [0, 1] none with started := true }
    let s := (stRing [ended]).set (F.FE_Q_CQ_BASE 0) 0x10000000
    s.cmd 7 = some ended ∧ s.overAs ended = some ended ∧ s.vfStopped 0 = false ∧ s.qState 0 = 1 ∧ s.canWrite 0 = true ∧ s.heldOf 0 = [] ∧
    0 < s.cqSpace 0 ∧ s.hwinCheck (s.qPart 0) true (0x10000000 * 4096) = 0 ∧ s.sluices = [] ∧
    ((stFe [runs] id).boundOf runs ≠ 0 ∧ (stFe [runs] id).ctxState 1 = 2 ∧ (stFe [runs] id).haltedCtx 1 = false) ∧ (stFe [call] id).overAs call = some { call with ended := true } ∧
    (stFe [mkCmd 0x01 [] none] id).overAs (mkCmd 0x01 [] none) = none := by decide
set_option maxRecDepth 100000 in
/-- An overrun with a non-preemptible command; a queue being reset; a full completion ring. -/
theorem witness_CompletionsWatchdogsAndResets2 :
    let np := { mkCmd 0x01 [] none with started := true, entry := toBytes 64 (1 + 2 ^ 12) }
    let s := (stFe [np] fun f => { f with ctxs := [(1, { Ctx.new with asked := true })] }).set (F.PT_PART_CTL_SLICE 0) 5
    let full := ((stRing []).set (F.FE_Q_CQPTR_WRITTEN 0) 64).set (F.FE_Q_CQHEAD_ADDR 0) 0x4000000000
    np.np = true ∧ (s.ctx 1).asked = true ∧ s.get (F.PT_PART_CTL_SLICE (s.ctxPart 1)) ≠ 0 ∧ s.ctxState 1 = 2 ∧ (s.fe.cmds.find? fun d => d.started && d.np && s.qCtx d.queue == 1) = some np ∧
    ((stFe [] id).set (F.FE_Q_STAT_STATE 0) 3).qState 0 = 3 ∧ (stFe [] id).ctxState 1 ≠ 6 ∧
    full.cqSpace 0 = 0 ∧ full.readRoom = true ∧ full.exitQuay 0 = some 0 ∧ full.hwinCheck 0 false (0x4000000000 * 4) = 0 ∧ full.qState 0 ≠ 0 ∧
    full.cqSize 0 < (full.get (F.FE_Q_CQPTR_WRITTEN 0) + 2 ^ 32 - 65) % 2 ^ 32 ∧ (full.get (F.FE_Q_CQPTR_WRITTEN 0) + 2 ^ 32 - 0) % 2 ^ 32 ≤ full.cqSize 0 := by decide
set_option maxRecDepth 100000 in
/-- R378: the host's head 10 frees ten entries. -/
theorem test_headShadow : nextIs (exec (.headShadowRead 0 0 10) (((stRing []).set (F.FE_Q_CQPTR_WRITTEN 0) 64).set (F.FE_Q_CQHEAD_ADDR 0) 0x4000000000))
    (fun t => t.cqSpace 0 == 10) = true := by decide

set_option maxRecDepth 40000 in
/-- Hypotheses of ResumeDoorbells: PF0 at a queue that accepts, and at one whose epoch has moved on. -/
theorem witness_ResumeDoorbells :
    let s := stFe [] id
    s.funcOk 0 = true ∧ s.qFunc 0 = 0 ∧ s.qState 0 = 1 ∧ s.genOf 0 = 1 ∧ s.get (F.FE_Q_STAT_EPOCH 0) = 0 ∧
    s.get (F.FE_Q_PTR_TAIL 0) = 0 ∧ s.get (F.FE_Q_CFG_SIZE 0) = 6 ∧
    (let t := s.set (F.FE_Q_STAT_EPOCH 0) 1
     t.funcOk 0 = true ∧ t.get (F.FE_Q_STAT_EPOCH 0) = 1) ∧
    (let t : State := (((s.set (F.FE_Q_OWN_FUNC 5) 1).set (F.FE_Q_STAT_STATE 5) 1).set (F.PT_FN_BOUND 1) 1).set (F.FE_Q_CFG_SIZE 5) 6
     let t : State := { t with host := { t.host with vfEn := true } }
     t.funcOk 1 = true ∧ t.vfBound 1 = true ∧ (t.vfQueues 1)[0]? = some 5) := by decide
set_option maxRecDepth 40000 in
/-- R359: a submit of four entries moves TAIL. -/
theorem test_doorbellSubmit : nextIs (exec (.doorbell 0 0 8 (BitVec.ofNat 64 (4 + 0x100000000))) (stFe [] id))
    (fun t => t.get (F.FE_Q_PTR_TAIL 0) == 4) = true := by decide

set_option maxRecDepth 40000 in
/-- Hypotheses of QueuesBerthsAndGraphStores: a queue OFF that an enable refuses, one that it accepts, one ACTIVE; a Berth in
use and one that may be; a partition with a graph. -/
theorem witness_QueuesBerthsAndGraphStores :
    let s := stFe [] fun f => { f with graphs := [(3072, ⟨0, 0, 1, 0⟩)] }
    s.barOk = true ∧ s.qState 0 = 1 ∧ s.qState 1 = 0 ∧ s.enableErr 1 = 1 ∧ s.sluices = [] ∧ s.ctxState (s.qCtx 0) = 2 ∧ s.hasGraph 3 = true ∧
    s.hasGraph 0 = false ∧
    (let t := ((((s.set (F.FE_Q_RING_BASE 1) 0x10000000).set (F.FE_Q_CQ_BASE 1) 0x10000001).set (F.FE_Q_CQHEAD_ADDR 1) 0x4000000000).set
        (F.FE_Q_CFG_SIZE 1) 6).set (F.FE_Q_CFG_CQSIZE 1) 6
     t.enableErr 1 = 4 ∧ (t.set (F.FE_Q_OWN_CTX 1) 1).enableErr 1 = 0) ∧
    (let t := (s.set (F.FE_BERTH_CFG_DEPTH 2) 4).set (F.FE_BERTH_OWN_EN 3) 1
     t.berthMay 2 1 0 = true ∧ t.berthMay 2 2 0 = false ∧ t.on (F.FE_BERTH_OWN_EN 3) = true ∧ t.on (F.FE_BERTH_OWN_EN 2) = false) := by decide
set_option maxRecDepth 40000 in
/-- R381: with nothing started a disabled queue is OFF. -/
theorem test_queueDisable : nextIs (exec (.queueDisable 0) (stFe [mkCmd 1 [] none] id)) (fun t => t.qState 0 == 0 && t.fe.cmds == []) = true := by
  decide
set_option maxRecDepth 40000 in
/-- R381: RESET tears the context down. -/
theorem test_queueReset : nextIs (exec (.queueReset 0) (stFe [mkCmd 1 [] none] id)) (fun t =>
    t.qState 0 == 3 && t.ctxState 1 == 6 && t.fe.cmds == []) = true := by decide
set_option maxRecDepth 40000 in
/-- Hypotheses of PartitionsAndContexts: partitions enabled and not; a creation that passes and one that fails; contexts
live, TEARING and to be FREE. -/
theorem witness_PartitionsAndContexts :
    let s := ((stFe [] id).set (F.PT_PART_CTL_EN 0) 1).set (F.PT_PART_CL_CLUSTERS 0 0) 3
    s.barOk = true ∧ s.partEn 0 = true ∧ s.partEn 1 = false ∧ s.partOverlaps 1 = false ∧ s.partCtxs 0 = [1] ∧ s.partCtxs 1 = [] ∧
    s.partBound 0 = false ∧ (s.set (F.PT_PART_CL_CLUSTERS 1 0) 2).partOverlaps 1 = true ∧ s.sluices = [] ∧ s.ctxState 1 = 2 ∧
    s.on (F.PT_CTX_CTL_LIVE 2) = false ∧ (s.set (F.PT_CTX_CL_CLUSTERS 2 0) 2).ctxMay 2 0 0 = true ∧ s.ctxMay 2 0 0 = false ∧
    (let t := s.set (F.PT_CTX_CTL_LIVE 1) 1
     t.on (F.PT_CTX_CTL_LIVE 1) = true ∧ t.ctxState 1 ≠ 0 ∧ t.ctxState 1 ≠ 6) ∧
    (let t := (s.set (F.PT_CTX_CTL_LIVE 1) 1).set (F.PT_CTX_STAT_STATE 1) 6
     t.ctxState 1 = 6 ∧ t.ownCore 1 0 = true ∧ t.excIn 1 = false ∧ t.engLate 1 = false ∧ (t.ctx 1).free = false ∧
     ((t.setCtx 1 { Ctx.new with free := true }).ctx 1).free = true) := by decide
set_option maxRecDepth 40000 in
/-- R393: a creation makes an IDLE context of generation 1. -/
theorem test_contextCreate :
    nextIs (exec (.contextCreate 2 0x100010000) (((((stFe [] id).set (F.PT_PART_CTL_EN 0) 1).set (F.PT_PART_CL_CLUSTERS 0 0) 3).set
      (F.PT_CTX_CL_CLUSTERS 2 0) 2))) (fun t => t.ctxState 2 == 1 && t.cgenOf 2 == 1 && t.on (F.PT_CTX_CTL_LIVE 2)) = true := by decide

set_option maxRecDepth 40000 in
/-- Hypotheses of SwitchesOfContexts: two contexts that want one cluster, of which the runnable one is granted; a slice; a
context that drains, one that saves and one that restores. -/
theorem witness_SwitchesOfContexts :
    let s := (((((stFe [mkCmd 1 [] none] id).set (F.PT_CTX_STAT_STATE 2) 2).set (F.PT_CTX_CL_CLUSTERS 1 0) 1).set
      (F.PT_CTX_CL_CLUSTERS 2 0) 1).set (F.PT_PART_CTL_SLICE 0) 1).setClSlot 0 1
    s.grants 0 = [1] ∧ s.partCtxs 0 = [1, 2] ∧ s.ctxState 2 = 2 ∧ s.excIn 2 = false ∧ s.npRunning 2 = false ∧ s.maskThere 2 = true ∧
    s.get (F.PT_PART_CTL_SLICE (s.ctxPart 2)) ≠ 0 ∧
    (let t := s.set (F.PT_CTX_STAT_STATE 2) 3
     (t.ctx 2).drained = false ∧ t.engBusy 2 = false ∧ t.excIn 2 = false ∧ t.coresOf 2 = [] ∧ (t.drainSluices 2).coresOf 2 = [] ∧ ((t.setCtx 2 { t.ctx 2 with drained := true }).ctx 2).drained = true ∧
     ((t.setCtx 1 { t.ctx 1 with granted := true }).incoming 0 2) = [1]) ∧
    (s.set (F.PT_CTX_STAT_STATE 2) 4).ctxState 2 = 4 := by decide
set_option maxRecDepth 40000 in
/-- R396, R398: at the end of its slice the context that is not granted is SAVING. -/
theorem test_timeSliceEnd :
    nextIs (exec (.timeSliceEnd 2 64) ((((((stFe [mkCmd 1 [] none] id).set (F.PT_CTX_STAT_STATE 2) 2).set (F.PT_CTX_CL_CLUSTERS 1 0) 1).set
      (F.PT_CTX_CL_CLUSTERS 2 0) 1).set (F.PT_PART_CTL_SLICE 0) 1).setClSlot 0 1))
      (fun t => t.ctxState 2 == 3 && t.get (F.PT_CHG_CORE_COUNT 2) == 8) = true := by decide
set_option maxRecDepth 200000 in
/-- A restore whose records are free of poison. -/
theorem witness_SwitchesOfContexts2 :
    let s := (stFe [] id).set (F.PT_CTX_STAT_STATE 1) 4
    s.maskCores 1 = [] ∧ (s.readRegion (s.saveBase 1) 0x10000).2 = false ∧ s.maskThere 1 = true ∧ s.areaReady 1 = true ∧
    ((s.set (F.PT_CTX_CL_CLUSTERS 1 0) 1).setClSlot 0 0).maskThere 1 = false ∧
    ({ s with coh := { Coh.reset with rehome := none, waitq := [⟨1, .rdOnce, 0, 1, 0, 0, 0x3FF, 0, 0, 0, 0⟩] } } : State).areaReady 1 = false := by
  decide
/-- A save of a context with nothing under way at the homes is written at once. -/
theorem witness_SwitchesOfContexts3 : ((stFe [] id).saveArea 1).written 3 saveUnit = true :=
  (Laws.Calm.saveArea ⟨rfl, rfl, rfl, rfl, rfl, rfl, rfl, fun e (h : e ∈ ([] : Tab CisLine)) => nomatch h⟩ 1).written _ _
set_option maxRecDepth 40000 in
/-- Hypotheses of FunctionsAndDeviceResets: bindings that are refused and made, an FLR, its end, and the device ready. -/
theorem witness_FunctionsAndDeviceResets :
    let s := ((stFe [] id).set (F.PT_PART_CTL_EN 0) 1).set (F.FE_Q_OWN_FUNC 0) 2
    let v : State := { s with host := { s.host with vfEn := true, flr := [1] } }
    s.barOk = true ∧ s.fnBusy 1 = false ∧ s.fnBusy 2 = true ∧ s.partEn 0 = true ∧ s.partEn 3 = false ∧ s.running = true ∧
    v.host.vfEn = true ∧ v.running = true ∧ v.fe.graphs = [] ∧ v.sluices = [] ∧ v.host.flr.contains 1 = true ∧ v.host.reads = [] ∧
    s.boot.phase = .ready ∧ s.boot.stopped = false ∧ (st0 (.running 6) []).boot.phase = .running 6 ∧
    (st0 (.running 10) []).boot.phase = .running 10 ∧ (st0 (.running 10) []).boot.leadFailed = false ∧ (st0 (.running 10) []).fe.graphs = [] ∧
    ({ st0 (.running 9) [] with boot := { (st0 (.running 9) []).boot with leadFailed := true } } : State).boot.leadFailed = true ∧ s.coh.rehome = none ∧ s.host.vfEn = false ∧ (s.set (F.FE_Q_STAT_STATE 0) 3).qState 0 = 3 ∧
    ({ s with boot := { s.boot with rerun := true } } : State).boot.rerun = true ∧ (State.reset.running = false) ∧
    State.reset.boot.phase ≠ .ready := by decide
set_option maxRecDepth 40000 in
/-- R405, R406: a binding that changes moves GEN on. -/
theorem test_functionBind :
    nextIs (exec (.functionBindWrite 1 0x10) ((stFe [] id).set (F.PT_PART_CTL_EN 0) 1)) (fun t => t.on (F.PT_FN_BOUND 1) && t.genOf 1 == 2) = true := by
  decide

/-- VF 1 owns partition 0, its context 1 and its queue 0 alone. -/
def stMig (f : Front → Front) : State :=
  let s := (((stFe [] f).set (F.PT_PART_CTL_EN 0) 1).set (F.PT_FN_BOUND 1) 1).set (F.PT_CTX_CTL_FUNC 1) 1
  let s := s.set (F.FE_Q_OWN_FUNC 0) 1
  { s with host := { s.host with vfEn := true } }
set_option maxRecDepth 40000 in
/-- Hypotheses of MigrationAndTheDirtyLog: a sole owner without a freeze, with one in progress, and with one complete. -/
theorem witness_MigrationAndTheDirtyLog :
    let s := stMig id
    s.barOk = true ∧ s.on F.PT_MIG_CTL_BUSY = false ∧ s.soleOwner 1 = true ∧ s.soleOwner 2 = false ∧ s.partCtxs 0 = [1] ∧ s.ctxState 1 = 2 ∧
    s.excIn 1 = false ∧ s.npRunning 1 = false ∧ s.on F.PT_DIRTY_CTL_DONE = true ∧ s.dirtySynced = true ∧ s.running = true ∧ s.migBuf + 64 ≤ localTop ∧
    (s.set F.PT_DIRTY_CTL_DONE 0).on F.PT_DIRTY_CTL_DONE = false ∧
    (let t := (stMig fun f => { f with frozen := [1] }).set (F.PT_CTX_STAT_STATE 1) 5
     t.soleOwner 1 = true ∧ 1 ∈ t.fe.frozen ∧ 1 ∉ t.fe.stopped ∧ t.still 0 = true) ∧
    (let t := (stMig fun f => { f with frozen := [1], stopped := [1] }).set (F.PT_CTX_STAT_STATE 1) 5
     t.soleOwner 1 = true ∧ 1 ∈ t.fe.stopped) ∧
    (let t := s.set F.PT_MIG_BUF_BASE 0x1FFFFFFFFFFF
     t.soleOwner 1 = true ∧ localTop < t.migBuf + 64) := by decide
set_option maxRecDepth 200000 in
/-- A buffer whose bytes are no record. -/
theorem witness_MigrationAndTheDirtyLog2 :
    ((((stMig id).set F.PT_MIG_BUF_BASE 1).set F.PT_MIG_CTL_VF 1).set F.PT_MIG_CTL_OP 3).migRead = none := by decide
set_option maxRecDepth 40000 in
/-- R410: a freeze switches out the context that runs. -/
theorem test_migrationFreeze : nextIs (exec (.migrationFreeze 1) (stMig id)) (fun t =>
    t.ctxState 1 == 3 && (t.ctx 1).freeze && t.on F.PT_MIG_CTL_BUSY) = true := by decide
/-- Port 0 in a state, with instance 1 and the partner's credits. -/
def stPort (st : Nat) (f : Port → Port) : State :=
  (({ st0 .ready [] with fab := { State.reset.fab with ports := [(0, f { Port.idle with cred := [100, 100, 100, 100], gotInit := true })] } } : State).set
    (F.GF_PORT_STAT_STATE 0) st).set F.GF_CHIPID_INST 1
set_option maxRecDepth 40000 in
/-- Hypotheses of PortsAndFlits: a port in each state, failed lanes with and without a spare, and registers that may change. -/
theorem witness_PortsAndFlits :
    let s := stPort 0 id
    s.barOk = true ∧ s.portState 0 = 0 ∧ s.inst = 1 ∧ s.get F.GF_CONNBASE_BASE * 2 ^ 25 + 2 ^ 25 ≤ localTop ∧ (s.set F.GF_CHIPID_INST 0).inst = 0 ∧
    (s.port 0).txq = [] ∧ laneWidth (s.port 0).bad = 3 ∧ (s.port 0).gotInit = true ∧ laneWidth [0, 2] = 0 ∧ laneWidth [0, 1] = 2 ∧ laneSpared [0, 2] = some 0 ∧ laneSpared [0, 1, 2] = some 2 ∧
    (stPort 1 id).portState 0 = 1 ∧ (stPort 2 id).portState 0 = 2 ∧ (stPort 3 id).portState 0 = 3 ∧
    (stPort 1 id).spareLane 0 = none ∧ ((stPort 1 id).set (F.GF_SPARE_PORTS 0) 1).spareLane 0 = some 0 ∧ ((stPort 1 id).set (F.GF_SPARE_PORTS 0) 1).spareLeftFor 0 = false ∧
    (((stPort 1 id).set (F.GF_SPARE_PORTS 0) 1).setPort 0 { Port.idle with bad := [0, 2] }).spareLeftFor 0 = true ∧
    ((List.range 36).all fun j => s.portState j == 0) = true ∧
    ((List.range 16).map fun q => if q = 3 then 60 else s.get (F.GF_REG_GUAR q)).sum = 60 := by decide
set_option maxRecDepth 400000 in
/-- A data flit, an idle flit and a damaged one. -/
theorem witness_PortsAndFlits2 :
    let f := flitBytes 0 0 4095 [1, 0, 0, 0] 0 []
    flitGood f = true ∧ flitBad f = false ∧ flitType f = 0 ∧ flitSeq f = ((stPort 2 id).port 0).exp := by decide
theorem test_damagedFlit : nextIs (exec (.dataFlit 0 0 [] []) (stPort 2 fun p => { p with asked := 7 })) (fun t =>
    t.portState 0 == 3 && (t.port 0).asked == 8) = true := by decide
/-- R450: a trained port is UP at four lanes. -/
theorem test_portTrained : nextIs (exec (.portTrained 0) (stPort 1 id)) (fun t =>
    t.portState 0 == 2 && t.get (F.GF_PORT_STAT_LANES 0) == 3) = true := by decide
/-- Port 0 is UP and has received a packet of chip 5, whose connection stands at W = 0 of instance 2; chunk 0 is exported. -/
def stFab (p : Packet) (full : Bool) : State :=
  let s := stPort 2 fun q => { q with inbox := [(p, full)] }
  (({ s with fab := { s.fab with
      rconns := [⟨5, 0, [], 2, []⟩]
      conns := [⟨5, 3, 2, false, [⟨1, 0, 0, none, [], false, false, ⟨0, 0, 0, 1, 1, 0, none, 0⟩, 0⟩], [], false⟩]
      reads := [⟨5, 9, 0, 0, ⟨0, 0, 0, 1, 0, 0, none, 0⟩, 0, 0, false⟩] } } : State).set (F.GF_EXPORT_R 0) 1).set (F.GF_EXPORT_W 0) 1
/-- A packet of chip 5. -/
def mkPkt (ty cls : Nat) : Packet :=
  { ty := ty, gcls := cls, hasMask := false, opn := false, sz := 0, resv := false, dst := 0, src := 5, cgen := 0, off := 0, psn := 1, tag := 9,
    dom := 0, spart := 0, status := 0, sinst := 2, dinst := 1, mask := 0, data := List.replicate 8 7 }
set_option maxRecDepth 100000 in
/-- Hypotheses of FabricRequestsAndAnswers: a read, a write and a signal that pass; an answer; a write that a refusal ends;
a gap. -/
theorem witness_FabricRequestsAndAnswers :
    (let s := stFab (mkPkt 1 1) false
     ((s.adopt 5 2).1.fabCheck (mkPkt 1 1) false = 0 ∧ s.inst = 1 ∧ (s.readAs (portReader 0) 7 false 0 8).2.2 = false)) ∧
    (let s := stFab (mkPkt 2 2) false
     s.fabCheck (mkPkt 2 2) true = 0 ∧ (s.rconn 5).map (·.inst) = some 2 ∧ s.wrReady (mkPkt 2 2) = true ∧ (s.adopt 5 2).2 = false) ∧
    (stFab (mkPkt 3 2) false).fabCheck (mkPkt 3 2) true = 0 ∧ (mkPkt 4 3).malformed = false ∧ (mkPkt 5 0).malformed = false ∧
    (mkPkt 6 0).malformed = false ∧
    (let s := stFab { mkPkt 6 0 with status := 3 } false
     ((s.conn 5).out.find? fun w => w.psn == 1).map (·.org.part) = some 0 ∧ (s.conn 5).queue = [] ∧
     (s.fab.reads.find? fun r => r.chip == 5 && r.tag == 9).map (·.org.cgen) = some 0 ∧ s.cgenOf 1 = 0) ∧
    (⟨5, 0, [3], 2, []⟩ : RConn).nextGap = some 3 ∧ (⟨5, 0, [], 2, []⟩ : RConn).nextGap = none := by decide
set_option maxRecDepth 100000 in
/-- R435: the next write in sequence moves W to it. -/
theorem test_wr : nextIs (exec (.wr 0 none) (stFab (mkPkt 2 2) false)) (fun t =>
    (t.rconn 5).map (·.w) == some 1 && t.peekNum 0 8 == 0x0707070707070707) = true := by decide
set_option maxRecDepth 40000 in
/-- R447: a refusal ends the write and GF_PERR keeps its code. -/
theorem test_nak : nextIs (exec (.nak 0) (stFab { mkPkt 6 0 with status := 3 } false)) (fun t =>
    (t.conn 5).out == [] && t.get (F.GF_PERR_LAST 0) == 3) = true := by decide
set_option maxRecDepth 40000 in
/-- R442: the gap below PSN 3 closes. -/
theorem test_gapClose : nextIs (exec (.gapCloseTimeout 5) (let s := stFab (mkPkt 2 2) false
    { s with fab := { s.fab with rconns := [⟨5, 0, [3], 2, []⟩] } })) (fun t => (t.rconn 5).map (·.w) == some 3) = true := by decide
/-- Context 1 is RUNNING and is the target; core 0 runs it, thread 0 alone live. -/
def stDbg (halted : Nat) (f : Core → Core) : State :=
  let s := stCore f
  let s : State := { s with dbg := ⟨some 1, none, none⟩, boot := { s.boot with cfgDone := true } }
  (((s.set (F.PT_CTX_STAT_STATE 1) 2).set F.TD_DBG_STAT_ATTACHED 1).set F.TD_DBG_STAT_HALTED halted)
set_option maxRecDepth 40000 in
/-- Hypotheses of DebuggerOperations: with and without a halted target, at both levels, busy and not; a die selected. -/
theorem witness_DebuggerOperations :
    let s := stDbg 1 id
    let r := stDbg 0 id
    s.barOk = true ∧ s.dbgLevel = 2 ∧ s.on F.TD_DBG_CTL_BUSY = false ∧ s.ctxState 1 = 2 ∧ s.ctxState 2 = 0 ∧ s.dbg.held = none ∧
    s.coresOf 1 = [0] ∧ (s.core 0).sb = [] ∧ (s.core 0).lowestPc 0 = some 0 ∧ ((s.core 0).blk.map (·.ctx)) = some 1 ∧
    r.on F.TD_DBG_STAT_HALTED = false ∧ (r.set F.TD_DBG_CTL_BUSY 1).on F.TD_DBG_CTL_BUSY = true ∧
    ((r.set F.BT_STAT_LOCK 1).set F.BT_POLICY_DBG 0).dbgLevel = 0 ∧ ((r.set F.BT_STAT_LOCK 1).set F.BT_POLICY_DBG 1).dbgLevel = 1 ∧
    (st0 .ready []).dbg.target = none ∧ instrumentOn 0 2 = true ∧ instrumentOn 0 0 = true ∧ State.reset.barOk = false ∧
    s.exitQuay 0 = some 0 ∧ ((r.set F.BT_STAT_LOCK 1).set F.BT_POLICY_DBG 3).dbgLevel = 0 := by decide
set_option maxRecDepth 40000 in
/-- R545: register 1 of thread 0 reads 7 while the target is halted. -/
theorem test_debugAccessRead : nextIs (exec (.debugAccessRead 0) ((stDbg 1 id).set F.TD_ACC_SEL_INDEX 1)) (fun t =>
    t.out == [.cplData (toBytes 8 7) false 0]) = true := by decide
set_option maxRecDepth 40000 in
/-- R543: a step arms the lowest fragment. -/
theorem test_step : nextIs (exec (.step 1 false) (stDbg 1 id)) (fun t => t.dbg.step == some (0, 0, 0) && t.on F.TD_DBG_CTL_BUSY) = true := by decide

set_option maxRecDepth 40000 in
/-- R392, R405, R412, R451: values other than 0 after reset. -/
theorem test_resetValues : State.reset.get (F.PT_CTX_CTL_SHARE 1023) = 1 ∧ State.reset.genOf 63 = 1 ∧ State.reset.get F.GF_XPORT_LIMIT = 32 ∧
    State.reset.on F.PT_DIRTY_CTL_DONE = true ∧ State.reset.qState 4095 = 0 := by decide

end Sys2Proof.Tests
end

section
/-! SUPPORT. What a write does to the single bits of a register (R7, R8): one access code, one field, the fields of a
register in turn, the register in the state. -/

namespace Sys2Proof

/-! ### Words by their bits -/

/-- Two numbers that agree on the bits of a field agree on the field. -/
theorem bits_congr {a b hi lo : Nat} (h : ∀ i, lo ≤ i → i ≤ hi → a.testBit i = b.testBit i) : bits a hi lo = bits b hi lo := by
  apply Nat.eq_of_testBit_eq
  intro i
  rw [testBit_bits, testBit_bits]
  by_cases c : i < hi + 1 - lo
  · rw [h (lo + i) (by omega) (by omega)]
  · simp [c]

/-! ### The register map -/

set_option maxRecDepth 100000 in
/-- Every field of the map lies within its 64-bit register (R36). -/
theorem regMap_field_bounds : ∀ d ∈ regMap, ∀ f ∈ d.fields, f.lo ≤ f.hi ∧ f.hi < 64 := by decide

set_option maxRecDepth 100000 in
/-- No two fields of one register share a bit. -/
theorem regMap_fields_disjoint : ∀ d ∈ regMap, d.fields.Pairwise fun f g => f.hi < g.lo ∨ g.hi < f.lo := by decide

theorem regDesc?_mem {off : Nat} {d : RegDesc} (h : regDesc? off = some d) : d ∈ regMap :=
  List.mem_of_find?_eq_some h

end Sys2Proof

namespace Sys2Proof.Machine

/-! ### One bit under its access code -/

/-- A bit that held `o`, after `v` is written to it under an access code (R7); `locked` is the boot lock. -/
def bitWrote (acc : Access) (locked o v : Bool) : Bool :=
  match acc with
  | .ro | .wo => o
  | .rw => v
  | .rwl => if locked then o else v
  | .w1c => o && !v
  | .w1s => o || v

/-- A write of a field changes the bits of the field alone, each as its access code says. -/
theorem testBit_fieldWrote {f : FieldDesc} (hf : f.lo ≤ f.hi) (locked : Bool) (old v i : Nat) :
    (fieldWrote f locked old v).testBit i =
      if f.lo ≤ i ∧ i ≤ f.hi then bitWrote f.acc locked (old.testBit i) (v.testBit i) else old.testBit i := by
  by_cases hin : f.lo ≤ i ∧ i ≤ f.hi
  · obtain ⟨hlo, hhi⟩ := hin
    have hw : i - f.lo < f.hi + 1 - f.lo := by omega
    have hi : f.lo + (i - f.lo) = i := by omega
    cases ha : f.acc with
    | rwl => cases locked <;> simp [fieldWrote, bitWrote, ha, testBit_setBits, testBit_bits, hf, hlo, hhi, hw, hi]
    | _ => simp [fieldWrote, bitWrote, ha, testBit_setBits, testBit_bits, hf, hlo, hhi, hw, hi]
  · cases ha : f.acc with
    | rwl => cases locked <;> simp [fieldWrote, ha, testBit_setBits, hf, hin]
    | _ => simp [fieldWrote, ha, testBit_setBits, hf, hin]

/-- A field that cannot be written, or that does not hold bit i, leaves it. -/
theorem testBit_fieldWrote_keep {f : FieldDesc} (hf : f.lo ≤ f.hi) {locked : Bool} {old v i : Nat}
    (h : f.acc = .ro ∨ f.acc = .wo ∨ i < f.lo ∨ f.hi < i) :
    (fieldWrote f locked old v).testBit i = old.testBit i := by
  rw [testBit_fieldWrote hf]
  split
  · next hin =>
    rcases h with h | h | h | h
    · rw [h]; rfl
    · rw [h]; rfl
    · omega
    · omega
  · rfl

/-! ### The fields of a register in turn -/

/-- A register after a write of v, its fields in turn. -/
def fieldsWrote (l : List FieldDesc) (locked : Bool) (old v : Nat) : Nat :=
  l.foldl (fun o f => fieldWrote f locked o v) old

section
variable {l : List FieldDesc} (hb : ∀ f ∈ l, f.lo ≤ f.hi)
include hb

/-- A bit that no field of the list may write keeps its value. -/
theorem testBit_fieldsWrote_keep {locked : Bool} {old v i : Nat}
    (h : ∀ f ∈ l, f.acc = .ro ∨ f.acc = .wo ∨ i < f.lo ∨ f.hi < i) :
    (fieldsWrote l locked old v).testBit i = old.testBit i := by
  induction l generalizing old with
  | nil => rfl
  | cons g l ih =>
    simp only [List.forall_mem_cons] at hb h
    calc (fieldsWrote l locked (fieldWrote g locked old v) v).testBit i
        = (fieldWrote g locked old v).testBit i := ih hb.2 h.2
      _ = old.testBit i := testBit_fieldWrote_keep hb.1 h.1

/-- A bit of one field is written by that field alone, when the fields are disjoint. -/
theorem testBit_fieldsWrote_field (hd : l.Pairwise fun f g => f.hi < g.lo ∨ g.hi < f.lo) {f : FieldDesc} (hf : f ∈ l)
    {locked : Bool} {old v i : Nat} (hlo : f.lo ≤ i) (hhi : i ≤ f.hi) :
    (fieldsWrote l locked old v).testBit i = bitWrote f.acc locked (old.testBit i) (v.testBit i) := by
  induction l generalizing old with
  | nil => cases hf
  | cons g l ih =>
    simp only [List.forall_mem_cons] at hb
    obtain ⟨hg, hd⟩ := List.pairwise_cons.mp hd
    change (fieldsWrote l locked (fieldWrote g locked old v) v).testBit i = _
    rcases List.mem_cons.mp hf with rfl | hf
    · have hrest : ∀ e ∈ l, e.acc = .ro ∨ e.acc = .wo ∨ i < e.lo ∨ e.hi < i := fun e he => by
        have := hg e he
        omega
      rw [testBit_fieldsWrote_keep hb.2 hrest, testBit_fieldWrote hb.1, if_pos ⟨hlo, hhi⟩]
    · have hout : i < g.lo ∨ g.hi < i := by
        have := hg f hf
        omega
      rw [ih hb.2 hd hf, testBit_fieldWrote_keep hb.1 (.inr (.inr hout))]

end

/-! ### A plain write of a register -/

section
variable {s : State} {off v : Nat} {d : RegDesc} (hd : regDesc? off = some d)
include hd

/-- A plain write sets its register to what its fields make of the value written. -/
theorem State.plainWrite_fst :
    (s.plainWrite off v).1 =
      s.setRaw off (BitVec.ofNat 64 (fieldsWrote d.fields (s.on F.BT_STAT_LOCK) (s.raw off).toNat v)) := by
  unfold State.plainWrite
  rw [hd]
  rfl

theorem State.raw_plainWrite :
    (s.plainWrite off v).1.raw off =
      BitVec.ofNat 64 (fieldsWrote d.fields (s.on F.BT_STAT_LOCK) (s.raw off).toNat v) := by
  rw [plainWrite_fst hd, raw_setRaw_same]

/-- A plain write leaves every other register alone. -/
theorem State.raw_plainWrite_ne {off' : Nat} (h : off' ≠ off) : (s.plainWrite off v).1.raw off' = s.raw off' := by
  rw [plainWrite_fst hd, raw_setRaw_ne h]

/-- A plain write keeps every bit that lies in no writable field (R8). -/
theorem State.getLsbD_plainWrite_keep {i : Nat} (hi : i < 64)
    (h : ∀ f ∈ d.fields, f.acc = .ro ∨ f.acc = .wo ∨ i < f.lo ∨ f.hi < i) :
    ((s.plainWrite off v).1.raw off).getLsbD i = (s.raw off).getLsbD i := by
  have hb := regMap_field_bounds d (regDesc?_mem hd)
  rw [raw_plainWrite hd, BitVec.getLsbD_ofNat, testBit_fieldsWrote_keep (fun f hf => (hb f hf).1) h]
  simp [hi, BitVec.testBit_toNat]

/-- A plain write gives a bit of a field what the field's access code says (R7). -/
theorem State.getLsbD_plainWrite_field {f : FieldDesc} (hf : f ∈ d.fields) {i : Nat} (hlo : f.lo ≤ i) (hhi : i ≤ f.hi) :
    ((s.plainWrite off v).1.raw off).getLsbD i =
      bitWrote f.acc (s.on F.BT_STAT_LOCK) ((s.raw off).getLsbD i) (v.testBit i) := by
  have hm := regDesc?_mem hd
  have hb := regMap_field_bounds d hm
  have hi : i < 64 := Nat.lt_of_le_of_lt hhi (hb f hf).2
  rw [raw_plainWrite hd, BitVec.getLsbD_ofNat,
    testBit_fieldsWrote_field (fun f hf => (hb f hf).1) (regMap_fields_disjoint d hm) hf hlo hhi]
  simp [hi, BitVec.testBit_toNat]

/-- A plain write makes a field what a word holds there, when it makes each bit of the field that word's. -/
theorem State.bits_plainWrite_field {f : FieldDesc} (hf : f ∈ d.fields) {n : Nat}
    (h : ∀ i, bitWrote f.acc (s.on F.BT_STAT_LOCK) ((s.raw off).getLsbD i) (v.testBit i) = n.testBit i) :
    bits ((s.plainWrite off v).1.raw off).toNat f.hi f.lo = bits n f.hi f.lo := by
  refine bits_congr fun i hlo hhi => ?_
  rw [BitVec.testBit_toNat, getLsbD_plainWrite_field hd hf hlo hhi, h]

/-- A write of a register of the PW_ block that has no rule of its own is a plain write. -/
theorem State.regWrite_of_pw {func : Nat} {wide : Bool} (hlo : 0x800000 ≤ off) (hhi : off < 0x900000)
    (hlimit : off ≠ A.PW_PKG_LIMIT) (hvtab : off ≠ A.PW_VTAB) : s.regWrite func off v wide = s.plainWrite off v := by
  unfold State.regWrite
  rw [if_neg (by simp [hd]), if_neg (by omega), if_neg (by omega), if_neg (by omega), if_neg (by omega), if_neg hlimit,
    if_neg hvtab, if_pos hhi]

end

/-- An aligned 8-byte write of PF0 beyond the MSI-X table is a write of the register at its offset (R37). -/
theorem State.bar0Write_of_aligned {s : State} {off v : Nat} (ha : off % 8 = 0) (hlo : 0x18000 ≤ off) :
    s.bar0Write 0 off 8 v = s.regWrite 0 off v true := by
  have hfit : bar0Fits off 8 = true := by simp [bar0Fits, ha]
  have hmsix : ¬(0x10000 ≤ off ∧ off < 0x10000 + 16 * msixSize 0) := by simp only [msixSize, if_pos]; omega
  have hoff : off / 8 * 8 = off := Nat.div_mul_cancel (Nat.dvd_of_mod_eq_zero ha)
  have hval : s.halfValue off 8 v = v := by simp [State.halfValue, State.wholeValue]
  unfold State.bar0Write
  rw [if_neg (by simp [hfit]), if_neg hmsix, if_pos rfl, hoff, hval]
  rfl

/-- While the BARs answer, the generic register write of PF0 is done. -/
theorem exec_registerWrite_pf0 {s : State} {off width : Nat} {w : BitVec 64} (hbar : s.barOk = true) (hoff : off < 2 ^ 24) :
    exec (.registerWrite 0 off width w) s = .next (s.bar0Write 0 off width w.toNat).1 := by
  have hfunc : s.funcOk 0 = true := by simp [State.funcOk, hbar]
  change Host.Outcome.next (if _ then _ else _) = _
  rw [if_pos (by rw [hfunc, if_pos rfl]; simpa using hoff)]

/-- Settles O16: the bits of a register, one by one, by the access code of the field that holds them. -/
theorem plainWritesRespectAccessCodes : Obligations.PlainWritesRespectAccessCodes := by
  intro s off v d _ hd
  refine ⟨?reserved, ?rw, ?rwl, ?w1c, ?w1s, ?others, ?completes⟩
  case reserved => exact fun i hi h => State.getLsbD_plainWrite_keep hd hi h
  case rw =>
    intro f hf ha
    refine State.bits_plainWrite_field hd hf fun i => ?_
    rw [ha]; rfl
  case rwl =>
    intro f hf ha hlock
    refine State.bits_plainWrite_field hd hf fun i => ?_
    rw [ha, hlock, BitVec.testBit_toNat]; rfl
  case w1c =>
    intro f hf i hlo hhi ha
    rw [State.getLsbD_plainWrite_field hd hf hlo hhi, ha]; rfl
  case w1s =>
    intro f hf i hlo hhi ha
    rw [State.getLsbD_plainWrite_field hd hf hlo hhi, ha]; rfl
  case others => exact fun off' h => State.raw_plainWrite_ne hd h
  case completes =>
    rintro w rfl hbar hlo hhi hal hlimit hvtab
    rw [exec_registerWrite_pf0 hbar (by omega), State.bar0Write_of_aligned hal (by omega),
      State.regWrite_of_pw hd hlo hhi hlimit hvtab]

end Sys2Proof.Machine
end

section
/-! SUPPORT. What the registers hold after reset (R9): all registers of one array reset to the value of its first, and
no register but the board pins differs from its Reset column. -/

namespace Sys2Proof

/-! ### The registers that a line of the map describes -/

theorem RegDesc.has_iff {d : RegDesc} {off : Nat} : d.has off = true ↔ ∃ i, i < d.count ∧ off = d.base + d.stride * i := by
  simp only [RegDesc.has, Bool.and_eq_true, decide_eq_true_eq, beq_iff_eq]
  constructor
  · rintro ⟨⟨hbase, hmod⟩, hcount⟩
    refine ⟨_, hcount, ?_⟩
    have := Nat.div_add_mod (off - d.base) d.stride
    omega
  · rintro ⟨i, hi, rfl⟩
    rw [Nat.add_sub_cancel_left]
    refine ⟨⟨Nat.le_add_right _ _, Nat.mul_mod_right _ _⟩, ?_⟩
    rcases Nat.eq_zero_or_pos d.stride with h | h
    · simp only [h, Nat.zero_mul, Nat.zero_div]; omega
    · rwa [Nat.mul_div_cancel_left _ h]

/-- `d` describes every register of the array at `base`, or none: it is the array's own line, or its registers lie
below the array, above it, or between its registers at the same stride. -/
def RegDesc.allOrNone (base stride count : Nat) (d : RegDesc) : Bool :=
  (d.base == base && d.stride == stride && d.count == count) ||
    decide (d.base + d.stride * (d.count - 1) < base) || decide (base + stride * (count - 1) < d.base) ||
    (d.stride == stride && d.base % stride != base % stride)

/-- A line that describes all registers of an array or none treats each as the first. -/
theorem RegDesc.has_of_allOrNone {base stride count i : Nat} {d : RegDesc} (h : d.allOrNone base stride count = true)
    (hi : i < count) : d.has (base + stride * i) = d.has base := by
  have hle : stride * i ≤ stride * (count - 1) := Nat.mul_le_mul_left _ (by omega)
  simp only [RegDesc.allOrNone, Bool.or_eq_true, Bool.and_eq_true, decide_eq_true_eq, beq_iff_eq, bne_iff_ne] at h
  rw [Bool.eq_iff_iff, RegDesc.has_iff, RegDesc.has_iff]
  rcases h with ((⟨⟨rfl, rfl⟩, rfl⟩ | hbelow) | habove) | ⟨rfl, hres⟩
  · exact ⟨fun _ => ⟨0, by omega, by omega⟩, fun _ => ⟨i, hi, rfl⟩⟩
  · have hnot : ∀ off, base ≤ off → ¬∃ j, j < d.count ∧ off = d.base + d.stride * j := by
      rintro off hoff ⟨j, hj, rfl⟩
      have : d.stride * j ≤ d.stride * (d.count - 1) := Nat.mul_le_mul_left _ (by omega)
      omega
    simp only [hnot _ (Nat.le_add_right _ _), hnot _ (Nat.le_refl _)]
  · have hnot : ∀ off, off ≤ base + stride * i → ¬∃ j, j < d.count ∧ off = d.base + d.stride * j := by
      rintro off hoff ⟨j, hj, rfl⟩
      omega
    simp only [hnot _ (Nat.le_refl _), hnot _ (Nat.le_add_right _ _)]
  · have hnot : ∀ off, off % d.stride = base % d.stride → ¬∃ j, j < d.count ∧ off = d.base + d.stride * j := by
      rintro off hoff ⟨j, hj, rfl⟩
      rw [Nat.add_mul_mod_self_left] at hoff
      exact hres hoff
    simp only [hnot _ (Nat.add_mul_mod_self_left _ _ _), hnot _ rfl]

/-- The map lists the registers at `base` and every `stride` bytes on as one array of `count` registers, which no other
line of the map enters. -/
def isRegArray (base stride count : Nat) : Bool := regMap.all (RegDesc.allOrNone base stride count)

section
variable {base stride count i : Nat} (h : isRegArray base stride count = true) (hi : i < count)
include h hi

/-- Every register of an array has the description of the first. -/
theorem regDesc?_array : regDesc? (base + stride * i) = regDesc? base := by
  have hall := List.all_eq_true.mp h
  unfold regDesc?
  rw [← List.head?_filter, ← List.head?_filter,
    List.filter_congr fun d hd => RegDesc.has_of_allOrNone (hall d hd) hi]

theorem regReset_array : regReset (base + stride * i) = regReset base := by
  unfold regReset
  rw [regDesc?_array h hi]

end

end Sys2Proof

namespace Sys2Proof.Machine

/-! ### State.reset -/

/-- Below the board pins every register holds its reset value. -/
theorem State.reset_raw {off : Nat} (h : off < A.PW_PIN_STAT 0) : State.reset.raw off = regReset off := by
  have h0 : off ≠ A.PW_PIN_STAT 0 := by omega
  have h1 : off ≠ A.PW_PIN_STAT 1 := by simp only [A.PW_PIN_STAT] at h ⊢; omega
  simp only [State.raw, State.reset, pinHold, tabGet, if_neg h0, if_neg h1]

/-- Every register of an array holds the reset value of the first. -/
theorem State.reset_raw_array {base stride count i : Nat} {v : BitVec 64} (h : isRegArray base stride count = true)
    (hpin : base + stride * count < A.PW_PIN_STAT 0) (hv : regReset base = v) (hi : i < count) :
    State.reset.raw (base + stride * i) = v := by
  have hle : stride * i ≤ stride * count := Nat.mul_le_mul_left _ (by omega)
  rw [State.reset_raw (by omega), regReset_array h hi, hv]

/-- A field holds what the value of its register has there. -/
theorem State.get_of_raw {s : State} {v : BitVec 64} {n : Nat} (f : Fld) (h : s.raw f.off = v)
    (hn : bits v.toNat f.hi f.lo = n) : s.get f = n := by
  rw [State.get, h, hn]

/-- A register of 0 has every field 0. -/
theorem State.get_of_raw_zero {s : State} (f : Fld) (h : s.raw f.off = 0) : s.get f = 0 :=
  State.get_of_raw f h (by simp [bits])

theorem State.on_of_raw_zero {s : State} (f : Fld) (h : s.raw f.off = 0) : s.on f = false := by
  rw [State.on, State.get_of_raw_zero f h]; rfl

/-! ### The arrays of the front end, the contexts, the functions and the ports -/

section
set_option maxRecDepth 40000

theorem State.reset_raw_FE_Q_STAT {q : Nat} : q < 4096 → State.reset.raw (A.FE_Q_STAT q) = 0 :=
  State.reset_raw_array (base := 0x180038) (by decide) (by decide) (by decide)

theorem State.reset_raw_FE_Q_SEQ {q : Nat} : q < 4096 → State.reset.raw (A.FE_Q_SEQ q) = 0 :=
  State.reset_raw_array (base := 0x180040) (by decide) (by decide) (by decide)

theorem State.reset_raw_FE_Q_PTR {q : Nat} : q < 4096 → State.reset.raw (A.FE_Q_PTR q) = 0 :=
  State.reset_raw_array (base := 0x180050) (by decide) (by decide) (by decide)

theorem State.reset_raw_FE_BERTH_OWN {b : Nat} : b < 4096 → State.reset.raw (A.FE_BERTH_OWN b) = 0 :=
  State.reset_raw_array (base := 0x110008) (by decide) (by decide) (by decide)

/-- SHARE, from bit 16, is 1 (R392). -/
theorem State.reset_raw_PT_CTX_CTL {c : Nat} : c < 1024 → State.reset.raw (A.PT_CTX_CTL c) = 0x10000 :=
  State.reset_raw_array (base := 0x240008) (by decide) (by decide) (by decide)

theorem State.reset_raw_PT_CTX_STAT {c : Nat} : c < 1024 → State.reset.raw (A.PT_CTX_STAT c) = 0 :=
  State.reset_raw_array (base := 0x240028) (by decide) (by decide) (by decide)

/-- GEN, from bit 16, is 1 (R405). -/
theorem State.reset_raw_PT_FN {v : Nat} : v < 64 → State.reset.raw (A.PT_FN v) = 0x10000 :=
  State.reset_raw_array (base := 0x285000) (by decide) (by decide) (by decide)

theorem State.reset_raw_GF_PORT_STAT {j : Nat} : j < 36 → State.reset.raw (A.GF_PORT_STAT j) = 0 :=
  State.reset_raw_array (base := 0x701008) (by decide) (by decide) (by decide)

/-! ### Single registers -/

/-- The dirty log is DONE, no migration operation runs, GF_CHIPID.INST is 0, and the transport has its retry
time and limit (R409, R412, R450, R451). -/
theorem State.reset_logAndFabric :
    State.reset.on F.PT_DIRTY_CTL_DONE = true ∧ State.reset.on F.PT_MIG_CTL_BUSY = false ∧ State.reset.inst = 0 ∧
    State.reset.get F.GF_XPORT_RTO = 8 ∧ State.reset.get F.GF_XPORT_LIMIT = 32 := by decide

/-- The boot is not locked and not READY, no reset is under way, and no doorbell was dropped (R356, R505). -/
theorem State.reset_bootAndDevice :
    State.reset.on F.BT_STAT_LOCK = false ∧ State.reset.on F.BT_STAT_READY = false ∧
    State.reset.on F.FE_DEV_RESET_BUSY = false ∧ State.reset.get F.FE_DEV_RESET_COUNT = 0 ∧
    State.reset.get F.FE_DB_DROP_COUNT = 0 := by decide

theorem State.reset_errors :
    State.reset.raw A.FE_ERR = 0 ∧ State.reset.raw A.PT_ERR = 0 ∧ State.reset.raw A.GF_ERR = 0 ∧
    State.reset.raw A.TD_DBG_STAT = 0 := by decide

end

/-- Settles O60: each array by the reset value of its first register, the single registers and the units as they stand
in State.reset. -/
theorem resetValues : Obligations.ResetValues := by
  obtain ⟨hdone, hmig, hinst, hrto, hlimit⟩ := State.reset_logAndFabric
  obtain ⟨hlock, hready, hbusy, hcount, hdrop⟩ := State.reset_bootAndDevice
  refine ⟨rfl, rfl, rfl, rfl, rfl, rfl, rfl, rfl, rfl, rfl, rfl, rfl, rfl, rfl, rfl, ?queues, ?berths, ?contexts, ?functions,
    hdone, hmig, ?ports, hinst, hrto, hlimit, hlock, hready, hbusy, hcount, hdrop, State.reset_errors⟩
  case queues =>
    intro q hq
    have hstat := State.reset_raw_FE_Q_STAT hq
    have hseq := State.reset_raw_FE_Q_SEQ hq
    have hptr := State.reset_raw_FE_Q_PTR hq
    exact ⟨State.get_of_raw_zero (F.FE_Q_STAT_STATE q) hstat, State.get_of_raw_zero (F.FE_Q_STAT_EPOCH q) hstat,
      State.get_of_raw_zero (F.FE_Q_SEQ_NEXT q) hseq, State.get_of_raw_zero (F.FE_Q_PTR_HEAD q) hptr,
      State.get_of_raw_zero (F.FE_Q_PTR_TAIL q) hptr, State.get_of_raw_zero (F.FE_Q_STAT_HELD q) hstat⟩
  case berths =>
    intro b hb
    have hown := State.reset_raw_FE_BERTH_OWN hb
    exact ⟨State.on_of_raw_zero (F.FE_BERTH_OWN_EN b) hown, State.get_of_raw_zero (F.FE_BERTH_OWN_COUNT b) hown⟩
  case contexts =>
    intro c hc
    have hctl := State.reset_raw_PT_CTX_CTL hc
    have hstat := State.reset_raw_PT_CTX_STAT hc
    have hshare := State.get_of_raw (F.PT_CTX_CTL_SHARE c) hctl (by decide : bits 0x10000 23 16 = 1)
    have hlive := State.get_of_raw (F.PT_CTX_CTL_LIVE c) hctl (by decide : bits 0x10000 32 32 = 0)
    exact ⟨State.get_of_raw_zero (F.PT_CTX_STAT_STATE c) hstat, State.get_of_raw_zero (F.PT_CTX_STAT_CGEN c) hstat, hshare,
      by rw [State.on, hlive]; rfl⟩
  case functions =>
    exact fun v hv => State.get_of_raw (F.PT_FN_GEN v) (State.reset_raw_PT_FN hv) (by decide : bits 0x10000 31 16 = 1)
  case ports =>
    intro j hj
    have hstat := State.reset_raw_GF_PORT_STAT hj
    exact ⟨State.get_of_raw_zero (F.GF_PORT_STAT_STATE j) hstat, State.get_of_raw_zero (F.GF_PORT_STAT_LANES j) hstat⟩

end Sys2Proof.Machine
end

section
/-! SUPPORT. An exception is taken after its drain (R178): what EXCEPTION_DRAIN_COMPLETE answers once the core's stores have
been flushed. -/

namespace Sys2Proof.Machine

section
variable {s : State} {core : Nat}

/-- Without an exception nothing happens. -/
theorem exec_exceptionDrainComplete_idle (h : (s.core core).exc = none) :
    exec (.exceptionDrainComplete core) s = .next s := by
  change execExceptionDrainComplete core s = _
  simp only [execExceptionDrainComplete, h]

/-- What an exception's command does with the state whose stores it has flushed. -/
theorem exec_exceptionDrainComplete {x : Exc} {b : Blk} (hx : (s.core core).exc = some x) (hb : (s.core core).blk = some b) :
    exec (.exceptionDrainComplete core) s = .next (
      let d := s.flushCore core
      if (d.core core).sb ≠ [] ∨ d.dbg.held = some core then d
      else if d.dbg.target = some b.ctx ∧ d.on F.TD_DBG_CTL_HOLD = true then
        { d with dbg := { d.dbg with held := some core } }.halt b.ctx 3 core x.group 0
      else d.takeExc core) := by
  change execExceptionDrainComplete core s = _
  simp only [execExceptionDrainComplete, hx, hb]

/-- The exception of a drained core: the record, the end of the exception on the core, the teardown. -/
theorem State.takeExc_of {x : Exc} {b : Blk} (hx : (s.core core).exc = some x) (hb : (s.core core).blk = some b) :
    s.takeExc core =
      let f := s.faultAs (excSource x.code) 3 (FaultRec.mk x.code x.level x.write x.fetch 0 core b.ctx b.part x.va x.pa)
        ([x.pc, x.group, laneMask x.lanes, x.word % 2 ^ 64, x.word / 2 ^ 64] ++ x.extra)
      let cause := if excSource x.code = 2 then 2 else 1
      (f.setCore core { f.core core with exc := none, stopped := true }).tear b.ctx cause x.code cause := by
  simp only [State.takeExc, hx, hb, beq_iff_eq]

end

/-- Settles O31: the three ways on from the flushed state. The record's SOURCE and DETAIL (log 32) and the drain within one
row (log 30) are the model's choices. -/
theorem exceptionsAreTakenAfterTheirDrain : Obligations.ExceptionsAreTakenAfterTheirDrain := by
  intro s core
  refine ⟨exec_exceptionDrainComplete_idle, fun x b hx hb => ?_⟩
  have hexec := exec_exceptionDrainComplete hx hb
  refine ⟨?waits, ?halts, ?taken⟩
  case waits =>
    intro hwait
    rw [hexec]
    dsimp only
    rw [if_pos hwait]
  case halts =>
    intro hsb hheld htarget hhold
    rw [hexec]
    dsimp only
    rw [if_neg (by simp [hsb, hheld]), if_pos ⟨htarget, hhold⟩]
  case taken =>
    intro hexc hblk hsb hheld hgo
    refine ⟨_, hexec, ?_⟩
    have hno : ¬((s.flushCore core).dbg.target = some b.ctx ∧ (s.flushCore core).on F.TD_DBG_CTL_HOLD = true) := by
      rintro ⟨htarget, hhold⟩
      rcases hgo with hgo | hgo
      · exact hgo htarget
      · simp [hgo] at hhold
    dsimp only
    rw [if_neg (by simp [hsb, hheld]), if_neg hno, State.takeExc_of hexc hblk]
    rfl

end Sys2Proof.Machine
end

section
/-! SUPPORT. Page walks, invalidations, the fault log, power gating and D3hot (R35, R56, R60, R61, R64, R180, R475): what each
command answers. -/

namespace Sys2Proof.Machine

/-! ### One level of a walk, R56 -/

section
variable {s : State}

theorem exec_pageWalkEntryRead {core va : Nat} {w : Walk} (h : s.host.walks.find? (sameWalk core va) = some w) :
    exec (.pageWalkEntryRead core va) s = .next (s.walkStep w) := by
  change execPageWalkEntryRead core va s = _
  simp only [execPageWalkEntryRead, h]

theorem State.walkStep_of_next {w : Walk} {n : Nat} (h : s.walkLevel w.level w.table w.va w.setup w.access = .next n) :
    s.walkStep w =
      s.setWalks (updFirst (sameWalk w.unit w.va) (fun w => { w with level := w.level - 1, table := n }) s.host.walks) := by
  simp only [State.walkStep, h]

theorem State.walkStep_of_leaf {w : Walk} {p : Page} (h : s.walkLevel w.level w.table w.va w.setup w.access = .leaf p) :
    s.walkStep w = (s.setWalks (dropFirst (sameWalk w.unit w.va) s.host.walks)).tlbAdd 0 w.unit w.ctx p := by
  simp only [State.walkStep, h]

theorem State.walkStep_of_fault {w : Walk} {c pa : Nat}
    (h : s.walkLevel w.level w.table w.va w.setup w.access = .fault c pa) :
    s.walkStep w = (s.setWalks (dropFirst (sameWalk w.unit w.va) s.host.walks)).walkFault w c pa := by
  simp only [State.walkStep, h]

/-! ### The fault log, R64 -/

/-- A clear of the fault log leaves COUNT and LOST zero. -/
theorem State.faultClear_zero {p v : Nat} (hv : bit v 0 = true) :
    (s.faultClear p v).get (F.PT_FAULT_STAT_COUNT p) = 0 ∧ (s.faultClear p v).get (F.PT_FAULT_STAT_LOST p) = 0 := by
  have hcleared : s.faultClear p v = (s.set (F.PT_FAULT_STAT_COUNT p) 0).set (F.PT_FAULT_STAT_LOST p) 0 := if_pos hv
  rw [hcleared]
  constructor
  · rw [State.get_set_bits (by decide : 16 ≤ 31) (by decide : 4 < 64) (.inl (by decide : 4 < 16)),
      State.get_set_same (by decide : 0 ≤ 4) (by decide : 4 < 64), Nat.zero_mod]
  · rw [State.get_set_same (by decide : 16 ≤ 31) (by decide : 31 < 64), Nat.zero_mod]

@[simp] theorem State.faultClear_mem {p v : Nat} : (s.faultClear p v).mem = s.mem := by
  unfold State.faultClear
  split
  · rw [State.set_mem, State.set_mem]
  · rfl

theorem exec_faultLogClear {func p : Nat} {v : BitVec 64} (hsees : s.fnSees func p = true) (hp : p < 16) :
    exec (.faultLogClear func p v) s = .next (s.faultClear p v.toNat) := by
  change Host.Outcome.next (if _ then _ else _) = _
  rw [if_pos ⟨hsees, hp⟩]

/-! ### Invalidations, R60, R61 -/

/-- PF0's registers of an invalidation before its GO is looked at: ERR cleared where asked, CTX and SCOPE written. -/
def State.xlatSetUp (s : State) (v : Nat) : State :=
  ((if bit v 33 then s.set (F.PT_XLAT_INV_ERR 0) 0 else s).set (F.PT_XLAT_INV_CTX 0) (bits v 9 0)).set (F.PT_XLAT_INV_SCOPE 0)
    (bits v 11 10)

theorem State.xlatSetUp_keeps {v : Nat} :
    (s.xlatSetUp v).on (F.PT_XLAT_INV_BUSY 0) = s.on (F.PT_XLAT_INV_BUSY 0) ∧ (s.xlatSetUp v).host = s.host ∧
    (s.xlatSetUp v).mem = s.mem := by
  refine ⟨?_, ?_, ?_⟩
  · unfold State.xlatSetUp
    rw [State.on_set_bits (by decide) (by decide) (.inr (by decide)),
      State.on_set_bits (by decide) (by decide) (.inr (by decide))]
    split
    · exact State.on_set_bits (by decide) (by decide) (.inl (by decide))
    · rfl
  · unfold State.xlatSetUp
    rw [State.set_host, State.set_host, apply_ite State.host, State.set_host, ite_self]
  · unfold State.xlatSetUp
    rw [State.set_mem, State.set_mem, apply_ite State.mem, State.set_mem, ite_self]

/-- GO of PF0's set while it is not BUSY: one more invalidation, BUSY. -/
theorem State.xlatWrite_go {v : Nat} (hgo : bit v 31 = true) (hidle : s.on (F.PT_XLAT_INV_BUSY 0) = false) :
    ∃ i : XInv, s.xlatWrite 0 v =
      { s.xlatSetUp v with host := { s.host with invs := s.host.invs ++ [i] } }.set (F.PT_XLAT_INV_BUSY 0) 1 := by
  obtain ⟨hbusy, hhost, -⟩ := State.xlatSetUp_keeps (s := s) (v := v)
  rw [hidle] at hbusy
  rw [← hhost]
  unfold State.xlatSetUp at hbusy ⊢
  unfold State.xlatWrite
  dsimp only
  rw [if_neg (by simp [hgo]), if_neg (by simp [hbusy])]
  exact ⟨_, rfl⟩

theorem exec_xlatInvalidate_pf0 {v : BitVec 64} (hbar : s.barOk = true) :
    exec (.xlatInvalidate 0 v) s = .next (s.xlatWrite 0 v.toNat) := by
  change Host.Outcome.next (if _ then _ else _) = _
  rw [if_pos ⟨by simp [State.funcOk, hbar], by decide, .inl rfl⟩]

theorem exec_xlatInvalidateDone {func : Nat} {i : XInv} (h : s.host.invs.find? (fun x => x.func == func) = some i)
    (hland : s.allLanded i = true) : exec (.xlatInvalidateDone func) s = .next (s.xlatDone i) := by
  change execXlatInvalidateDone func s = _
  simp only [execXlatInvalidateDone, h, hland, if_true]

/-! ### D3hot, R35 -/

/-- Gating cores, one after another, leaves memory and the front end. -/
theorem State.each_gate_keeps {l : List Nat} :
    (s.each l State.gate).mem = s.mem ∧ (s.each l State.gate).fe = s.fe := by
  induction l generalizing s with
  | nil => exact ⟨rfl, rfl⟩
  | cons c l ih => exact ih (s := s.gate c)

/-- D3hot leaves memory and the front end. -/
theorem State.d3Enter_keeps : s.d3Enter.pow.d3 = true ∧ s.d3Enter.mem = s.mem ∧ s.d3Enter.fe = s.fe := by
  unfold State.d3Enter
  generalize (List.range 1024).filter s.canGate = l
  exact ⟨rfl, State.each_gate_keeps⟩

end

/-- Settles O18: each command by what it answers. -/
theorem translationAndPowerCommands : Obligations.TranslationAndPowerCommands := by
  intro s _
  refine ⟨?next, ?leaf, ?fault, ?clear, ?invalidate, ?done, ?gates, ?ungates, ?d3hot, rfl⟩
  case next =>
    intro core va w n hfind hlevel
    rw [exec_pageWalkEntryRead hfind, State.walkStep_of_next hlevel]
  case leaf =>
    intro core va w p hfind hlevel
    rw [exec_pageWalkEntryRead hfind, State.walkStep_of_leaf hlevel]
  case fault =>
    intro core va w c pa hfind hlevel
    rw [exec_pageWalkEntryRead hfind, State.walkStep_of_fault hlevel]
  case clear =>
    intro func p v hsees hp hv
    obtain ⟨hcount, hlost⟩ := State.faultClear_zero (s := s) (p := p) hv
    exact ⟨_, exec_faultLogClear hsees hp, hcount, hlost, State.faultClear_mem⟩
  case invalidate =>
    intro v hbar hgo hidle
    obtain ⟨i, hwrite⟩ := State.xlatWrite_go hgo hidle
    obtain ⟨-, -, hmem⟩ := State.xlatSetUp_keeps (s := s) (v := v.toNat)
    refine ⟨_, exec_xlatInvalidate_pf0 hbar, ?_⟩
    rw [hwrite]
    refine ⟨?_, ?_, ?_, ?_⟩
    · rw [State.on_set_same (by decide) (by decide)]; rfl
    · rw [State.set_host, List.length_append, List.length_singleton]
    · rw [State.set_host]
    · rw [State.set_mem]; exact hmem
  case done =>
    intro func i hfind hland
    have hfunc : i.func = func := by simpa using List.find?_some hfind
    refine ⟨_, exec_xlatInvalidateDone hfind hland, ?_, ?_, ?_⟩
    · rw [← hfunc]
      exact State.on_set_same rfl (by decide : 32 < 64)
    · intro e he
      simpa using (List.mem_filter.mp he).2
    · intro e he hout
      exact List.mem_filter.mpr ⟨he, by simp [hout]⟩
  case gates =>
    intro core hrun hgate
    change execCorePowerGate core s = _
    simp only [execCorePowerGate, hrun, hgate, Bool.and_self, if_true]
  case ungates =>
    intro core hrun hin
    change execCoreUngate core s = _
    simp only [execCoreUngate, hrun, hin, Bool.and_self, if_true]
  case d3hot =>
    intro hrun hready
    refine ⟨s.d3Enter, ?_, State.d3Enter_keeps⟩
    change execD3hotEntry s = _
    simp only [execD3hotEntry, hrun, hready, beq_self_eq_true, Bool.and_self, if_true]

end Sys2Proof.Machine
end

section
/-! SUPPORT. What a read at the homes leaves as it was (R265 to R279): memory, the cores, the messages sent, and the newest
coherent value of every line; and the bytes and the poison that it gives. -/

namespace Sys2Proof

theorem tabFind_ins_same {β : Type} {i : Nat} {x : β} : ∀ {t : Tab β}, tabFind (tabIns t i x) i = some x
  | [] => by simp [tabIns, tabFind]
  | (k, v) :: t => by
    simp only [tabIns]
    split
    · simp [tabFind]
    · split
      · simp [tabFind]
      · next hne _ =>
        simp only [tabFind, hne, if_false]
        exact tabFind_ins_same

theorem tabFind_ins_ne {β : Type} {i j : Nat} {x : β} (h : j ≠ i) : ∀ {t : Tab β}, tabFind (tabIns t i x) j = tabFind t j
  | [] => by simp [tabIns, tabFind, h]
  | (k, v) :: t => by
    simp only [tabIns]
    split
    · next heq =>
      subst heq
      simp [tabFind, h]
    · split
      · simp [tabFind, h]
      · simp only [tabFind]
        split
        · rfl
        · exact tabFind_ins_ne h

theorem bit_eq_testBit (n i : Nat) : bit n i = n.testBit i := by
  rw [bit, Nat.testBit_eq_decide_div_mod_eq, Bool.eq_iff_iff, beq_iff_eq, decide_eq_true_iff]

theorem bit_and (m n i : Nat) : bit (m &&& n) i = (bit m i && bit n i) := by
  simp only [bit_eq_testBit, Nat.testBit_and]

end Sys2Proof

namespace Sys2Proof.Machine

/-- A sector mask has the bits that its test gives. -/
theorem bit_sectorMask {f : Nat → Bool} {j : Nat} (h : j < 4) : bit (sectorMask f) j = f j := by
  have hmask : ∀ b0 b1 b2 b3 : Bool, let m := b2n b0 + 2 * b2n b1 + 4 * b2n b2 + 8 * b2n b3
      bit m 0 = b0 ∧ bit m 1 = b1 ∧ bit m 2 = b2 ∧ bit m 3 = b3 := by decide
  obtain ⟨h0, h1, h2, h3⟩ := hmask (f 0) (f 1) (f 2) (f 3)
  have hcases : j = 0 ∨ j = 1 ∨ j = 2 ∨ j = 3 := by omega
  rcases hcases with rfl | rfl | rfl | rfl
  · exact h0
  · exact h1
  · exact h2
  · exact h3

/-! ### What a read leaves -/

/-- What the data array holds of a line, without the stamp of its last use. -/
def CisLine.held (c : CisLine) : Data × Nat × Nat := (c.data, c.sv, c.sp)

/-- `t` differs from `s` in what reads at the homes change alone: counters, records, stamps of use, wear, the channels' rows
and charges, and the requests and answers of reads. -/
structure ReadKeeps (s t : State) : Prop where
  mem : t.mem = s.mem
  cores : t.cores = s.cores
  out : t.out = s.out
  poison : t.poison = s.poison
  retired : t.sp.retired = s.sp.retired
  repl : t.sp.repl = s.sp.repl
  failed : t.mc.failed = s.mc.failed
  kept : t.mc.kept = s.mc.kept
  bad : ∀ sec, sec ∈ t.mc.bad ↔ sec ∈ s.mc.bad
  cc : t.coh.cc = s.coh.cc
  grants : t.coh.grants = s.coh.grants
  replies : t.coh.replies = s.coh.replies
  wb : t.coh.wb = s.coh.wb
  reds : t.coh.reds = s.coh.reds
  cis : ∀ line, (t.cisFind line).map CisLine.held = (s.cisFind line).map CisLine.held

namespace ReadKeeps

variable {s t u : State}

theorem refl (s : State) : ReadKeeps s s := by constructor <;> intros <;> rfl

theorem trans (h : ReadKeeps s t) (g : ReadKeeps t u) : ReadKeeps s u where
  mem := g.mem.trans h.mem
  cores := g.cores.trans h.cores
  out := g.out.trans h.out
  poison := g.poison.trans h.poison
  retired := g.retired.trans h.retired
  repl := g.repl.trans h.repl
  failed := g.failed.trans h.failed
  kept := g.kept.trans h.kept
  bad sec := (g.bad sec).trans (h.bad sec)
  cc := g.cc.trans h.cc
  grants := g.grants.trans h.grants
  replies := g.replies.trans h.replies
  wb := g.wb.trans h.wb
  reds := g.reds.trans h.reds
  cis line := (g.cis line).trans (h.cis line)

/-! #### Each operation that a read is made of -/

theorem setRaw (off : Nat) (v : BitVec 64) : ReadKeeps s (s.setRaw off v) := by constructor <;> intros <;> rfl

theorem count (f : Fld) (n : Nat) : ReadKeeps s (s.count f n) := setRaw _ _

theorem wear (kind unit n : Nat) : ReadKeeps s (s.wear kind unit n) := by constructor <;> intros <;> rfl

theorem chanAccess (p a n : Nat) : ReadKeeps s (s.chanAccess p a n) := by constructor <;> intros <;> rfl

theorem record (kind cls src code : Nat) (part : Option Nat) (unit ctx : Nat) (l : List Nat) :
    ReadKeeps s (s.record kind cls src code part unit ctx l) := by
  unfold State.record
  dsimp only
  split
  · constructor <;> intros <;> rfl
  · refine trans ?_ (count _ _)
    constructor <;> intros <;> rfl

theorem event (cls src code : Nat) (part : Option Nat) (unit ctx : Nat) (l : List Nat) :
    ReadKeeps s (s.event cls src code part unit ctx l) := record _ _ _ _ _ _ _ _

theorem each {α : Type} {f : State → α → State} (hf : ∀ s a, ReadKeeps s (f s a)) (l : List α) :
    ReadKeeps s (s.each l f) := by
  induction l generalizing s with
  | nil => exact refl s
  | cons a l ih => exact (hf s a).trans ih

/-- A sector whose failed check is found again stays the only kind of sector that fails it. -/
theorem badAgain {sec : Nat} (h : sec ∈ s.mc.bad) :
    ReadKeeps s { s with mc := { s.mc with bad := setIns s.mc.bad sec } } :=
  { refl s with bad := fun _ => mem_setIns.trans ⟨fun hx => hx.elim (· ▸ h) id, .inr⟩ }

/-- The check of a sector that arrives as it is stored. -/
theorem sectorCheck (sec : Nat) : ReadKeeps s (s.sectorCheck sec 0) := by
  unfold State.sectorCheck
  dsimp only
  split
  · exact refl s
  · next hseen =>
    have hbad : sec ∈ s.mc.bad := Decidable.byContradiction fun hn => hseen (.inr ⟨rfl, hn⟩)
    rw [if_neg (by simp [hbad])]
    exact (((badAgain hbad).trans (wear _ _ _)).trans (wear _ _ _)).trans (event _ _ _ _ _ _ _)

theorem fetched (line mask : Nat) (narrow : Bool) : ReadKeeps s (s.fetched line mask narrow) := by
  have hread : ∀ (t : State) (p n : Nat) (f : Fld), ReadKeeps t ((t.chanAccess p (line * 128) n).count f n) :=
    fun t p n f => (chanAccess _ _ _).trans (count _ _)
  unfold State.fetched
  split
  · exact refl s
  · dsimp only
    refine (each (fun s j => sectorCheck (4 * line + j)) ((List.range 4).filter fun j => bit mask j)).trans ?_
    split
    · exact hread _ _ _ _
    · exact (hread _ _ _ _).trans (count _ _)

theorem countCs (f : Nat → Fld) (line n : Nat) : ReadKeeps s (s.countCs f line n) := by
  unfold State.countCs
  split
  · exact count _ _
  · exact refl s

/-- A use of a line changes the stamp of its last use alone. -/
theorem cisTouch (line : Nat) : ReadKeeps s (s.cisTouch line) := by
  unfold State.cisTouch
  split
  · exact refl s
  · next c hc =>
    refine { refl s with cis := fun l => ?_ }
    change (tabFind (tabIns s.coh.cis line _) l).map _ = _
    by_cases hl : l = line
    · subst hl
      rw [tabFind_ins_same, hc]
      rfl
    · rw [tabFind_ins_ne hl]
      rfl

theorem countRead (cls line mask : Nat) (narrow : Bool) : ReadKeeps s (s.countRead cls line mask narrow) := by
  unfold State.countRead
  dsimp only
  split
  · exact (cisTouch _).trans (countCs _ _ _)
  · exact ((fetched _ _ _).trans (cisTouch _)).trans (countCs _ _ _)

theorem askHome (who cls addr : Nat) (narrow : Bool) : ReadKeeps s (s.askHome who cls addr narrow) := by
  constructor <;> intros <;> rfl

theorem readHome (who cls addr : Nat) (narrow : Bool) : ReadKeeps s (s.readHome who cls addr narrow).1 := by
  unfold State.readHome
  dsimp only
  generalize (if narrow = true then 2 ^ (addr % 128 / 32) else 15) = mask
  split
  · constructor <;> intros <;> rfl
  · dsimp only
    split
    · exact askHome _ _ _ _
    · exact countRead _ _ _ _

theorem readSeq (who cls : Nat) (narrow : Bool) (a k : Nat) (l : List Nat) :
    ReadKeeps s (s.readSeq who cls narrow a k l).1 := by
  induction l generalizing s with
  | nil => exact refl s
  | cons x l ih => exact (readHome who cls x narrow).trans ih

theorem readAs (who cls : Nat) (narrow : Bool) (a k : Nat) : ReadKeeps s (s.readAs who cls narrow a k).1 :=
  readSeq _ _ _ _ _ _

theorem linkMark (link : Option Nat) : ReadKeeps s (s.linkMark link).1 := by
  rcases Laws.linkMark_cases s link with ⟨w, -, -, h⟩ | ⟨-, h⟩
  · rw [h]
    exact (wear 0 w 256).trans (event _ _ _ _ _ _ _)
  · rw [h]
    exact refl s

/-! #### What it keeps of a line's value -/

section
variable (h : ReadKeeps s t)
include h

theorem exitQuay (q : Nat) : t.exitQuay q = s.exitQuay q := by
  simp only [State.exitQuay, State.moduleOut, h.retired]

theorem sectorPoison (sec : Nat) : t.sectorPoison sec = s.sectorPoison sec := by
  have hbad : t.mc.bad.contains sec = s.mc.bad.contains sec := by
    rw [Bool.eq_iff_iff, List.contains_iff_mem, List.contains_iff_mem, h.bad]
  simp only [State.sectorPoison, State.sectorMarked, State.lostAt, State.chFailed, State.copyingCh, h.poison, h.repl, h.failed,
    h.kept, hbad]

theorem homeData (line : Nat) : t.homeData line = s.homeData line := by
  have hmem : t.memLine line = s.memLine line := by simp only [State.memLine, h.mem]
  have hpoison : t.memPoison line = s.memPoison line := by simp only [State.memPoison, h.sectorPoison]
  have hcis := h.cis line
  unfold State.homeData
  dsimp only
  rw [hmem, hpoison]
  cases ht : t.cisFind line with
  | none =>
    cases hs : s.cisFind line with
    | none => rfl
    | some c => simp [ht, hs] at hcis
  | some d =>
    cases hs : s.cisFind line with
    | none => simp [ht, hs] at hcis
    | some c =>
      simp only [ht, hs, Option.map_some, Option.some.injEq, CisLine.held, Prod.mk.injEq] at hcis
      obtain ⟨hdata, hsv, hsp⟩ := hcis
      simp only [hdata, hsv, hsp]

theorem newest (line : Nat) : t.newest line = s.newest line := by
  have hown : t.ownedData line = s.ownedData line := by
    simp only [State.ownedData, h.cc, h.grants, h.replies, h.wb]
  simp only [State.newest, State.lineNow, hown, h.homeData, h.reds]

end

end ReadKeeps

/-! ### What a read gives -/

section
variable {s : State}

@[simp] theorem State.cisTouch_got (line : Nat) : (s.cisTouch line).coh.got = s.coh.got := by
  unfold State.cisTouch
  split <;> rfl

@[simp] theorem State.countRead_got (cls line mask : Nat) (narrow : Bool) :
    (s.countRead cls line mask narrow).coh.got = s.coh.got := by
  unfold State.countRead
  dsimp only
  split
  · rw [Laws.countCs_coh, State.cisTouch_got]
  · rw [Laws.countCs_coh, State.cisTouch_got, Laws.fetched_coh]

/-- With no answer waiting, a read of a line gives its newest coherent value. -/
theorem State.readHome_fresh {who cls addr : Nat} {narrow : Bool} (h : s.coh.got = []) :
    (s.readHome who cls addr narrow).1.coh.got = [] ∧ (s.readHome who cls addr narrow).2 = s.newest (addr / 128) := by
  unfold State.readHome
  simp only [h, List.find?_nil]
  refine ⟨?_, trivial⟩
  generalize (if narrow = true then 2 ^ (addr % 128 / 32) else 15) = mask
  split
  · exact h
  · rw [State.countRead_got, h]

/-- The coherent bytes of a to a + k that lie in the line at x. -/
def State.lineBytes (s : State) (a k x : Nat) : List Byte :=
  (List.range (min (a + k) (x + 128) - max a x)).map fun i => tabGet 0 (s.newest (x / 128)).1 ((max a x + i) % 128)

/-- A sector of the line at x that holds some of those bytes is poisoned. -/
def State.linePoison (s : State) (a k x : Nat) : Bool :=
  (List.range 4).any fun j => bit ((s.newest (x / 128)).2 &&& spanMask (max a x) (s.lineBytes a k x).length (x / 128)) j

/-- With no answer waiting, the reads of some lines give what the state holds of each. -/
theorem State.readSeq_fresh {who cls a k : Nat} {l : List Nat} (h : s.coh.got = []) :
    (s.readSeq who cls false a k l).2 = (l.flatMap (s.lineBytes a k), l.any (s.linePoison a k)) := by
  induction l generalizing s with
  | nil => rfl
  | cons x l ih =>
    obtain ⟨hgot, hval⟩ := State.readHome_fresh (who := who) (cls := cls) (addr := x) (narrow := false) h
    have hnew := (ReadKeeps.readHome (s := s) who cls x false).newest
    have hbytes : ∀ y, (s.readHome who cls x false).1.lineBytes a k y = s.lineBytes a k y := fun y => by
      simp only [State.lineBytes, hnew]
    have hpoison : ∀ y, (s.readHome who cls x false).1.linePoison a k y = s.linePoison a k y := fun y => by
      simp only [State.linePoison, hbytes, hnew]
    have ih := ih hgot
    rw [funext hbytes, funext hpoison] at ih
    simp only [State.readSeq, hval, ih, List.flatMap_cons, List.any_cons]
    rfl

/-! #### The lines of a span together -/

/-- The bytes of a line lie at the addresses of the span within it. -/
theorem State.lineBytes_eq_map {a k x : Nat} (hx : x % 128 = 0) :
    s.lineBytes a k x = (List.range' (max a x) (min (a + k) (x + 128) - max a x)).map s.peekByte := by
  unfold State.lineBytes
  rw [List.range'_eq_map_range, List.map_map]
  refine List.map_congr_left fun i hi => ?_
  have hi := List.mem_range.mp hi
  have hline : (max a x + i) / 128 = x / 128 := by omega
  simp only [Function.comp, State.peekByte, lineOf, hline]

/-- The lines from the one that holds the first byte on give the span up to where they end. -/
theorem State.flatMap_lineBytes {a k b : Nat} (hb : b % 128 = 0) (hlo : b ≤ a) (hhi : a < b + 128) (n : Nat) :
    ((List.range n).map fun i => b + 128 * i).flatMap (s.lineBytes a k) =
      (List.range' a (min (a + k) (b + 128 * n) - a)).map s.peekByte := by
  induction n with
  | zero =>
    have h0 : min (a + k) (b + 128 * 0) - a = 0 := by omega
    rw [h0]
    rfl
  | succ n ih =>
    rw [List.range_succ, List.map_append, List.flatMap_append, ih, List.map_singleton, List.flatMap_singleton,
      State.lineBytes_eq_map (by omega), ← List.map_append]
    congr 1
    by_cases hend : a + k ≤ b + 128 * n
    · have hpiece : min (a + k) (b + 128 * n + 128) - max a (b + 128 * n) = 0 := by omega
      have hlen : min (a + k) (b + 128 * (n + 1)) - a = min (a + k) (b + 128 * n) - a := by omega
      rw [hpiece, hlen, List.range'_zero, List.append_nil]
    · have hstart : max a (b + 128 * n) = a + (min (a + k) (b + 128 * n) - a) := by omega
      have hlen : min (a + k) (b + 128 * (n + 1)) - a =
          (min (a + k) (b + 128 * n) - a) + (min (a + k) (b + 128 * n + 128) - max a (b + 128 * n)) := by omega
      rw [hlen, ← List.range'_append_1, ← hstart]

/-- k coherent bytes, each at its address. -/
theorem State.peek_eq_map {a k : Nat} : s.peek a k = (List.range' a k).map s.peekByte := by
  unfold State.peek
  dsimp only
  rw [List.range'_eq_map_range, List.map_map]
  refine List.map_congr_left fun i hi => ?_
  have hi := List.mem_range.mp hi
  have hin : (a % 128 + i) / 128 < (a % 128 + k + 127) / 128 := by omega
  have hline : a / 128 + (a % 128 + i) / 128 = (a + i) / 128 := by omega
  have hoff : (a % 128 + i) % 128 = (a + i) % 128 := by omega
  simp only [List.getD_eq_getElem?_getD, List.getElem?_map, List.getElem?_range hin, Option.map_some, Option.getD_some, hline,
    hoff, Function.comp, State.peekByte, lineOf]

/-- The poison of the sector at 32 × q. -/
theorem State.poisonAt_sector (q : Nat) : s.poisonAt (32 * q) = bit (s.newest (q / 4)).2 (q % 4) := by
  have hline : 32 * q / 128 = q / 4 := by omega
  have hsec : 32 * q % 128 / 32 = q % 4 := by omega
  simp only [State.poisonAt, lineOf, hline, hsec]

/-- A span is poisoned when one of its sectors is. -/
theorem State.poisonIn_iff {a k : Nat} :
    s.poisonIn a k = true ↔ ∃ q, a / 32 ≤ q ∧ 32 * q < a + k ∧ s.poisonAt (32 * q) = true := by
  unfold State.poisonIn
  rw [List.any_eq_true]
  constructor
  · rintro ⟨i, hi, hp⟩
    have hi := List.mem_range.mp hi
    have hq : a / 32 * 32 + 32 * i = 32 * (a / 32 + i) := by omega
    rw [hq] at hp
    exact ⟨a / 32 + i, by omega, by omega, hp⟩
  · rintro ⟨q, hlo, hhi, hp⟩
    have hq : a / 32 * 32 + 32 * (q - a / 32) = 32 * q := by omega
    exact ⟨q - a / 32, List.mem_range.mpr (by omega), by rw [hq]; exact hp⟩

/-- A line's share of the span is poisoned when a sector of the line within the span is. -/
theorem State.linePoison_iff {a k x : Nat} (hx : x % 128 = 0) (hlo : a < x + 128) (hhi : x < a + k) :
    s.linePoison a k x = true ↔ ∃ q, q / 4 = x / 128 ∧ a / 32 ≤ q ∧ 32 * q < a + k ∧ s.poisonAt (32 * q) = true := by
  have hlen : (s.lineBytes a k x).length = min (a + k) (x + 128) - max a x := by
    rw [State.lineBytes, List.length_map, List.length_range]
  unfold State.linePoison
  rw [List.any_eq_true, hlen]
  constructor
  · rintro ⟨j, hj, hbit⟩
    have hj := List.mem_range.mp hj
    rw [bit_and, spanMask, bit_sectorMask hj, Bool.and_eq_true, decide_eq_true_eq] at hbit
    obtain ⟨hp, hin⟩ := hbit
    have hline : (4 * (x / 128) + j) / 4 = x / 128 := by omega
    have hsec : (4 * (x / 128) + j) % 4 = j := by omega
    refine ⟨4 * (x / 128) + j, hline, by omega, by omega, ?_⟩
    rw [State.poisonAt_sector, hline, hsec]
    exact hp
  · rintro ⟨q, hline, hqlo, hqhi, hp⟩
    have hj : q % 4 < 4 := Nat.mod_lt _ (by decide)
    refine ⟨q % 4, List.mem_range.mpr hj, ?_⟩
    rw [State.poisonAt_sector, hline] at hp
    rw [bit_and, spanMask, bit_sectorMask hj, hp, Bool.true_and, decide_eq_true_eq]
    omega

/-- With no answer waiting, a read of whole lines gives the coherent bytes of the span and their poison. -/
theorem State.readAs_fresh {who cls a k : Nat} (h : s.coh.got = []) (hk : 0 < k) :
    (s.readAs who cls false a k).2 = (s.peek a k, s.poisonIn a k) := by
  have haddrs : readAddrs false a k = (List.range ((a % 128 + k + 127) / 128)).map fun i => a / 128 * 128 + 128 * i := by
    simp [readAddrs]
  rw [State.readAs, State.readSeq_fresh h, haddrs]
  refine Prod.ext ?_ ?_
  · rw [State.flatMap_lineBytes (by omega) (by omega) (by omega), State.peek_eq_map]
    have hall : min (a + k) (a / 128 * 128 + 128 * ((a % 128 + k + 127) / 128)) - a = k := by omega
    rw [hall]
  · rw [Bool.eq_iff_iff, State.poisonIn_iff, List.any_eq_true]
    simp only [List.mem_map, List.mem_range]
    constructor
    · rintro ⟨-, ⟨i, hi, rfl⟩, hp⟩
      obtain ⟨q, -, hq⟩ := (State.linePoison_iff (by omega) (by omega) (by omega)).mp hp
      exact ⟨q, hq⟩
    · rintro ⟨q, hlo, hhi, hp⟩
      refine ⟨a / 128 * 128 + 128 * (q / 4 - a / 128), ⟨q / 4 - a / 128, by omega, rfl⟩, ?_⟩
      exact (State.linePoison_iff (by omega) (by omega) (by omega)).mpr ⟨q, by omega, hlo, hhi, hp⟩

end

end Sys2Proof.Machine
end

section
/-! SUPPORT. Accesses of the host through its three BARs (R36 to R42, R52, R358 to R360, R383): what each command answers. -/

namespace Sys2Proof.Machine

section
variable {s : State}

@[simp] theorem State.complete_coh (mod : Nat) (m : Nat → Emit) : (s.complete mod m).coh = s.coh := by
  rcases Laws.complete_cases s mod m with ⟨v, -, h⟩ | ⟨-, h⟩
  · rw [h, State.emit_coh]
  · rw [h]

@[simp] theorem State.linkMark_coh (link : Option Nat) : (s.linkMark link).1.coh = s.coh := by
  rcases Laws.linkMark_cases s link with ⟨w, -, -, h⟩ | ⟨-, h⟩
  · rw [h, State.badCodeword, Laws.event_coh, Laws.wear_coh]
  · rw [h]

/-- Data is marked as bad exactly where the link names a wire that the package has. -/
theorem State.linkMark_bad (link : Option Nat) : (s.linkMark link).2 = (link.filter wireReal).isSome := by
  unfold State.linkMark
  cases link.filter wireReal <;> rfl

/-- A completion changes neither memory nor the cores, and leaves by the Quay that its module has. -/
theorem State.complete_keeps (mod : Nat) (m : Nat → Emit) :
    (s.complete mod m).mem = s.mem ∧ (s.complete mod m).cores = s.cores ∧
    ∀ q, s.exitQuay (mod / 4 % 2) = some q → (s.complete mod m).out = s.out ++ [m q] := by
  rcases Laws.complete_cases s mod m with ⟨v, hv, h⟩ | ⟨hnone, h⟩
  · rw [h]
    refine ⟨rfl, rfl, fun q hq => ?_⟩
    rw [hv, Option.some.injEq] at hq
    rw [hq]
    rfl
  · rw [h]
    exact ⟨rfl, rfl, fun q hq => by rw [hnone] at hq; exact nomatch hq⟩

/-! ### BAR4, R39, R42 -/

section
variable {mod func off k : Nat} (hrun : s.boot.stopped = false) (hfunc : s.funcOk func = true)
include hrun hfunc

theorem exec_bar4Read {link : Option Nat} (hin : s.bar4In func off k = true) :
    exec (.bar4Read mod func off k link) s = .next (s.bar4Read mod func off k link) := by
  change execBar4Read mod func off k link s = _
  simp only [execBar4Read, hrun, hfunc, hin, Bool.false_eq_true, Bool.and_self, if_false, if_true]

theorem exec_bar0UnsupportedAccess_read {width : Nat} (hfit : bar0Fits off width = false) :
    exec (.bar0UnsupportedAccess mod func off width false) s = .next (s.complete mod .cplUR) := by
  change execBar0UnsupportedAccess mod func off width false s = _
  simp only [execBar0UnsupportedAccess, hrun, hfunc, hfit, Bool.false_eq_true, Bool.not_false, Bool.and_self, if_false, if_true]

end

/-- A read in a hole is refused and recorded. -/
theorem State.bar4Read_hole {mod func off k : Nat} {link : Option Nat} (h : s.bar4Addr func off k = none) :
    s.bar4Read mod func off k link = (s.hostErr func false).complete mod .cplUR := by
  simp only [State.bar4Read, h]

section
variable {mod func off k a : Nat} {link : Option Nat} (h : s.bar4Addr func off k = some a)
include h

/-- A read that a home cannot serve now leaves its requests there alone. -/
theorem State.bar4Read_stalled (hstall : (s.readAs (bar4Reader func) 6 false a k).1.coh.stalled = true) :
    s.bar4Read mod func off k link = (s.readAs (bar4Reader func) 6 false a k).1.coh.asked.foldl State.arriveNew s := by
  simp only [State.bar4Read, h]
  rw [State.unlessStalled_of_stalled s (by rw [State.complete_coh, State.linkMark_coh, hstall]), State.complete_coh,
    State.linkMark_coh]

/-- A read that the homes serve is answered with what they give. -/
theorem State.bar4Read_served (hserved : (s.readAs (bar4Reader func) 6 false a k).1.coh.stalled = false) :
    let r := s.readAs (bar4Reader func) 6 false a k
    s.bar4Read mod func off k link =
      (r.1.linkMark link).1.complete mod (.cplData r.2.1 (r.2.2 || (link.filter wireReal).isSome)) := by
  simp only [State.bar4Read, h]
  rw [State.unlessStalled_of_served s (by rw [State.complete_coh, State.linkMark_coh, hserved]), State.linkMark_bad]

end

theorem exec_bar4Write {func off : Nat} {data : List Byte} {link : Option (Nat × Nat)} (hfunc : s.funcOk func = true)
    (hin : s.bar4In func off data.length = true) :
    exec (.bar4Write func off data link) s = .next (s.bar4Write func off data link) := by
  change execBar4Write func off data link s = _
  simp only [execBar4Write, hfunc, hin, Bool.and_self, if_true]

theorem State.bar4Write_hole {func off : Nat} {data : List Byte} {link : Option (Nat × Nat)}
    (h : s.bar4Addr func off data.length = none) : s.bar4Write func off data link = s.hostErr func true := by
  simp only [State.bar4Write, h]

theorem State.bar4Write_mem {func off a : Nat} {data : List Byte} {link : Option (Nat × Nat)}
    (h : s.bar4Addr func off data.length = some a) : s.bar4Write func off data link = s.pokeLink 4 0 a data link := by
  simp only [State.bar4Write, h]

/-! ### Doorbells, R358 to R360, R383 -/

/-- An 8-byte write at the start of a page of PF0's BAR2 rings the queue of the page. -/
theorem exec_doorbell_pf0 {q : Nat} {v : BitVec 64} (hq : q < 4096) (hbar : s.barOk = true) (hpf : s.qFunc q = 0) :
    exec (.doorbell 0 (4096 * q) 8 v) s = .next (s.ring q v.toNat) := by
  have hfunc : s.funcOk 0 = true := by simp [State.funcOk, hbar]
  have hpage : 4096 * q / 4096 = q := Nat.mul_div_cancel_left q (by decide)
  have hring : s.bar2Write 0 (4096 * q) 8 v.toNat = s.ring q v.toNat := by
    simp [State.bar2Write, hpage, hpf]
  change Host.Outcome.next (if _ then _ else _) = _
  rw [if_pos ⟨hfunc, by rw [if_pos rfl]; omega⟩, hring]

section
variable {q v : Nat} (hactive : s.qState q = 1) (hop : bits v 59 56 = 0) (hres : bits v 63 60 = 0)
include hactive hop hres

/-- A doorbell of another generation is discarded with reason 4. -/
theorem State.ring_wrongGen (hgen : bits v 47 32 ≠ s.genOf (s.qFunc q)) : s.ring q v = s.dbDrop (some q) 4 := by
  unfold State.ring
  dsimp only
  rw [if_neg (by omega), if_neg (by omega), if_pos hgen]

/-- A plain doorbell of the queue's generation and epoch with a tail within the ring moves the tail. -/
theorem State.ring_moves (hgen : bits v 47 32 = s.genOf (s.qFunc q)) (hepoch : bits v 55 48 = s.get (F.FE_Q_STAT_EPOCH q))
    (htail : (bits v 31 0 + 2 ^ 32 - s.get (F.FE_Q_PTR_TAIL q)) % 2 ^ 32 ≤ 2 ^ s.get (F.FE_Q_CFG_SIZE q))
    (hhead : (bits v 31 0 + 2 ^ 32 - s.get (F.FE_Q_PTR_HEAD q)) % 2 ^ 32 ≤ 2 ^ s.get (F.FE_Q_CFG_SIZE q)) :
    s.ring q v = (s.set (F.FE_Q_PTR_TAIL q) (bits v 31 0)).resched (s.qPart q) := by
  have hfits : ¬(2 ^ s.get (F.FE_Q_CFG_SIZE q) < (bits v 31 0 + 2 ^ 32 - s.get (F.FE_Q_PTR_TAIL q)) % 2 ^ 32 ∨
      2 ^ s.get (F.FE_Q_CFG_SIZE q) < (bits v 31 0 + 2 ^ 32 - s.get (F.FE_Q_PTR_HEAD q)) % 2 ^ 32) := by
    rintro (h | h)
    · exact Nat.not_lt.mpr htail h
    · exact Nat.not_lt.mpr hhead h
  unfold State.ring
  dsimp only
  rw [if_neg (by omega), if_neg (by omega), if_neg (fun h => h hgen), if_neg (fun h => h hepoch), if_neg hfits,
    if_neg (fun h => by omega)]

end

/-! ### Host-window synchronisation, R52 -/

theorem exec_hostWindowSync (hbar : s.barOk = true) : exec .hostWindowSync s = .next s.hwinSync := by
  change execHostWindowSync s = _
  simp only [execHostWindowSync, hbar, if_true]

/-- Nothing awaited is left: no awaited read, and no store to the host window that was buffered before. -/
theorem State.synced_iff : s.synced = true ↔ (∀ i ∈ s.host.sync, ∀ r ∈ s.host.reads, r.id ≠ i) ∧
    ∀ e ∈ s.cores, ∀ b ∈ e.2.sb, ¬(region (b.line * 128) = .hostWin ∧ b.serial < s.host.syncTo) := by
  simp only [State.synced, Bool.and_eq_true, List.all_eq_true, Bool.not_eq_true', List.any_eq_false,
    decide_eq_false_iff_not, beq_iff_eq, ne_eq]

theorem exec_hostWindowSyncDone : exec .hostWindowSyncDone s = .next (
    if s.get F.PT_HWIN_SYNC_DONE = 0 ∧ s.synced = true ∧ s.running = true then
      { s with host := { s.host with sync := [], syncTo := 0 } }.set F.PT_HWIN_SYNC_DONE 1
    else s) := rfl

end

/-- Settles O17: each BAR's accesses by what they answer; a read's value by the lines that it reads. That a read whose home
cannot serve it leaves its requests (log 121), and what a synchronisation awaits (log 31), are the model's choices. -/
theorem hostAccessesOfTheBars : Obligations.HostAccessesOfTheBars := by
  intro s _
  refine ⟨?read, ?readHole, ?write, ?writeHole, fun _ _ => rfl, ?unsupported, fun _ _ _ _ => rfl, ?rings, ?stale, ?sync, ?done⟩
  case read =>
    intro mod func off k link a hrun hfunc hin haddr
    refine ⟨fun hstall => ?_, fun hserved => ?_, fun hgot => ?_⟩
    · rw [exec_bar4Read hrun hfunc hin, State.bar4Read_stalled haddr hstall]
    · have hkeep := (ReadKeeps.readAs (s := s) (bar4Reader func) 6 false a k).trans (ReadKeeps.linkMark link)
      obtain ⟨hmem, hcores, hout⟩ := State.complete_keeps (s := ((s.readAs (bar4Reader func) 6 false a k).1.linkMark link).1) mod
        (.cplData (s.readAs (bar4Reader func) 6 false a k).2.1
          ((s.readAs (bar4Reader func) 6 false a k).2.2 || (link.filter wireReal).isSome))
      refine ⟨_, exec_bar4Read hrun hfunc hin, ?_⟩
      rw [State.bar4Read_served haddr hserved]
      refine ⟨hmem.trans hkeep.mem, hcores.trans hkeep.cores, fun q hq => ?_⟩
      rw [hout q (by rw [hkeep.exitQuay, hq]), hkeep.out]
    · have hk : 0 < k := by
        simp only [State.bar4In, decide_eq_true_eq] at hin
        exact hin.1
      exact State.readAs_fresh hgot hk
  case readHole =>
    intro mod func off k link hrun hfunc hin haddr
    rw [exec_bar4Read hrun hfunc hin, State.bar4Read_hole haddr]
  case write =>
    intro func off data link a hfunc hin haddr
    rw [exec_bar4Write hfunc hin, State.bar4Write_mem haddr]
  case writeHole =>
    intro func off data link hfunc hin haddr
    rw [exec_bar4Write hfunc hin, State.bar4Write_hole haddr]
  case unsupported =>
    intro mod func off width hrun hfunc hfit
    exact exec_bar0UnsupportedAccess_read hrun hfunc hfit
  case rings =>
    intro q v hq hbar hpf hactive hop hres hgen hepoch htail hhead
    rw [exec_doorbell_pf0 hq hbar hpf, State.ring_moves hactive hop hres hgen hepoch htail hhead]
  case stale =>
    intro q v hq hbar hpf hactive hop hres hgen
    rw [exec_doorbell_pf0 hq hbar hpf, State.ring_wrongGen hactive hop hres hgen]
  case sync => exact exec_hostWindowSync
  case done =>
    intro synced may
    have hmay : may ↔ s.get F.PT_HWIN_SYNC_DONE = 0 ∧ s.synced = true ∧ s.running = true := by
      rw [State.synced_iff]
    rw [exec_hostWindowSyncDone]
    exact ⟨fun h => by rw [if_neg (mt hmay.mpr h)], fun h => by rw [if_pos (hmay.mp h)]⟩

end Sys2Proof.Machine
end

section
/-! SUPPORT. What records, faults, samples and the fabric's transport leave as it was: local memory and the cores; and what
a fault with room in its log leaves there (R63, R64). -/

namespace Sys2Proof.Machine

/-- A core reads what was written to it. -/
@[simp] theorem State.core_setCore_same {s : State} {c : Nat} {k : Core} : (s.setCore c k).core c = k := tabGet_set_same

/-- `t` has the local memory and the cores of `s`. -/
structure KeepsMemCores (s t : State) : Prop where
  mem : t.mem = s.mem
  cores : t.cores = s.cores

namespace KeepsMemCores

variable {s t u : State}

theorem refl (s : State) : KeepsMemCores s s := ⟨rfl, rfl⟩

theorem trans (h : KeepsMemCores s t) (g : KeepsMemCores t u) : KeepsMemCores s u :=
  ⟨g.mem.trans h.mem, g.cores.trans h.cores⟩

/-- Each core stands as it did. -/
theorem core (h : KeepsMemCores s t) (c : Nat) : t.core c = s.core c := by simp only [State.core, h.cores]

theorem each {α : Type} {f : State → α → State} (hf : ∀ s a, KeepsMemCores s (f s a)) (l : List α) :
    KeepsMemCores s (s.each l f) := by
  induction l generalizing s with
  | nil => exact refl s
  | cons a l ih => exact (hf s a).trans ih

/-! #### Registers, records, interrupts and samples -/

theorem setRaw (off : Nat) (v : BitVec 64) : KeepsMemCores s (s.setRaw off v) := ⟨rfl, rfl⟩

theorem set (f : Fld) (n : Nat) : KeepsMemCores s (s.set f n) := setRaw _ _

theorem count (f : Fld) (n : Nat) : KeepsMemCores s (s.count f n) := setRaw _ _

theorem event (cls src code : Nat) (part : Option Nat) (unit ctx : Nat) (l : List Nat) :
    KeepsMemCores s (s.event cls src code part unit ctx l) :=
  have h := ReadKeeps.event (s := s) cls src code part unit ctx l
  ⟨h.mem, h.cores⟩

theorem toHost (q : Nat) (m : Nat → Emit) : KeepsMemCores s (s.toHost q m) := by
  rcases State.toHost_cases s q m with ⟨-, h⟩ | ⟨v, -, h⟩
  · rw [h]; exact refl s
  · rw [h]; exact ⟨rfl, rfl⟩

theorem interrupt (func vec : Nat) : KeepsMemCores s (s.interrupt func vec) := by
  unfold State.interrupt
  dsimp only
  split
  · exact refl s
  · split
    · exact ⟨rfl, rfl⟩
    · exact toHost _ _

theorem sampleTime (m sel : Nat) : KeepsMemCores s (s.sampleTime m sel) := by
  unfold State.sampleTime
  split
  · exact ⟨rfl, rfl⟩
  · exact refl s

/-! #### The fabric's transport -/

theorem tx (j : Nat) (p : Packet) : KeepsMemCores s (s.tx j p) := by
  unfold State.tx
  dsimp only
  split
  · exact ⟨rfl, rfl⟩
  · split
    · exact ⟨rfl, rfl⟩
    · unfold State.txPut
      dsimp only
      split
      · refine trans ?_ (count _ _)
        exact ⟨rfl, rfl⟩
      · exact ⟨rfl, rfl⟩

theorem setConn (c : Conn) : KeepsMemCores s (s.setConn c) := ⟨rfl, rfl⟩

theorem perrSignal (p : Nat) : KeepsMemCores s (s.perrSignal p) := by
  unfold State.perrSignal
  split
  · dsimp only
    split
    · refine trans ?_ (interrupt _ _)
      exact ⟨rfl, rfl⟩
    · exact ⟨rfl, rfl⟩
  · refine trans ?_ (interrupt _ _)
    exact ⟨rfl, rfl⟩

theorem fabErr (org : Origin) (write : Bool) (code chip off : Nat) : KeepsMemCores s (s.fabErr org write code chip off) := by
  have hrecord : ∀ (cls : Nat) (f : Fld), KeepsMemCores s
      (((((s.event cls 10 code (some org.part) org.unit org.ctx [chip, off, org.unit]).count f 1).count
        (F.GF_PERR_COUNT org.part) 1).set (F.GF_PERR_LAST org.part) code).set (F.GF_PERR_LASTCHIP org.part) chip) :=
    fun cls f => ((((event _ _ _ _ _ _ _).trans (count _ _)).trans (count _ _)).trans (set _ _)).trans (set _ _)
  unfold State.fabErr
  dsimp only
  split
  · exact (hrecord _ _).trans (perrSignal _)
  · exact hrecord _ _

theorem fabDone (org : Origin) (chip off code : Nat) (data : List Byte) : KeepsMemCores s (s.fabDone org chip off code data) := by
  unfold State.fabDone
  split
  · exact ⟨rfl, rfl⟩
  · exact refl s

theorem wrFail (chip : Nat) (w : TxWr) (code : Nat) : KeepsMemCores s (s.wrFail chip w code) :=
  (fabErr _ _ _ _ _).trans (fabDone _ _ _ _ _)

theorem wrSend (chip : Nat) (w : TxWr) : KeepsMemCores s (s.wrSend chip w) := by
  unfold State.wrSend
  split
  · exact wrFail _ _ _
  · exact (setConn _).trans (tx _ _)

theorem wrNew (chip : Nat) (w : TxWr) : KeepsMemCores s (s.wrNew chip w) := by
  unfold State.wrNew
  dsimp only
  split
  · exact setConn _
  · exact wrSend _ _

theorem fabWrite (org : Origin) (fa sz : Nat) (mask : Option Nat) (data : List Byte) (sig : Bool) :
    KeepsMemCores s (s.fabWrite org fa sz mask data sig) := by
  unfold State.fabWrite
  dsimp only
  split
  · split
    · exact wrFail _ _ _
    · exact each (fun s m => wrNew _ _) _
  · exact wrNew _ _

end KeepsMemCores

/-! ### A fault with room in its log, R64 -/

section
variable {s : State}

theorem State.toHost_rest (q : Nat) (m : Nat → Emit) :
    (s.toHost q m).host = s.host ∧ (s.toHost q m).regs = s.regs := by
  rcases State.toHost_cases s q m with ⟨-, h⟩ | ⟨v, -, h⟩
  · rw [h]; exact ⟨rfl, rfl⟩
  · rw [h]; exact ⟨rfl, rfl⟩

/-- An interrupt leaves the registers and the reads under way. -/
theorem State.interrupt_rest (func vec : Nat) :
    (s.interrupt func vec).host.reads = s.host.reads ∧ (s.interrupt func vec).regs = s.regs := by
  unfold State.interrupt
  dsimp only
  split
  · exact ⟨rfl, rfl⟩
  · split
    · exact ⟨rfl, rfl⟩
    · obtain ⟨hhost, hregs⟩ := State.toHost_rest (s := s) 0 _
      exact ⟨congrArg HostIf.reads hhost, hregs⟩

theorem State.interrupt_raw (func vec off : Nat) : (s.interrupt func vec).raw off = s.raw off := by
  simp only [State.raw, (State.interrupt_rest func vec).2]

theorem State.interrupt_get (func vec : Nat) (f : Fld) : (s.interrupt func vec).get f = s.get f := by
  simp only [State.get, State.interrupt_raw]

/-- An event record counts in EV_DROP alone, and leaves the host attachment. -/
theorem State.event_rest (cls src code : Nat) (part : Option Nat) (unit ctx : Nat) (l : List Nat) :
    (s.event cls src code part unit ctx l).host = s.host ∧
    ∀ off, off ≠ A.EV_DROP → (s.event cls src code part unit ctx l).raw off = s.raw off := by
  unfold State.event State.record
  dsimp only
  split
  · exact ⟨rfl, fun _ _ => rfl⟩
  · exact ⟨State.count_host _ _ _, fun off hoff => State.raw_setRaw_ne hoff⟩

/-- The first word of a fault record. -/
def FaultRec.word (f : FaultRec) : Nat :=
  f.code + f.level * 2 ^ 8 + b2n f.write * 2 ^ 11 + b2n f.fetch * 2 ^ 12 + f.agent * 2 ^ 13
    + f.unit % 2 ^ 16 * 2 ^ 16 + f.ctx % 2 ^ 10 * 2 ^ 32 + f.part * 2 ^ 42

/-- The record's first byte is the code. -/
theorem FaultRec.word_code (f : FaultRec) : bits (BitVec.ofNat 64 f.word).toNat 7 0 = f.code % 256 := by
  rw [BitVec.toNat_ofNat, bits_mod (by decide)]
  simp only [bits, FaultRec.word]
  omega

/-- The n-th record of a partition's fault log, and COUNT with it. -/
def State.faultPut (s : State) (seq n : Nat) (f : FaultRec) : State :=
  let at' := fun i => A.PT_FLOG f.part (4 * n + i)
  ((((s.setRaw (at' 0) (BitVec.ofNat 64 f.word)).setRaw (at' 1) (BitVec.ofNat 64 f.va)).setRaw (at' 2)
    (BitVec.ofNat 64 f.pa)).setRaw (at' 3) (BitVec.ofNat 64 seq)).set (F.PT_FAULT_STAT_COUNT f.part) (n + 1)

theorem KeepsMemCores.faultPut (seq n : Nat) (f : FaultRec) : KeepsMemCores s (s.faultPut seq n f) :=
  ((((KeepsMemCores.setRaw _ _).trans (.setRaw _ _)).trans (.setRaw _ _)).trans (.setRaw _ _)).trans (.set _ _)

theorem State.faultPut_host (seq n : Nat) (f : FaultRec) : (s.faultPut seq n f).host = s.host := by
  unfold State.faultPut
  rw [State.set_host, State.setRaw_host, State.setRaw_host, State.setRaw_host, State.setRaw_host]

/-- The record stands in the log, and COUNT has counted it. -/
theorem State.faultPut_log {seq n : Nat} {f : FaultRec} (hn : n < 16) :
    (s.faultPut seq n f).get (F.PT_FAULT_STAT_COUNT f.part) = n + 1 ∧
    (s.faultPut seq n f).raw (A.PT_FLOG f.part (4 * n)) = BitVec.ofNat 64 f.word ∧
    (s.faultPut seq n f).raw (A.PT_FLOG f.part (4 * n + 1)) = BitVec.ofNat 64 f.va ∧
    (s.faultPut seq n f).raw (A.PT_FLOG f.part (4 * n + 2)) = BitVec.ofNat 64 f.pa := by
  have hstat : ∀ i, i < 4 → A.PT_FLOG f.part (4 * n + i) ≠ A.PT_FAULT_STAT f.part := fun i hi => by
    simp only [A.PT_FLOG, A.PT_FAULT_STAT]
    omega
  have hword : ∀ i j, i ≠ j → A.PT_FLOG f.part (4 * n + i) ≠ A.PT_FLOG f.part (4 * n + j) := fun i j hij => by
    simp only [A.PT_FLOG]
    omega
  have hset : ∀ (t : State) i, i < 4 → (t.set (F.PT_FAULT_STAT_COUNT f.part) (n + 1)).raw (A.PT_FLOG f.part (4 * n + i)) =
      t.raw (A.PT_FLOG f.part (4 * n + i)) := fun t i hi => State.raw_setRaw_ne (hstat i hi)
  refine ⟨?count, ?word, ?va, ?pa⟩
  case count =>
    unfold State.faultPut
    rw [State.get_set_same (by decide : 0 ≤ 4) (by decide : 4 < 64)]
    exact Nat.mod_eq_of_lt (by change n + 1 < 32; omega)
  case word =>
    unfold State.faultPut
    rw [← Nat.add_zero (4 * n), hset _ 0 (by decide), State.raw_setRaw_ne (hword 0 3 (by decide)),
      State.raw_setRaw_ne (hword 0 2 (by decide)), State.raw_setRaw_ne (hword 0 1 (by decide))]
    exact State.raw_setRaw_same
  case va =>
    unfold State.faultPut
    rw [hset _ 1 (by decide), State.raw_setRaw_ne (hword 1 3 (by decide)), State.raw_setRaw_ne (hword 1 2 (by decide)),
      State.raw_setRaw_same]
  case pa =>
    unfold State.faultPut
    rw [hset _ 2 (by decide), State.raw_setRaw_ne (hword 2 3 (by decide)), State.raw_setRaw_same]

/-- A fault of a partition whose log has room is recorded there, and its vector signalled. -/
theorem State.faultAs_room {src cls : Nat} {f : FaultRec} {l : List Nat} (hp : f.part < 16)
    (hn : s.get (F.PT_FAULT_STAT_COUNT f.part) < 16) :
    ∃ func vec, s.faultAs src cls f l = ((s.event cls src f.code (some f.part) f.unit f.ctx l).faultPut s.evr.seq
      (s.get (F.PT_FAULT_STAT_COUNT f.part)) f).interrupt func vec := by
  have hoff : A.PT_FAULT_STAT f.part ≠ A.EV_DROP := by
    simp only [A.PT_FAULT_STAT, A.EV_DROP]
    omega
  have hcount : (s.event cls src f.code (some f.part) f.unit f.ctx l).get (F.PT_FAULT_STAT_COUNT f.part) =
      s.get (F.PT_FAULT_STAT_COUNT f.part) :=
    congrArg (fun v : BitVec 64 => bits v.toNat 4 0) ((State.event_rest cls src f.code (some f.part) f.unit f.ctx l).2 _ hoff)
  unfold State.faultAs
  dsimp only
  rw [hcount, if_pos hn]
  exact ⟨_, _, rfl⟩

/-- What a fault with room in its log leaves. -/
structure FaultLogged (s : State) (f : FaultRec) (t : State) : Prop where
  keeps : KeepsMemCores s t
  reads : t.host.reads = s.host.reads
  count : t.get (F.PT_FAULT_STAT_COUNT f.part) = s.get (F.PT_FAULT_STAT_COUNT f.part) + 1
  code : bits (t.raw (A.PT_FLOG f.part (4 * s.get (F.PT_FAULT_STAT_COUNT f.part)))).toNat 7 0 = f.code % 256
  va : t.raw (A.PT_FLOG f.part (4 * s.get (F.PT_FAULT_STAT_COUNT f.part) + 1)) = BitVec.ofNat 64 f.va
  pa : t.raw (A.PT_FLOG f.part (4 * s.get (F.PT_FAULT_STAT_COUNT f.part) + 2)) = BitVec.ofNat 64 f.pa

theorem State.faultAs_logged {src cls : Nat} {f : FaultRec} {l : List Nat} (hp : f.part < 16)
    (hn : s.get (F.PT_FAULT_STAT_COUNT f.part) < 16) : FaultLogged s f (s.faultAs src cls f l) := by
  obtain ⟨func, vec, h⟩ := State.faultAs_room (src := src) (cls := cls) (l := l) hp hn
  rw [h]
  generalize hd : s.event cls src f.code (some f.part) f.unit f.ctx l = d
  have hevent : KeepsMemCores s d := hd ▸ KeepsMemCores.event _ _ _ _ _ _ _
  have hhost : d.host = s.host := hd ▸ (State.event_rest _ _ _ _ _ _ _).1
  obtain ⟨hcount, hword, hva, hpa⟩ := State.faultPut_log (s := d) (seq := s.evr.seq) (f := f) hn
  exact {
    keeps := (hevent.trans (.faultPut _ _ _)).trans (.interrupt _ _)
    reads := by rw [(State.interrupt_rest func vec).1, State.faultPut_host, hhost]
    count := by rw [State.interrupt_get, hcount]
    code := by rw [State.interrupt_raw, hword, FaultRec.word_code]
    va := by rw [State.interrupt_raw, hva]
    pa := by rw [State.interrupt_raw, hpa] }

end

end Sys2Proof.Machine
end

section
/-! SUPPORT. Store-buffer entries that close and drain, and the answers of the host (R53, R63, R65, R241, R243, R244, R382,
R439). -/

namespace Sys2Proof.Machine

section
variable {s : State} {core : Nat}

/-! ### Entries close and drain -/

/-- The entries handed over leave the queue; nothing else of the core changes, nor does memory. -/
theorem State.handRq_keeps {f : RqEnt → Bool} (hb : (s.core core).blk.isSome = true) :
    (s.handRq core f).mem = s.mem ∧
    (s.handRq core f).core core = { s.core core with rq := (s.core core).rq.filter fun e => !f e } := by
  unfold State.handRq
  dsimp only
  split
  · next hnone => simp [hnone] at hb
  · next b _ =>
    have hhand : ∀ (t : State) (e : RqEnt), KeepsMemCores t (t.handEntry core b e) := fun _ _ => .fabWrite _ _ _ _ _ _
    have h := KeepsMemCores.each (s := s.setCore core { s.core core with rq := (s.core core).rq.filter fun e => !f e }) hhand
      ((s.core core).rq.filter f)
    exact ⟨h.mem, by rw [h.core, State.core_setCore_same]⟩

/-- Without a block, a first entry or a closed first entry, no drain takes place. -/
theorem exec_storeBufferEntryDrain_idle
    (h : (s.core core).sb = [] ∨ (s.core core).blk = none ∨ ∃ e r, (s.core core).sb = e :: r ∧ e.closed = false) :
    exec (.storeBufferEntryDrain core) s = .next s := by
  change execStoreBufferEntryDrain core s = _
  rcases h with h | h | ⟨e, r, h, hopen⟩
  · simp only [execStoreBufferEntryDrain, h]
  · simp only [execStoreBufferEntryDrain, h]
    cases (s.core core).sb <;> rfl
  · simp only [execStoreBufferEntryDrain, h]
    cases (s.core core).blk with
    | none => rfl
    | some b => simp [hopen]

section
variable {b : Blk} {e : SbEnt} {r : List SbEnt} (hblk : (s.core core).blk = some b) (hsb : (s.core core).sb = e :: r)
  (hclosed : e.closed = true)
include hblk hsb hclosed

/-- An entry of local memory waits for the core's own earlier write of its line. -/
theorem exec_storeBufferEntryDrain_behind (hreg : region (e.line * 128) = .localMem) (hout : s.lineOut core e.line = true) :
    exec (.storeBufferEntryDrain core) s = .next s := by
  change execStoreBufferEntryDrain core s = _
  simp [execStoreBufferEntryDrain, hsb, hblk, hclosed, hreg, hout]

/-- A closed first entry leaves the buffer by the way of its region; `t` is the state without it. -/
theorem exec_storeBufferEntryDrain {t : State} (ht : t = s.setCore core { s.core core with sb := r })
    (hgo : region (e.line * 128) = .localMem → s.lineOut core e.line = false) :
    (region (e.line * 128) = .localMem →
      exec (.storeBufferEntryDrain core) s = .next ((t.drainLocal core e).sampleTime 3 core)) ∧
    (region (e.line * 128) = .hostWin →
      exec (.storeBufferEntryDrain core) s = .next ((t.hostRuns core e).sampleTime 3 core)) ∧
    (region (e.line * 128) = .setup0 →
      exec (.storeBufferEntryDrain core) s = .next ((t.drainSetup e).sampleTime 3 core)) := by
  have hexec : exec (.storeBufferEntryDrain core) s = execStoreBufferEntryDrain core s := rfl
  rw [hexec, ht]
  refine ⟨fun h => ?_, fun h => ?_, fun h => ?_⟩
  · simp [execStoreBufferEntryDrain, hsb, hblk, hclosed, h, hgo h]
  · simp [execStoreBufferEntryDrain, hsb, hblk, hclosed, h]
  · simp [execStoreBufferEntryDrain, hsb, hblk, hclosed, h]

end

/-- A line of the cluster cache reads what was written to it. -/
theorem State.ccFind_setCc {cl line : Nat} {c : CcLine} : (s.setCc cl line c).ccFind cl line = some c := tabFind_ins_same

/-- Bytes drain into a line held with write permission that no earlier store waits for. -/
theorem State.drainLocal_held {e : SbEnt} {c : CcLine} (hc : s.ccFind (core / 8) e.line = some c) (hst : c.st ≠ .S)
    (hpend : ∀ q ∈ s.coh.pend, ¬(q.cluster = core / 8 ∧ q.line = e.line)) :
    s.drainLocal core e = (s.setCc (core / 8) e.line
      ⟨.M, overlay c.data e.bytes, c.poison &&& (15 ^^^ covered e.bytes)⟩).breakResv e.line := by
  have hnone : (s.coh.pend.any fun q => q.cluster == core / 8 && q.line == e.line) = false := by
    simpa [List.any_eq_false] using hpend
  simp only [State.drainLocal, hc, hnone, hst, ne_eq, not_false_eq_true, Bool.not_false, and_self, if_true]

/-- A line held with write permission takes the bytes, and reservations on its granule break. -/
theorem State.drainLocal_held_leaves {e : SbEnt} {c : CcLine} (hc : s.ccFind (core / 8) e.line = some c) (hst : c.st ≠ .S)
    (hpend : ∀ q ∈ s.coh.pend, ¬(q.cluster = core / 8 ∧ q.line = e.line)) :
    KeepsMemCores s (s.drainLocal core e) ∧
    (s.drainLocal core e).ccFind (core / 8) e.line =
      some ⟨.M, overlay c.data e.bytes, c.poison &&& (15 ^^^ covered e.bytes)⟩ ∧
    ∀ x ∈ (s.drainLocal core e).coh.resv, x.granule ≠ e.line / 2 := by
  rw [State.drainLocal_held hc hst hpend]
  refine ⟨⟨rfl, rfl⟩, State.ccFind_setCc, fun x hx => ?_⟩
  simpa using (List.mem_filter.mp hx).2

/-- Bytes of a line that the cluster cache does not have wait for write permission. -/
theorem State.drainLocal_absent {e : SbEnt} (hc : s.ccFind (core / 8) e.line = none) :
    s.drainLocal core e = s.pendAdd core e := by
  simp only [State.drainLocal, hc]

theorem State.sampleTime_coh (m sel : Nat) : (s.sampleTime m sel).coh = s.coh := by
  unfold State.sampleTime
  split <;> rfl

/-- A store to setup space is PF0's own access. -/
theorem State.drainSetup_bar0 {e : SbEnt} {o : Nat} {v : Byte} {l : Data} (hbytes : e.bytes = (o, v) :: l)
    (hreg : region (e.line * 128 + o) = .setup0) :
    s.drainSetup e =
      (s.bar0Write 0 ((e.line * 128 + o) % 2 ^ 24) e.bytes.length (ofBytes (e.bytes.map (·.2)))).1 := by
  unfold State.drainSetup
  simp only [hbytes, hreg, if_true]

/-! ### Answers of the host to reads, R53, R63, R65 -/

/-- The row that brings the end of a host read: its answer, or the timeout of its completion. -/
def hostRow (id err : Nat) (d : List Byte) : Instr :=
  if err = 0x14 then .hostCompletionTimeout id else .hostReadCompletion id err d none

/-- A read that ends with a fault is answered with it. -/
theorem exec_hostRow_fault {id err : Nat} {d : List Byte} (h : err = 0x13 ∨ err = 0x14 ∨ err = 0x15) :
    exec (hostRow id err d) s = .next (s.hostAnswer id err [] false) := by
  rcases h with rfl | rfl | rfl
  · rfl
  · rfl
  · rfl

/-- A read of the length that comes is answered with the bytes. -/
theorem exec_hostRow_data {id : Nat} {d : List Byte} {r : HRead} (hr : s.host.reads.find? (fun r => r.id == id) = some r)
    (hlen : r.len = d.length) : exec (hostRow id 0 d) s = .next (s.hostAnswer id 0 d false) := by
  have hid : r.id = id := by simpa using List.find?_some hr
  have hany : (s.host.reads.any fun r => r.id == id && r.len == d.length) = true :=
    List.any_eq_true.mpr ⟨r, List.mem_of_find?_eq_some hr, by simp [hid, hlen]⟩
  change Host.Outcome.next (if _ then _ else if _ then _ else _) = _
  rw [if_neg (by decide), if_pos ⟨rfl, hany⟩]
  rfl

/-- Bytes that no read of their length awaits change nothing. -/
theorem exec_hostRow_noData {id : Nat} {d : List Byte} (h : ∀ r ∈ s.host.reads, r.id = id → r.len ≠ d.length) :
    exec (hostRow id 0 d) s = .next s := by
  have hany : (s.host.reads.any fun r => r.id == id && r.len == d.length) = false := by
    simpa [List.any_eq_false] using h
  change Host.Outcome.next (if _ then _ else if _ then _ else _) = _
  rw [if_neg (by decide), if_neg (by simp [hany])]

/-- An answer of another code changes nothing. -/
theorem exec_hostRow_other {id err : Nat} {d : List Byte} (h0 : err ≠ 0) (h13 : err ≠ 0x13) (h14 : err ≠ 0x14)
    (h15 : err ≠ 0x15) : exec (hostRow id err d) s = .next s := by
  rw [hostRow, if_neg h14]
  change Host.Outcome.next (if _ then _ else if _ then _ else _) = _
  rw [if_neg (by simp [h13, h15]), if_neg (by simp [h0])]

/-- An answer to a read that is not under way changes nothing. -/
theorem exec_hostRow_unasked {id err : Nat} {d : List Byte} (h : s.host.reads.find? (fun r => r.id == id) = none) :
    exec (hostRow id err d) s = .next s := by
  have hanswer : ∀ code data bad, s.hostAnswer id code data bad = s := fun _ _ _ => by simp only [State.hostAnswer, h]
  by_cases hfault : err = 0x13 ∨ err = 0x14 ∨ err = 0x15
  · rw [exec_hostRow_fault hfault, hanswer]
  · simp only [not_or] at hfault
    obtain ⟨h13, h14, h15⟩ := hfault
    by_cases h0 : err = 0
    · subst h0
      refine exec_hostRow_noData fun r hr hid => ?_
      simpa [hid] using List.find?_eq_none.mp h r hr
    · exact exec_hostRow_other h0 h13 h14 h15

section
variable {id : Nat} {r : HRead} (hr : s.host.reads.find? (fun r => r.id == id) = some r)
include hr

theorem State.hostTake_reads : (s.hostTake r).host.reads = s.host.reads.filter fun x => x.id != id := by
  have hid : r.id = id := by simpa using List.find?_some hr
  rw [← hid]
  rfl

/-- A core's read is answered with data. -/
theorem State.hostAnswer_data {d : List Byte} (hcore : r.agent ≠ 2) (hsent : (s.core r.unit).sent.any r.isOf = true) :
    s.hostAnswer id 0 d false = (s.hostTake r).setCore r.unit { s.core r.unit with
      resps := (s.core r.unit).resps ++ [⟨r.group, r.pc, (s.core r.unit).sentBy (2 ^ 64 + r.id), r.pa, d, false, 0⟩]
      sent := (s.core r.unit).sent.filter fun x => !r.isOf x } := by
  have hhas : (((s.hostTake r).core r.unit).sent.any r.isOf) = true := hsent
  simp only [State.hostAnswer, hr, if_neg hcore, ne_eq, not_true_eq_false, if_false, State.coreReadData, hhas, if_true]
  rfl

/-- A core's read ends with a fault. -/
theorem State.hostAnswer_fault {err : Nat} (hcore : r.agent ≠ 2) (herr : err ≠ 0) :
    s.hostAnswer id err [] false = (s.hostTake r).coreReadFault r err := by
  simp only [State.hostAnswer, hr, if_neg hcore, if_pos herr]

/-- A Lighter's read ends its command with the fault. -/
theorem State.hostAnswer_lighter {err : Nat} {c : Cmd} {j : Job} (hagent : r.agent = 2) (herr : err ≠ 0) (hle : err ≤ 0x15)
    (hc : s.cmd r.group = some c) (hj : c.job = some j) (hrun : j.ended = false) (hpos : j.pos + j.buf.length = r.pc) :
    s.hostAnswer id err [] false = (s.hostTake r).jobStop c { code := err, va := r.va, pa := r.pa } := by
  have hc' : (s.hostTake r).cmd r.group = some c := hc
  simp [State.hostAnswer, hr, hagent, State.lightAnswer, hc', hj, hrun, hpos, herr, hle]

end

/-- The read's load has left the core's list of those sent. -/
def HRead.dropSent (r : HRead) (k : Core) : Core := { k with sent := k.sent.filter fun x => !r.isOf x }

/-- The load that waits takes the fault as its exception. -/
theorem State.coreReadFault_raises {r : HRead} {err : Nat} (hsent : (s.core r.unit).sent.any r.isOf = true)
    (hexc : (s.core r.unit).exc = none) (hctx : s.ctxState r.ctx ≠ 6) :
    s.coreReadFault r err = (s.setCore r.unit (r.dropSent (s.core r.unit))).setCore r.unit { r.dropSent (s.core r.unit) with
      exc := some (Exc.mk err r.group r.pc r.lanes r.word r.va r.pa 7 false false []) } := by
  have hstate : (s.setCore r.unit (r.dropSent (s.core r.unit))).ctxState r.ctx = s.ctxState r.ctx := rfl
  have hheld : ((s.core r.unit).sent.any r.isOf && (s.core r.unit).exc.isNone &&
      (s.setCore r.unit (r.dropSent (s.core r.unit))).ctxState r.ctx != 6) = true := by
    rw [hstate]
    simp [hsent, hexc, hctx]
  have hdrop : (r.dropSent (s.core r.unit)).exc = none := hexc
  have hraise : ∀ i, (s.setCore r.unit (r.dropSent (s.core r.unit))).raise r.unit r.group r.pc r.word r.lanes err i =
      (s.setCore r.unit (r.dropSent (s.core r.unit))).setCore r.unit { r.dropSent (s.core r.unit) with
        exc := some ⟨err, r.group, r.pc, r.lanes, r.word, i.va, i.pa, i.level, i.write, i.fetch, i.extra⟩ } := fun i => by
    simp only [State.raise, State.core_setCore_same, hdrop]
  unfold State.coreReadFault
  exact (if_pos hheld).trans (hraise _)

/-- A load that has ended otherwise leaves the fault to be recorded. -/
theorem State.coreReadFault_records {r : HRead} {err : Nat}
    (h : (s.core r.unit).sent.any r.isOf = false ∨ (s.core r.unit).exc.isSome = true ∨ s.ctxState r.ctx = 6) :
    s.coreReadFault r err = (s.setCore r.unit (r.dropSent (s.core r.unit))).faultAs 1 3
      { code := err, agent := 0, unit := r.unit, ctx := r.ctx, part := r.part, va := r.va, pa := r.pa }
      [r.pc, r.group, laneMask r.lanes, r.word % 2 ^ 64, r.word / 2 ^ 64] := by
  have hstate : (s.setCore r.unit (r.dropSent (s.core r.unit))).ctxState r.ctx = s.ctxState r.ctx := rfl
  have hnot : ¬((s.core r.unit).sent.any r.isOf && (s.core r.unit).exc.isNone &&
      (s.setCore r.unit (r.dropSent (s.core r.unit))).ctxState r.ctx != 6) = true := by
    rw [hstate]
    rcases h with h | h | h
    · simp [h]
    · simp [Option.isNone_eq_false_iff.mpr h]
    · simp [h]
  unfold State.coreReadFault
  exact if_neg hnot

/-- What a read's end with a fault leaves where the load has ended otherwise and the log has room. -/
theorem State.coreReadFault_logged {r : HRead} {err : Nat} (hpart : r.part < 16)
    (hroom : s.get (F.PT_FAULT_STAT_COUNT r.part) < 16)
    (h : (s.core r.unit).sent.any r.isOf = false ∨ (s.core r.unit).exc.isSome = true ∨ s.ctxState r.ctx = 6) :
    FaultLogged (s.setCore r.unit (r.dropSent (s.core r.unit)))
      { code := err, agent := 0, unit := r.unit, ctx := r.ctx, part := r.part, va := r.va, pa := r.pa }
      (s.coreReadFault r err) := by
  rw [State.coreReadFault_records h]
  exact State.faultAs_logged hpart hroom

/-! ### Posted writes that the root port refused, R63, R65, R382 -/

theorem State.ctxPart_lt (ctx : Nat) : s.ctxPart ctx < 16 := bits_lt _ 3 0

theorem exec_hostPostedWriteError_stopped {by' : PostedBy} (h : s.running = false) :
    exec (.hostPostedWriteError by') s = .next s := by
  change Host.Outcome.next (if _ then _ else _) = _
  rw [if_pos h]

section
variable (hrun : s.running = true)
include hrun

theorem exec_hostPostedWriteError_store {ctx va pa : Nat} :
    exec (.hostPostedWriteError (.store core ctx va pa)) s = .next (s.faultAs 1 9
      { code := 0x13, write := true, agent := 0, unit := core, ctx := ctx, part := s.ctxPart ctx, va := va, pa := pa }
      [va, pa]) := by
  change Host.Outcome.next (if _ then _ else _) = _
  rw [if_neg (by simp [hrun])]
  rfl

theorem exec_hostPostedWriteError_engine {agent cmd unit ctx va pa : Nat} (hagent : agent = 1 ∨ agent = 2) :
    exec (.hostPostedWriteError (.engine agent cmd unit ctx va pa)) s =
      .next (s.engRefused agent cmd unit ctx { code := 0x13, write := true, va := va, pa := pa }) := by
  change Host.Outcome.next (if _ then _ else if _ then _ else _) = _
  rw [if_neg (by simp [hrun]), if_pos hagent]

theorem exec_hostPostedWriteError_record {q : Nat} {r : Rec} (hq : q < 4096) (hlast : tabFind s.fe.last q = some r)
    (hstate : s.qState q ≠ 0) (hwritten : s.get (F.FE_Q_CQPTR_WRITTEN q) ≠ 0) :
    exec (.hostPostedWriteError (.record q)) s = .next (s.recordBack q r) := by
  change execHostPostedWriteError (.record q) s = _
  simp only [execHostPostedWriteError, hrun, Bool.true_eq_false, if_false, hlast]
  rw [if_pos ⟨hq, hstate, hwritten⟩]

theorem exec_hostPostedWriteError_signal {q va pa : Nat} (hq : q < 4096) :
    exec (.hostPostedWriteError (.signal q va pa)) s = .next (
      let t := s.qFault q { code := 0x13, write := true, va := va, pa := pa }
      if t.qState q = 1 then t.qStop q 1 0x13 else t) := by
  change execHostPostedWriteError (.signal q va pa) s = _
  simp only [execHostPostedWriteError, hrun, Bool.true_eq_false, if_false, hq, if_true]

end

end

/-- Settles O40: each row by what it answers; the drain by the region of the entry, a host read's end by who waits for it.
That the record taken back is the queue's last (log 68) is the model's choice. -/
theorem storeBuffersAndHostAnswers : Obligations.StoreBuffersAndHostAnswers := by
  intro s core
  refine ⟨fun _ => rfl, ?handed, exec_storeBufferEntryDrain_idle, ?behind, ?drains, ?answers,
    fun hrun by' => exec_hostPostedWriteError_stopped hrun, ?refused⟩
  case handed =>
    intro b line hblk
    obtain ⟨hmem, hcore⟩ := State.handRq_keeps (s := s) (core := core) (f := fun e => e.line == line)
      (Option.isSome_iff_exists.mpr ⟨b, hblk⟩)
    refine ⟨_, rfl, hmem, ?_⟩
    rw [hcore]
    exact ⟨rfl, rfl, rfl⟩
  case behind =>
    intro b e r hblk hsb hclosed hreg hout
    exact exec_storeBufferEntryDrain_behind hblk hsb hclosed hreg hout
  case drains =>
    intro b e r hblk hsb hclosed hgo s'
    obtain ⟨hlocal, hwin, hsetup⟩ := exec_storeBufferEntryDrain hblk hsb hclosed (t := s') rfl hgo
    refine ⟨fun c hreg hc hst hpend => ?_, fun hreg hc => ?_, hwin, fun o v l hreg hacc hbytes => ?_⟩
    · obtain ⟨hkeep, hline, hresv⟩ := State.drainLocal_held_leaves (s := s') (core := core) hc hst hpend
      have htime := KeepsMemCores.sampleTime (s := s'.drainLocal core e) 3 core
      have hcoh := State.sampleTime_coh (s := s'.drainLocal core e) 3 core
      refine ⟨_, hlocal hreg, ?_, ?_, ?_, ?_⟩
      · rw [State.ccFind, hcoh]
        exact hline
      · rw [(hkeep.trans htime).core]
        exact State.core_setCore_same
      · exact (hkeep.trans htime).mem
      · rw [hcoh]
        exact hresv
    · rw [hlocal hreg, State.drainLocal_absent (s := s') hc]
    · rw [hsetup hreg, State.drainSetup_bar0 hbytes hacc]
  case answers =>
    intro id row held
    refine ⟨fun h err d => exec_hostRow_unasked h, fun err d h0 h13 h14 h15 => exec_hostRow_other h0 h13 h14 h15,
      fun d h => exec_hostRow_noData h, ?data, fun r err herr hr => ⟨?raised, ?recorded, ?lighter⟩⟩
    case data =>
      intro r d hr hlen hcore hsent
      refine ⟨_, exec_hostRow_data hr hlen, ?_⟩
      rw [State.hostAnswer_data hr hcore hsent]
      exact ⟨rfl, State.hostTake_reads hr, State.core_setCore_same⟩
    case raised =>
      intro hcore hsent hexc hctx
      refine ⟨_, exec_hostRow_fault herr, ?_⟩
      rw [State.hostAnswer_fault hr hcore (by omega), State.coreReadFault_raises (s := s.hostTake r) hsent hexc hctx]
      refine ⟨rfl, State.hostTake_reads hr, ?_⟩
      rw [State.core_setCore_same]
      exact ⟨rfl, rfl⟩
    case recorded =>
      intro hcore hended hpart n hroom
      have hlog := State.coreReadFault_logged (s := s.hostTake r) (err := err) hpart hroom hended
      refine ⟨_, exec_hostRow_fault herr, ?_⟩
      rw [State.hostAnswer_fault hr hcore (by omega)]
      refine ⟨hlog.keeps.mem, hlog.reads.trans (State.hostTake_reads hr), ?_, hlog.count, hlog.va, ?_⟩
      · rw [hlog.keeps.core, State.core_setCore_same]
        rfl
      · exact hlog.code.trans (Nat.mod_eq_of_lt (by dsimp only; omega))
    case lighter =>
      intro c j hagent hc hj hrun hpos
      rw [← State.hostTake_reads hr]
      exact (exec_hostRow_fault herr).trans
        (congrArg Host.Outcome.next (State.hostAnswer_lighter hr hagent (by omega) (by omega) hc hj hrun hpos))
  case refused =>
    intro hrun
    refine ⟨?_, fun agent cmd unit ctx va pa h => exec_hostPostedWriteError_engine hrun h,
      fun q r hq hlast hstate hwritten => exec_hostPostedWriteError_record hrun hq hlast hstate hwritten,
      fun q va pa hq => exec_hostPostedWriteError_signal hrun hq⟩
    intro ctx va pa p n hroom
    have hlog := State.faultAs_logged (s := s) (src := 1) (cls := 9) (l := [va, pa]) (f :=
      { code := 0x13, write := true, agent := 0, unit := core, ctx := ctx, part := s.ctxPart ctx, va := va, pa := pa })
      (State.ctxPart_lt ctx) hroom
    exact ⟨_, exec_hostPostedWriteError_store hrun, hlog.keeps.mem, hlog.keeps.cores, hlog.count, hlog.va, hlog.pa, hlog.code⟩

end Sys2Proof.Machine
end

section
/-! SUPPORT. The floating-point operations of R78 and the comparisons and conversions beside them (R71, R77, R79, R81, R190):
how exact values with a NaN combine, that sums and products commute, and which way a zero sum and an overflow go. -/

namespace Sys2Proof

/-! ### NaN operands of exact arithmetic, R71, R79 -/

theorem Val.isNaN_iff {v : Val} : v.isNaN = true ↔ ∃ q, v = .nan q := by
  cases v <;> simp [Val.isNaN]

theorem Val.add_isNaN {mode : Nat} {x y : Val} (h : x.isNaN = true ∨ y.isNaN = true) : (x.add mode y).1.isNaN = true := by
  obtain hx | hy := h
  · obtain ⟨p, rfl⟩ := Val.isNaN_iff.1 hx
    cases y <;> rfl
  · obtain ⟨q, rfl⟩ := Val.isNaN_iff.1 hy
    cases x <;> rfl

theorem Val.mul_isNaN {x y : Val} (h : x.isNaN = true ∨ y.isNaN = true) : (x.mul y).1.isNaN = true := by
  obtain hx | hy := h
  · obtain ⟨p, rfl⟩ := Val.isNaN_iff.1 hx
    cases y <;> rfl
  · obtain ⟨q, rfl⟩ := Val.isNaN_iff.1 hy
    cases x <;> rfl

/-- A NaN rounds to the canonical NaN of an FPU type. -/
theorem convTo_isNaN {c mode : Nat} {sat : Bool} {v : Val} (hc : c ≤ 3) (h : v.isNaN = true) :
    (convTo c mode sat v).1 = canonNaN c := by
  obtain ⟨q, rfl⟩ := Val.isNaN_iff.1 h
  have hint : c ≠ 9 ∧ c ≠ 10 ∧ c ≠ 13 ∧ c ≠ 14 := by omega
  have hsmall : c ≠ 6 ∧ c ≠ 7 ∧ c ≠ 8 := by omega
  simp [convTo, convFloat, hint, hsmall]

section
variable {c mode a b d : Nat}

theorem fadd_isNaN (hc : c ≤ 3) (h : (decodeEl c a).isNaN = true ∨ (decodeEl c b).isNaN = true) :
    (fadd c mode a b).1 = canonNaN c :=
  convTo_isNaN hc (Val.add_isNaN h)

theorem fmul_isNaN (hc : c ≤ 3) (h : (decodeEl c a).isNaN = true ∨ (decodeEl c b).isNaN = true) :
    (fmul c mode a b).1 = canonNaN c :=
  convTo_isNaN hc (Val.mul_isNaN h)

theorem ffma_isNaN_factor (hc : c ≤ 3) (h : (decodeEl c a).isNaN = true ∨ (decodeEl c b).isNaN = true) :
    (ffma c mode a b d).1 = canonNaN c :=
  convTo_isNaN hc (Val.add_isNaN (.inl (Val.mul_isNaN h)))

theorem ffma_isNaN_addend (hc : c ≤ 3) (h : (decodeEl c d).isNaN = true) : (ffma c mode a b d).1 = canonNaN c :=
  convTo_isNaN hc (Val.add_isNaN (.inr h))

end

/-! ### Commutation, R78 -/

theorem Val.mul_comm (x y : Val) : x.mul y = y.mul x := by
  have hsign (p q : Bool) : (p != q) = (q != p) := by cases p <;> cases q <;> rfl
  cases x with
  | nan p => cases y <;> simp [Val.mul, Bool.or_comm p]
  | inf p => cases y <;> simp [Val.mul, hsign p]
  | fin p m e => cases y <;> simp [Val.mul, hsign p, Nat.mul_comm m, Int.add_comm e]

/-- The sign of an exactly zero sum: that of the operands where they agree, else the mode's (R77). -/
theorem Val.add_fin (mode : Nat) (a b : Bool) (m k : Nat) (e f : Int) : Val.add mode (.fin a m e) (.fin b k f) =
    if scaledInt a m e (min e f) + scaledInt b k f (min e f) = 0 then (.fin (if a = b then a else mode == 2) 0 (min e f), 0)
    else (.fin (decide (scaledInt a m e (min e f) + scaledInt b k f (min e f) < 0))
      (scaledInt a m e (min e f) + scaledInt b k f (min e f)).natAbs (min e f), 0) := by
  by_cases hs : a = b <;> simp [Val.add, hs]

theorem Val.add_comm (mode : Nat) (x y : Val) : x.add mode y = y.add mode x := by
  cases x with
  | nan p => cases y <;> simp [Val.add, Bool.or_comm p]
  | inf p =>
    cases y with
    | inf q => by_cases h : p = q <;> simp [Val.add, h, Ne.symm]
    | _ => simp [Val.add]
  | fin p m e =>
    cases y with
    | fin q k f =>
      have hsign : (if p = q then p else mode == 2) = (if q = p then q else mode == 2) := by
        by_cases h : p = q
        · simp [h]
        · simp [h, Ne.symm h]
      rw [Val.add_fin, Val.add_fin, Int.min_comm f e, Int.add_comm (scaledInt q k f _), hsign]
    | _ => simp [Val.add]

section
variable (c mode a b : Nat)

theorem fadd_comm : fadd c mode a b = fadd c mode b a := by
  simp only [fadd, Val.add_comm mode (decodeEl c a)]

theorem fmul_comm : fmul c mode a b = fmul c mode b a := by
  simp only [fmul, Val.mul_comm (decodeEl c a)]

theorem ffma_comm (d : Nat) : ffma c mode a b d = ffma c mode b a d := by
  simp only [ffma, Val.mul_comm (decodeEl c a)]

end

/-! ### Minimum and maximum, R78 -/

section
variable {m : Bool} {c a b : Nat} (ha : (decodeEl c a).isNaN = true)
include ha

theorem fminmax_one_nan (hb : (decodeEl c b).isNaN = false) : (fminmax m c a b).1 = b ∧ (fminmax m c b a).1 = b := by
  simp [fminmax, ha, hb]

theorem fminmax_two_nan (hb : (decodeEl c b).isNaN = true) : (fminmax m c a b).1 = canonNaN c := by
  simp [fminmax, ha, hb]

end

/-! ### Comparisons, R190 -/

section
variable {cond : Nat} {x y : Val}

/-- Of unordered values a condition is true exactly from code 7 on. -/
theorem fcompare_unordered (h : x.isNaN = true ∨ y.isNaN = true) : fcompare cond x y = decide (7 ≤ cond) := by
  have hun : (x.isNaN || y.isNaN) = true := by simpa using h
  unfold fcompare
  simp only [hun]
  obtain hlt | rfl | rfl | hgt : cond < 6 ∨ cond = 6 ∨ cond = 7 ∨ 7 < cond := by omega
  · simp [hlt, show cond ≠ 6 ∧ cond ≠ 7 ∧ ¬7 ≤ cond by omega]
  · simp
  · simp
  · simp [show cond ≠ 6 ∧ cond ≠ 7 ∧ ¬cond < 6 ∧ 7 ≤ cond by omega]

/-- Of ordered values each condition is what the order makes it. -/
theorem fcompare_ordered (hx : x.isNaN = false) (hy : y.isNaN = false) :
    fcompare 0 x y = (!valLt false x y && !valLt false y x) ∧ fcompare 1 x y = (valLt false x y || valLt false y x) ∧
    fcompare 2 x y = valLt false x y ∧ fcompare 3 x y = !valLt false y x ∧ fcompare 4 x y = valLt false y x ∧
    fcompare 6 x y = true ∧ fcompare 7 x y = false := by
  simp [fcompare, hx, hy]

end

/-! ### Conversion to an integer, R81 -/

theorem wrap_of_lt {w n : Nat} (h : n < 2 ^ w) : wrap w (n : Int) = n := by
  unfold wrap
  rw [Int.emod_eq_of_lt (Int.natCast_nonneg n) (Int.ofNat_lt.2 h), Int.toNat_natCast]

theorem convInt_above {w mode m : Nat} (hw : 0 < w) (hm : 2 ^ (w - 1) ≤ m) :
    convInt w mode (.fin false m 0) = (2 ^ (w - 1) - 1, flOF + flNX + flSA) := by
  have hpos : 0 < 2 ^ (w - 1) := Nat.two_pow_pos _
  have hlt : 2 ^ (w - 1) - 1 < 2 ^ w := by
    have : 2 ^ (w - 1) ≤ 2 ^ w := Nat.pow_le_pow_right (by decide) (by omega)
    omega
  have hhi : (2 : Int) ^ (w - 1) - 1 = ((2 ^ (w - 1) - 1 : Nat) : Int) := by
    rw [Int.ofNat_sub hpos, Int.natCast_pow]
    exact rfl
  have hgt : (m : Int) > (2 : Int) ^ (w - 1) - 1 := by rw [hhi]; omega
  simp only [convInt, roundAt, Int.le_refl, if_true, Bool.false_eq_true, if_false, Int.sub_self, Int.toNat_zero, Nat.pow_zero,
    Nat.mul_one, hgt]
  rw [hhi, wrap_of_lt hlt]

/-- Equal magnitudes of opposite signs sum to a zero that is negative in RD alone (R77). -/
theorem Val.add_cancel (mode m : Nat) (e : Int) : Val.add mode (.fin false m e) (.fin true m e) = (.fin (mode == 2) 0 e, 0) := by
  have hzero : scaledInt false m e e + scaledInt true m e e = 0 := Int.add_right_neg _
  rw [Val.add_fin, Int.min_self, if_pos hzero]
  rfl

/-- Settles O22, clause by clause: NaN operands, commutation, minimum and maximum, comparisons, integers, zero sums. -/
theorem floatingPointRules : Obligations.FloatingPointRules := by
  unfold Obligations.FloatingPointRules
  refine ⟨fun c mode a b hc h => ⟨fadd_isNaN hc h, fmul_isNaN hc h, fun d => ffma_isNaN_factor hc h⟩,
    fun c mode a b d hc h => ffma_isNaN_addend hc h,
    fun c mode a b _ => ⟨fadd_comm c mode a b, fmul_comm c mode a b, ffma_comm c mode a b⟩,
    fun m c a b ha hb => fminmax_one_nan ha hb, fun m c a b ha hb => fminmax_two_nan ha hb, ?unordered, ?ordered,
    fun w mode q => rfl, fun w mode m hw hm => convInt_above hw hm, fun mode m e _ => Val.add_cancel mode m e⟩
  case unordered =>
    intro cond x y h
    simp only [fcompare_unordered h, decide_eq_false_iff_not, decide_eq_true_eq]
    omega
  case ordered =>
    intro x y hx hy
    obtain ⟨h0, h1, h2, h3, h4, h6, h7⟩ := fcompare_ordered hx hy
    obtain ⟨-, -, h2', -⟩ := fcompare_ordered hy hx
    refine ⟨h4.trans h2'.symm, by rw [h3, h2'], ?_, h7, h6⟩
    rw [h0, h1]
    simp

end Sys2Proof
end

section
/-! SUPPORT. The FPU and CVT classes (R186, R187, R191, R192): where a legal word of format V puts its result, and what an
issue whose body is one of the shared lane operations leaves. -/

namespace Sys2Proof.Machine

/-! ### The destination of a legal word, R185, R186 -/

/-- A destination of n registers, 1 or 2, lies whole among the 256 of a thread. -/
theorem dstOk_regs {k n w : Nat} (h : dstOk 0 k (wD w) n = true) (hn : n = 1 ∨ n = 2) : wD w + n ≤ 256 := by
  have hlt : wD w < 256 := bits_lt w 31 24
  obtain rfl | rfl := hn
  · omega
  · simp [dstOk] at h
    omega

theorem dstOk_pred {k n i : Nat} (h : dstOk 1 k i n = true) : i < 8 := by
  simp [dstOk] at h
  omega

theorem fpN_cases (w : Nat) : fpN w = 1 ∨ fpN w = 2 := by
  unfold fpN
  split <;> simp

section
variable {s : State} {cls op : Nat} {at' : Issue} {w : BitVec 128} {o : Op}

/-- The word of an issue of a class of format V has a legal destination. -/
theorem Issues.dstOk {f : VForm} (h : Issues s cls op at' w o) (hcls : cls ≠ 4 ∧ cls ≠ 5 ∧ cls ≠ 6 ∧ cls ≠ 10)
    (hf : vForm cls op o.w = .some f) : dstOk f.d (wDK o.w) (wD o.w) f.dw = true := by
  obtain ⟨h4, h5, h6, h10⟩ := hcls
  have hl := h.legal.2
  simp only [Machine.legal, h.row.1, h.row.2, h4, h5, h6, h10, if_false, hf, vLegal, Bool.and_eq_true] at hl
  obtain ⟨-, ⟨⟨⟨⟨⟨⟨-, hdst⟩, -⟩, -⟩, -⟩, -⟩, -⟩, -⟩ := hl
  exact hdst

/-- FADD, FMUL, FFMA, FMIN and FMAX write registers of their type's size. -/
theorem Issues.fpu_regs (h : Issues s 2 op at' w o) (hlo : 1 ≤ op) (hhi : op ≤ 5) : wD o.w + fpN o.w ≤ 256 := by
  have hform : ∃ f, vForm 2 op o.w = .some f ∧ f.d = 0 ∧ f.dw = fpN o.w := by
    obtain rfl | rfl | rfl | rfl | rfl : op = 1 ∨ op = 2 ∨ op = 3 ∨ op = 4 ∨ op = 5 := by omega
    all_goals exact ⟨_, rfl, rfl, rfl⟩
  obtain ⟨f, hf, hd, hdw⟩ := hform
  have hok := h.dstOk (by decide) hf
  rw [hd, hdw] at hok
  exact dstOk_regs hok (fpN_cases o.w)

theorem Issues.fsetp_pred (h : Issues s 2 0x06 at' w o) : wD o.w < 8 :=
  dstOk_pred (h.dstOk (by decide) rfl)

theorem Issues.cvt_regs (h : Issues s 3 0x01 at' w o) : wD o.w + (if wType o.w = 1 then 2 else 1) ≤ 256 :=
  dstOk_regs (h.dstOk (by decide) rfl) (fpN_cases o.w)

theorem Issues.sfu_regs (h : Issues s 3 0x02 at' w o) : wD o.w + 1 ≤ 256 :=
  dstOk_regs (h.dstOk (by decide) rfl) (.inl rfl)

/-! ### What an issue leaves, by its body -/

theorem exec_fadd : exec (.fadd at' w) s =
    .next (s.instr 2 0x01 at' w fun o => State.fpu2 (fun c => fadd c (wRM o.w)) o) := rfl

theorem exec_fmul : exec (.fmul at' w) s =
    .next (s.instr 2 0x02 at' w fun o => State.fpu2 (fun c => fmul c (wRM o.w)) o) := rfl

theorem exec_ffma : exec (.ffma at' w) s = .next (s.instr 2 0x03 at' w State.ffmaOp) := rfl

theorem exec_fmin : exec (.fmin at' w) s = .next (s.instr 2 0x04 at' w (State.fpu2 (fminmax false))) := rfl

theorem exec_fmax : exec (.fmax at' w) s = .next (s.instr 2 0x05 at' w (State.fpu2 (fminmax true))) := rfl

theorem exec_fsetp : exec (.fsetp at' w) s = .next (s.instr 2 0x06 at' w State.fsetp) := rfl

theorem exec_cvt : exec (.cvt at' w) s = .next (s.instr 3 0x01 at' w State.cvt) := rfl

theorem exec_sfu : exec (.sfu at' w) s =
    .next (s.instr 3 0x02 at' w fun o => State.lanesF o 1 fun k t => sfuResult (wFunc o.w) (srcA o.w 1 k t)) := rfl

/-- A row whose body writes n registers of each lane, with flags, does so for every issue (R181, R183, R191). -/
theorem Issues.after_lanesF {c : Instr} {body : Op → State → State} {n : Nat} {f : Core → Nat → Nat × Nat}
    (h : Issues s cls op at' w o) (hc : exec c s = .next (s.instr cls op at' w body)) (hb : body o s = s.lanesF o n f)
    (hd : wD o.w + n ≤ 256) : After c s (WritesFlags o n (f (s.core o.core)) s) := by
  obtain ⟨hall, hex⟩ := h.nodup
  exact ⟨s.lanesF o n f, by rw [hc, State.instr_of_issues h, hb], State.lanesF_writes hall hex hd⟩

/-- An FPU row of two operands (R191). -/
theorem Issues.after_fpu2 {c : Instr} {body : Op → State → State} {g : Nat → Nat → Nat → Nat × Nat} (h : Issues s 2 op at' w o)
    (hlo : 1 ≤ op) (hhi : op ≤ 5) (hc : exec c s = .next (s.instr 2 op at' w body)) (hb : body o s = State.fpu2 g o s) :
    After c s (WritesFlags o (fpN o.w) (fun th => g (wType o.w) (fpA o.w (s.core o.core) th) (fpB o.w (s.core o.core) th)) s) :=
  h.after_lanesF (f := fun k th => g (wType o.w) (fpA o.w k th) (fpB o.w k th)) hc hb (h.fpu_regs hlo hhi)

/-- What FSETP gives a lane: its truth value and the flags of reading its operands (R190, R191). -/
def fsetpLane (x : Nat) (k : Core) (th : Nat) : Bool × Nat :=
  let a := decodeEl (wType x) (fpA x k th)
  let b := decodeEl (wType x) (fpB x k th)
  (fcompare (wCmp x) a b, readFlag a ||| readFlag b)

theorem State.fsetp_eq : s.fsetp o = s.done o (o.ex.foldl (fun r th =>
    (r.setPred th (wD o.w) (fsetpLane o.w (s.core o.core) th).1).raiseFlags o.group (fsetpLane o.w (s.core o.core) th).2)
      (s.core o.core)) := rfl

/-! ### CVT, R87, R192 -/

variable {k : Core} {base : Nat}

theorem cvtLane_plain {x : Nat} (h : isCodebook (wType2 x) = false) : cvtLane x base k = fun th =>
    (spread (wType x) (convert (wType2 x) (wType x) (wRM x) (wSat x) (cvtSrc x k th)).1,
      (convert (wType2 x) (wType x) (wRM x) (wSat x) (cvtSrc x k th)).2) := by
  funext th
  simp [cvtLane, h]

theorem cvtLane_codebook {x : Nat} (h : isCodebook (wType2 x) = true) : cvtLane x base k = fun th =>
    (spread (wType x) (convTo (wType x) (wRM x) (wSat x) (decodeEl 4 (k.wellByte (base + cvtSrc x k th)).toNat)).1,
      (convTo (wType x) (wRM x) (wSat x) (decodeEl 4 (k.wellByte (base + cvtSrc x k th)).toNat)).2) := by
  funext th
  simp [cvtLane, h]

/-- The scratchpad offset that the codebook operand of a CVT names. -/
def State.cvtBase (s : State) (o : Op) : Nat := ((s.core o.core).ureg o.group (wC o.w)).toNat % 2 ^ 32

/-- A CVT without a codebook, or whose table lies whole in the scratchpad, converts each lane. -/
theorem State.cvt_lanes (h : isCodebook (wType2 o.w) = true → tableFault (s.core o.core) (wType2 o.w) (s.cvtBase o) = 0) :
    s.cvt o = s.lanesF o (if wType o.w = 1 then 2 else 1) (cvtLane o.w (s.cvtBase o)) := by
  unfold State.cvtBase at *
  cases hcb : isCodebook (wType2 o.w) with
  | false => simp [State.cvt, hcb]
  | true => simp only [State.cvt, hcb, if_true, h hcb]

/-- A codebook table that may not be read raises its exception. -/
theorem State.cvt_fault {code : Nat} (hcb : isCodebook (wType2 o.w) = true)
    (h : tableFault (s.core o.core) (wType2 o.w) (s.cvtBase o) = code + 1) :
    s.cvt o = s.raiseOp o (code + 1) { va := s.cvtBase o } := by
  unfold State.cvtBase at *
  simp only [State.cvt, hcb, if_true, h]

theorem tableFault_misaligned {c : Nat} (h : base % (if c = 11 then 16 else 64) ≠ 0) : tableFault k c base = 0x31 := by
  simp [tableFault, h]

theorem tableFault_beyond {c : Nat} (h : base % (if c = 11 then 16 else 64) = 0)
    (hP : k.P < base + (if c = 11 then 16 else 64)) : tableFault k c base = 0x32 := by
  simp [tableFault, h, hP]

theorem exec_cvt_fault {code : Nat} (h : Issues s 3 0x01 at' w o) (hcb : isCodebook (wType2 o.w) = true)
    (hf : tableFault (s.core o.core) (wType2 o.w) (s.cvtBase o) = code + 1) :
    exec (.cvt at' w) s = .next (s.raiseOp o (code + 1) { va := s.cvtBase o }) :=
  exec_cvt.trans <| congrArg Host.Outcome.next <| (State.instr_of_issues h).trans (State.cvt_fault hcb hf)

end

/-- Settles O21: every row's body is a shared lane operation, whose law says what it writes; a CVT through a table that may
not be read raises. -/
theorem floatingPointLaneResults : Obligations.FloatingPointLaneResults := by
  unfold Obligations.FloatingPointLaneResults
  intro s at' w o
  refine ⟨fun h => h.after_fpu2 (g := fun c => fadd c (wRM o.w)) (by decide) (by decide) exec_fadd rfl,
    fun h => h.after_fpu2 (g := fun c => fmul c (wRM o.w)) (by decide) (by decide) exec_fmul rfl, ?ffma,
    fun h => h.after_fpu2 (g := fminmax false) (by decide) (by decide) exec_fmin rfl,
    fun h => h.after_fpu2 (g := fminmax true) (by decide) (by decide) exec_fmax rfl, ?fsetp, ?cvt, ?codebook, ?fault, ?sfu⟩
  case ffma =>
    intro h
    exact h.after_lanesF (f := fun k th => ffma (wType o.w) (wRM o.w) (fpA o.w k th) (fpB o.w k th) (fpC o.w k th)) exec_ffma rfl
      (h.fpu_regs (by decide) (by decide))
  case fsetp =>
    intro h
    obtain ⟨hall, hex⟩ := h.nodup
    refine ⟨_, exec_fsetp.trans (congrArg Host.Outcome.next (State.instr_of_issues h)), ?_⟩
    rw [State.fsetp_eq]
    exact State.predsF_writes hall hex h.fsetp_pred
  case cvt =>
    intro h hcb
    have hconv := h.after_lanesF exec_cvt (State.cvt_lanes (by simp [hcb])) h.cvt_regs
    rwa [cvtLane_plain hcb] at hconv
  case codebook =>
    intro h hcb hok
    have hconv := h.after_lanesF exec_cvt (State.cvt_lanes fun _ => hok) h.cvt_regs
    rwa [cvtLane_codebook hcb] at hconv
  case fault =>
    exact fun h hcb => ⟨fun hmis => exec_cvt_fault h hcb (tableFault_misaligned hmis),
      fun hal hP => exec_cvt_fault h hcb (tableFault_beyond hal hP)⟩
  case sfu =>
    intro h
    exact h.after_lanesF (f := fun k th => sfuResult (wFunc o.w) (srcA o.w 1 k th)) exec_sfu rfl h.sfu_regs

end Sys2Proof.Machine
end

section
/-! SUPPORT. The matrix engine (R107, R126 to R132): bytes put in a row into the accumulator store or the scratchpad, the
elements of a tile, and what each of the engine's operations leaves unchanged. -/

namespace Sys2Proof

/-! ### Little-endian bytes, R5 -/

theorem toBytes_succ (k n : Nat) : toBytes (k + 1) n = BitVec.ofNat 8 n :: toBytes k (n / 2 ^ 8) := by
  simp only [toBytes, List.range_succ_eq_map, List.map_cons, List.map_map, Nat.mul_zero, Nat.pow_zero, Nat.div_one]
  congr 1
  refine List.map_congr_left fun i _ => ?_
  simp only [Function.comp_apply, Nat.div_div_eq_div_mul, ← Nat.pow_add, Nat.mul_succ, Nat.add_comm 8]

@[simp] theorem length_toBytes (k n : Nat) : (toBytes k n).length = k := by simp [toBytes]

theorem ofBytes_toBytes (k n : Nat) : ofBytes (toBytes k n) = n % 2 ^ (8 * k) := by
  induction k generalizing n with
  | zero => simp [toBytes, ofBytes, Nat.mod_one]
  | succ k ih =>
    have hpow : 2 ^ (8 * (k + 1)) = 2 ^ 8 * 2 ^ (8 * k) := by rw [← Nat.pow_add, Nat.mul_succ, Nat.add_comm]
    rw [toBytes_succ, ofBytes, ih, BitVec.toNat_ofNat, hpow]
    exact (Nat.mod_mul (a := 2 ^ 8)).symm

/-! ### Bytes put in a row -/

/-- Bytes written from key a on, each at the next key. -/
def tabPut (t : Tab Byte) (a : Nat) : List Byte → Tab Byte
  | [] => t
  | b :: l => tabPut (tabSet 0 t a b) (a + 1) l

theorem tabGet_put_off {l : List Byte} {t : Tab Byte} {a i : Nat} (h : i < a ∨ a + l.length ≤ i) :
    tabGet 0 (tabPut t a l) i = tabGet 0 t i := by
  induction l generalizing t a with
  | nil => rfl
  | cons b l ih =>
    rw [List.length_cons] at h
    rw [tabPut, ih (by omega), tabGet_set_ne (by omega)]

theorem map_tabGet_put {l : List Byte} {t : Tab Byte} {a : Nat} :
    (List.range l.length).map (fun i => tabGet 0 (tabPut t a l) (a + i)) = l := by
  induction l generalizing t a with
  | nil => rfl
  | cons b l ih =>
    have hhead : tabGet 0 (tabPut (tabSet 0 t a b) (a + 1) l) a = b := by rw [tabGet_put_off (.inl (by omega)), tabGet_set_same]
    simp only [List.length_cons, List.range_succ_eq_map, List.map_cons, List.map_map, tabPut, Nat.add_zero, hhead]
    have hshift : (fun i => tabGet 0 (tabPut (tabSet 0 t a b) (a + 1) l) (a + i)) ∘ Nat.succ =
        fun i => tabGet 0 (tabPut (tabSet 0 t a b) (a + 1) l) (a + 1 + i) :=
      funext fun i => by simp only [Function.comp_apply, Nat.succ_eq_add_one, show a + (i + 1) = a + 1 + i by omega]
    rw [hshift, ih]

theorem foldl_mapIdx_set {l : List Byte} {t : Tab Byte} {a : Nat} :
    (l.mapIdx fun i b => (a + i, b)).foldl (fun t e => tabSet 0 t e.1 e.2) t = tabPut t a l := by
  induction l generalizing t a with
  | nil => rfl
  | cons b l ih =>
    have hshift : (fun i (b : Byte) => (a + (i + 1), b)) = fun i b => (a + 1 + i, b) := by
      funext i b
      rw [show a + (i + 1) = a + 1 + i by omega]
    rw [List.mapIdx_cons, List.foldl_cons, hshift, ih, tabPut, Nat.add_zero]

/-! ### The first element that a test accepts -/

/-- What is read of a list after its first accepted element x has changed depends on the change of x alone. -/
theorem map_updFirst_congr {α β : Type} {p : α → Bool} {f g : α → α} {φ : α → β} {x : α} {l : List α} (h : l.find? p = some x)
    (hx : φ (f x) = φ (g x)) : (updFirst p f l).map φ = (updFirst p g l).map φ := by
  induction l with
  | nil => rfl
  | cons a l ih =>
    cases hp : p a with
    | false =>
      have htail : l.find? p = some x := by simpa [hp] using h
      simp [updFirst, hp, ih htail]
    | true =>
      have hax : a = x := by simpa [hp] using h
      simp [updFirst, hp, hax ▸ hx]

end Sys2Proof

namespace Sys2Proof.Machine

theorem State.core_setCore_ne {s : State} {c c' : Nat} {k : Core} (h : c' ≠ c) : (s.setCore c k).core c' = s.core c' :=
  tabGet_set_ne h

/-! ### The accumulator store and the scratchpad, R124, R155 -/

section
variable {k : Core} {a : Nat} {l : List Byte}

theorem Core.storePut_eq : k.storePut a l = { k with acc := tabPut k.acc a l } := by
  induction l generalizing k a with
  | nil => rfl
  | cons b l ih => rw [Core.storePut, ih, tabPut]

theorem Core.storeGet_storePut_same : (k.storePut a l).storeGet a l.length = l := by
  rw [storePut_eq]
  exact map_tabGet_put

theorem Core.storeGet_storePut_off {b n : Nat} (h : b + n ≤ a ∨ a + l.length ≤ b) : (k.storePut a l).storeGet b n = k.storeGet b n := by
  rw [storePut_eq]
  refine List.map_congr_left fun i hi => tabGet_put_off ?_
  have := List.mem_range.1 hi
  omega

theorem Core.wellPut_eq : k.wellPut a l = { k with well := tabPut k.well a l } := by
  rw [Core.wellPut, foldl_mapIdx_set]

theorem Core.wellGet_wellPut_same : (k.wellPut a l).wellGet a l.length = l := by
  rw [wellPut_eq]
  exact map_tabGet_put

end

/-! ### Slots and the queue of a core, R104, R125 -/

section
variable (k : Core) (c : AccF) (v : Slot) (id : Nat) (f : MtxOp → MtxOp)

@[simp] theorem Core.setSlot_acc : (k.setSlot c v).acc = k.acc := rfl
@[simp] theorem Core.setSlot_well : (k.setSlot c v).well = k.well := rfl
@[simp] theorem Core.setSlot_fpEl (i j : Nat) : (k.setSlot c v).fpEl c i j = k.fpEl c i j := rfl
@[simp] theorem Core.slot_setSlot : (k.setSlot c v).slot c = some v := tabFind_ins_same

@[simp] theorem Core.updMtx_acc : (k.updMtx id f).acc = k.acc := rfl
@[simp] theorem Core.updMtx_well : (k.updMtx id f).well = k.well := rfl
@[simp] theorem Core.updMtx_slots : (k.updMtx id f).slots = k.slots := rfl
@[simp] theorem Core.updMtx_slot : (k.updMtx id f).slot c = k.slot c := rfl
@[simp] theorem Core.updMtx_fpEl (i j : Nat) : (k.updMtx id f).fpEl c i j = k.fpEl c i j := rfl
@[simp] theorem Core.updMtx_wellGet (a n : Nat) : (k.updMtx id f).wellGet a n = k.wellGet a n := rfl

end

/-! ### The elements of an FP32 tile, R119, R124 -/

section
variable {c : AccF} (hc : c.mode ≠ 1)

theorem AccF.mem_cells {e : Nat × Nat} : e ∈ c.cells ↔ e.1 < c.m ∧ e.2 < c.n := by
  obtain ⟨i, j⟩ := e
  simp [AccF.cells]

/-- Two elements of one tile that share a place in it are the same. -/
theorem cell_unique {n i j i' j' : Nat} (hj : j < n) (hj' : j' < n) (h : i * n + j = i' * n + j') : i = i' ∧ j = j' := by
  have hi : i = i' := by
    have := congrArg (· / n) h
    simpa [Nat.mul_add_div (by omega : 0 < n), Nat.mul_comm _ n, Nat.div_eq_of_lt hj, Nat.div_eq_of_lt hj'] using this
  subst hi
  omega

theorem Core.fpEl_setFpEl_same {k : Core} {i j v : Nat} : (k.setFpEl c i j v).fpEl c i j = v % 2 ^ 32 := by
  have hget := storeGet_storePut_same (k := k) (a := c.at i j) (l := toBytes 4 v)
  rw [length_toBytes] at hget
  rw [Core.fpEl, Core.setFpEl, hget, ofBytes_toBytes]

include hc

theorem AccF.at_fp (i j : Nat) : c.at i j = c.abase * 1024 + 4 * (i * c.n + j) := by
  simp [AccF.at, AccF.el, hc]

/-- An element lies within its tile. -/
theorem AccF.at_in_tile {e : Nat × Nat} (he : e ∈ c.cells) :
    c.abase * 1024 ≤ c.at e.1 e.2 ∧ c.at e.1 e.2 + 4 ≤ c.abase * 1024 + c.m * c.n * c.el := by
  obtain ⟨hi, hj⟩ := AccF.mem_cells.1 he
  have hrow : (e.1 + 1) * c.n ≤ c.m * c.n := Nat.mul_le_mul_right _ hi
  rw [Nat.succ_mul] at hrow
  rw [AccF.at_fp hc]
  simp only [AccF.el, hc, if_false]
  omega

theorem Core.fpEl_setFpEl_ne {k : Core} {e e' : Nat × Nat} {v : Nat} (hj : e.2 < c.n) (hj' : e'.2 < c.n) (h : e' ≠ e) :
    (k.setFpEl c e.1 e.2 v).fpEl c e'.1 e'.2 = k.fpEl c e'.1 e'.2 := by
  have hplace : e.1 * c.n + e.2 ≠ e'.1 * c.n + e'.2 := fun heq =>
    h (Prod.ext_iff.2 ((cell_unique hj hj' heq).imp Eq.symm Eq.symm))
  rw [Core.fpEl, Core.setFpEl, storeGet_storePut_off, Core.fpEl]
  rw [AccF.at_fp hc, AccF.at_fp hc, length_toBytes]
  omega

/-- Elements written one after the other: each holds its own value, the others theirs. -/
theorem Core.fpEl_foldl {v : Nat × Nat → Nat} {e : Nat × Nat} (he : e.2 < c.n) {l : List (Nat × Nat)} {k : Core}
    (hl : ∀ x ∈ l, x.2 < c.n) : (l.foldl (fun k x => k.setFpEl c x.1 x.2 (v x)) k).fpEl c e.1 e.2 =
      if e ∈ l then v e % 2 ^ 32 else k.fpEl c e.1 e.2 := by
  induction l generalizing k with
  | nil => simp
  | cons x l ih =>
    rw [List.foldl_cons, ih fun y hy => hl y (List.mem_cons_of_mem x hy)]
    by_cases hmem : e ∈ l
    · simp [hmem]
    · by_cases hx : e = x
      · subst hx
        simp [hmem, fpEl_setFpEl_same]
      · simp [hmem, hx, fpEl_setFpEl_ne hc (hl x List.mem_cons_self) he hx]

/-- Elements of a tile written one after the other leave the store outside the tile as it was. -/
theorem Core.acc_foldl_off {v : Nat × Nat → Nat} {a : Nat}
    (ha : a < c.abase * 1024 ∨ c.abase * 1024 + c.m * c.n * c.el ≤ a) {l : List (Nat × Nat)} {k : Core} (hl : ∀ x ∈ l, x ∈ c.cells) :
    tabGet 0 (l.foldl (fun k x => k.setFpEl c x.1 x.2 (v x)) k).acc a = tabGet 0 k.acc a := by
  induction l generalizing k with
  | nil => rfl
  | cons x l ih =>
    have hx := AccF.at_in_tile hc (hl x List.mem_cons_self)
    rw [List.foldl_cons, ih fun y hy => hl y (List.mem_cons_of_mem x hy), Core.setFpEl, storePut_eq]
    refine tabGet_put_off ?_
    rw [length_toBytes]
    omega

end

end Sys2Proof.Machine
end

section
/-! SUPPORT. The operations of the matrix engine, one by one (R107, R126 to R132): the next state of each under the conditions
in which it does its work, and what that work leaves unchanged of the core. -/

namespace Sys2Proof.Machine

/-! ### What the engine's work leaves unchanged -/

/-- A core that differs in its accumulator store, its slots and its scratchpad alone. -/
def Core.EngineWork (k k' : Core) : Prop := ∃ acc slots well, k' = { k with acc := acc, slots := slots, well := well }

/-- A core that differs in its accumulator store and slots alone. -/
def Core.TileOnly (k k' : Core) : Prop := ∃ acc slots, k' = { k with acc := acc, slots := slots }

/-- A core that differs in its scratchpad alone. -/
def Core.WellOnly (k k' : Core) : Prop := ∃ well, k' = { k with well := well }

section
variable {k k' k'' : Core}

theorem Core.EngineWork.trans (h : k.EngineWork k') (g : k'.EngineWork k'') : k.EngineWork k'' := by
  obtain ⟨_, _, _, rfl⟩ := h
  obtain ⟨_, _, _, rfl⟩ := g
  exact ⟨_, _, _, rfl⟩

theorem Core.EngineWork.queue (h : k.EngineWork k') : k'.queue = k.queue := by
  obtain ⟨_, _, _, rfl⟩ := h
  rfl

theorem Core.TileOnly.refl (k : Core) : k.TileOnly k := ⟨_, _, rfl⟩

theorem Core.TileOnly.trans (h : k.TileOnly k') (g : k'.TileOnly k'') : k.TileOnly k'' := by
  obtain ⟨_, _, rfl⟩ := h
  obtain ⟨_, _, rfl⟩ := g
  exact ⟨_, _, rfl⟩

theorem Core.TileOnly.storePut (a : Nat) (l : List Byte) : k.TileOnly (k.storePut a l) := by
  rw [Core.storePut_eq]
  exact ⟨_, _, rfl⟩

theorem Core.TileOnly.setSlot (c : AccF) (v : Slot) : k.TileOnly (k.setSlot c v) := ⟨_, _, rfl⟩

/-- A fold whose every step leaves the rest of the core alone does so as a whole; it may carry a result along. -/
theorem Core.TileOnly.foldl {α β : Type} {f : Core × β → α → Core × β} (hf : ∀ (r : Core × β) x, r.1.TileOnly (f r x).1)
    (l : List α) (r : Core × β) : r.1.TileOnly (l.foldl f r).1 :=
  List.foldlRecOn (motive := fun q => r.1.TileOnly q.1) l f (.refl _) fun q h x _ => h.trans (hf q x)

theorem Core.TileOnly.well (h : k.TileOnly k') : k'.well = k.well := by
  obtain ⟨_, _, rfl⟩ := h
  rfl

theorem Core.TileOnly.work (h : k.TileOnly k') : k.EngineWork k' := by
  obtain ⟨_, _, rfl⟩ := h
  exact ⟨_, _, _, rfl⟩

theorem Core.WellOnly.refl (k : Core) : k.WellOnly k := ⟨_, rfl⟩

theorem Core.WellOnly.trans (h : k.WellOnly k') (g : k'.WellOnly k'') : k.WellOnly k'' := by
  obtain ⟨_, rfl⟩ := h
  obtain ⟨_, rfl⟩ := g
  exact ⟨_, rfl⟩

theorem Core.WellOnly.wellPut (a : Nat) (l : List Byte) : k.WellOnly (k.wellPut a l) := ⟨_, rfl⟩

theorem Core.WellOnly.store (h : k.WellOnly k') : k'.acc = k.acc ∧ k'.slots = k.slots := by
  obtain ⟨_, rfl⟩ := h
  exact ⟨rfl, rfl⟩

theorem Core.WellOnly.work (h : k.WellOnly k') : k.EngineWork k' := by
  obtain ⟨_, rfl⟩ := h
  exact ⟨_, _, _, rfl⟩

end

/-- Only one core has changed, and of it no register, predicate, program counter or token. -/
def EngineOnly (s : State) (core : Nat) (t : State) : Prop :=
  t = { s with cores := t.cores } ∧ (∀ c, c ≠ core → t.core c = s.core c) ∧ (t.core core).t = (s.core core).t ∧
  (t.core core).p = (s.core core).p ∧ (t.core core).u = (s.core core).u ∧ (t.core core).pc = (s.core core).pc ∧
  (t.core core).tok = (s.core core).tok

/-- The queue is as it was, but that operation `id` stands at step n. -/
def EngineDid (s : State) (core id : Nat) (t : State) (x : MtxOp) (n : Nat) : Prop :=
  (t.core core).queue.map (fun y => (y.id, y.steps)) =
    (updFirst (fun y => y.id == id) (fun y => { y with steps := n }) (s.core core).queue).map (fun y => (y.id, y.steps)) ∧ x.id = id

section
variable {s : State} {core id : Nat} {k' : Core} {f : MtxOp → MtxOp}

theorem EngineOnly.setCore (h : (s.core core).EngineWork k') : EngineOnly s core (s.setCore core (k'.updMtx id f)) := by
  obtain ⟨acc, slots, well, rfl⟩ := h
  refine ⟨rfl, fun c hc => State.core_setCore_ne hc, ?_⟩
  rw [State.core_setCore_same]
  exact ⟨rfl, rfl, rfl, rfl, rfl⟩

/-- An operation found by its number has it. -/
theorem Core.mtx_id {k : Core} {x : MtxOp} (h : k.mtx id = some x) : x.id = id := by
  simpa using List.find?_some h

theorem EngineDid.setCore {x : MtxOp} {n : Nat} (hx : (s.core core).mtx id = some x) (h : (s.core core).EngineWork k')
    (hid : (f x).id = x.id) (hn : (f x).steps = n) : EngineDid s core id (s.setCore core (k'.updMtx id f)) x n := by
  refine ⟨?_, Core.mtx_id hx⟩
  rw [State.core_setCore_same, Core.updMtx, h.queue]
  exact map_updFirst_congr hx (by rw [hid, hn])

end

/-! ### MMA, R127, R130 -/

section
variable {k : Core} {x : MtxOp}

theorem Core.TileOnly.fpStep (q : Nat) : k.TileOnly (k.fpStep x q).1 :=
  .foldl (fun _ _ => .storePut _ _) _ (k, 0)

theorem Core.TileOnly.exactStep (q : Nat) (full : Bool) : k.TileOnly (k.exactStep x q full).1 :=
  .foldl (fun _ _ => .storePut _ _) _ (k, 0, 0, false)

theorem Core.TileOnly.mmaStep (q : Nat) : k.TileOnly (k.mmaStep x q).1 := by
  unfold Core.mmaStep
  split
  · dsimp only
    split
    · exact (TileOnly.exactStep q _).trans (.setSlot _ _)
    · exact .exactStep q _
  · exact .fpStep q

theorem Core.TileOnly.mmaSteps (n : Nat) : ∀ {k : Core} {q st : Nat}, k.TileOnly (k.mmaSteps x q st n).1 := by
  induction n with
  | zero => exact .refl _
  | succ n ih => exact (TileOnly.mmaStep _).trans ih

/-- The elements that a fold over cells gives, the flags it carries along left out. -/
theorem Core.foldl_setFpEl_fst {c : AccF} {r : Nat × Nat → Nat × Nat} {l : List (Nat × Nat)} {z : Nat} :
    (l.foldl (fun (a : Core × Nat) e => (a.1.setFpEl c e.1 e.2 (r e).1, a.2 ||| (r e).2)) (k, z)).1 =
      l.foldl (fun a e => a.setFpEl c e.1 e.2 (r e).1) k :=
  (List.foldl_hom (f := Prod.fst) fun _ _ => rfl).symm

/-- The elements of a plain FP32 tile after each has been given a value. -/
theorem Core.fpEl_cells {c : AccF} (hc : c.mode ≠ 1) {v : Nat × Nat → Nat} {i j : Nat} (hi : i < c.m) (hj : j < c.n) :
    (c.cells.foldl (fun a e => a.setFpEl c e.1 e.2 (v e)) k).fpEl c i j = v (i, j) % 2 ^ 32 := by
  have hmem : (i, j) ∈ c.cells := AccF.mem_cells.2 ⟨hi, hj⟩
  rw [fpEl_foldl hc (e := (i, j)) hj fun e he => (AccF.mem_cells.1 he).2, if_pos hmem]

variable {s : State} {core id steps : Nat}

theorem exec_mma_idle (hx : (s.core core).mtx id = some x)
    (h : x.r.op ≠ 1 ∨ x.started = false ∨ (s.core core).stopped = true ∨ x.finished = true) :
    exec (.mma core id steps) s = .next s := by
  rw [show exec (.mma core id steps) s = execMma core id steps s from rfl]
  simp only [execMma, hx, h, if_true]

theorem exec_mma (hx : (s.core core).mtx id = some x) (hop : x.r.op = 1) (hstart : x.started = true)
    (hgo : (s.core core).stopped = false) (hleft : x.finished = false) : ∃ st st',
    exec (.mma core id steps) s = .next (s.setCore core
      (((s.core core).mmaSteps x x.steps st (min steps (x.total - x.steps))).1.updMtx id
        fun y => { y with steps := y.steps + min steps (x.total - x.steps), status := st' })) := by
  have hwork : ¬(x.r.op ≠ 1 ∨ x.started = false ∨ (s.core core).stopped = true ∨ x.finished = true) := by
    simp [hop, hstart, hgo, hleft]
  rw [show exec (.mma core id steps) s = execMma core id steps s from rfl]
  simp only [execMma, hx, hwork, if_false]
  exact ⟨_, _, rfl⟩

/-- A started operation that is not over has a K-step left. -/
theorem MtxOp.left_of_unfinished (hstart : x.started = true) (hleft : x.finished = false) : x.steps < x.total := by
  simpa [MtxOp.finished, hstart] using hleft

/-- One K-step of an FP32 tile. -/
theorem Core.mmaSteps_one (hc : x.tc.mode ≠ 1) {q st : Nat} : (k.mmaSteps x q st 1).1 =
    x.tc.cells.foldl (fun a e => a.setFpEl x.tc e.1 e.2 (kStep (k.fpEl x.tc e.1 e.2) (k.products x e.1 e.2 q)).1) k := by
  simp only [Core.mmaSteps, Core.mmaStep, hc, if_false, Core.fpStep]
  exact foldl_setFpEl_fst

/-! ### The work of READ, READRAW and LOAD -/

theorem Core.mtxWork_of {op : Nat} (hx : k.mtx id = some x) (hop : x.r.op = op) (hstart : x.started = true) (hnew : x.steps = 0) :
    k.mtxWork id op = some x := by
  simp [Core.mtxWork, hx, hop, hstart, hnew]

/-- An operation whose work is done in one piece leaves the rest of the machine alone. -/
theorem EngineOnly.mtxDid {k' : Core} {st : Nat} (hx : (s.core core).mtx id = some x) (h : (s.core core).EngineWork k') :
    EngineOnly s core (s.mtxDid core k' x st) ∧ EngineDid s core id (s.mtxDid core k' x st) x 1 := by
  rw [State.mtxDid, Core.mtx_id hx]
  exact ⟨.setCore h, .setCore hx h rfl rfl⟩

@[simp] theorem State.core_mtxDid {k' : Core} {st : Nat} : (s.mtxDid core k' x st).core core =
    k'.updMtx x.id fun y => { y with steps := 1, status := st ||| k'.tileStatus x.tc } := State.core_setCore_same

theorem Core.WellOnly.readTile (v : Slot) : k.WellOnly (k.readTile x v).1 :=
  List.foldlRecOn (motive := fun q : Core × Nat × Bool => k.WellOnly q.1) x.tc.cells _ (.refl k)
    fun _ h _ _ => h.trans (.wellPut _ _)

theorem exec_read {v : Slot} (hw : (s.core core).mtxWork id 2 = some x) (hv : (s.core core).slot x.tc = some v) : ∃ st,
    exec (.read core id) s = .next (s.mtxDid core
      (((s.core core).readTile x v).1.setSlot x.tc { v with ovf := v.ovf || ((s.core core).readTile x v).2.2 }) x st) := by
  rw [show exec (.read core id) s = execRead core id s from rfl]
  simp only [execRead, hw, hv]
  exact ⟨_, rfl⟩

/-- The raw records of a tile written to the scratchpad (R131). -/
def Core.rawTile (k : Core) (x : MtxOp) : Core :=
  x.tc.cells.foldl (fun a e => a.wellPut (x.td.base + e.1 * x.td.stride + 32 * e.2) ((k.sumEl x.tc e.1 e.2).raw x.tc.eref)) k

theorem Core.WellOnly.rawTile : k.WellOnly (k.rawTile x) :=
  List.foldlRecOn (motive := fun q => k.WellOnly q) x.tc.cells _ (.refl k) fun _ h _ _ => h.trans (.wellPut _ _)

theorem exec_readraw {v : Slot} (hw : (s.core core).mtxWork id 3 = some x) (hv : (s.core core).slot x.tc = some v) :
    exec (.readraw core id) s = .next (s.mtxDid core (((s.core core).rawTile x).wellPut x.td.sbase v.record) x 0) := by
  rw [show exec (.readraw core id) s = execReadraw core id s from rfl]
  simp only [execReadraw, hw, hv]
  rfl

@[simp] theorem Slot.length_record (v : Slot) : v.record.length = 32 := by simp [Slot.record]

/-- The core that a LOAD leaves (R129, R132). -/
def Core.loaded (k : Core) (x : MtxOp) : Core := if x.ta.kind = 4 then (k.loadRaw x).1 else (k.loadFp x).1

theorem exec_load (hw : (s.core core).mtxWork id 4 = some x) : ∃ st,
    exec (.load core id) s = .next (s.mtxDid core ((s.core core).loaded x) x st) := by
  rw [show exec (.load core id) s = execLoad core id s from rfl]
  by_cases hraw : x.ta.kind = 4
  · simp only [execLoad, hw, hraw, if_true, Core.loaded]
    exact ⟨_, rfl⟩
  · simp only [execLoad, hw, hraw, if_false, Core.loaded]
    exact ⟨_, rfl⟩

theorem Core.TileOnly.loadFp : k.TileOnly (k.loadFp x).1 := by
  unfold Core.loadFp
  dsimp only
  split
  · exact .foldl (fun _ _ => .storePut _ _) _ (k, 0)
  · exact TileOnly.trans (.foldl (fun _ _ => .storePut _ _) _ (k, 0)) (.setSlot _ _)

theorem Core.TileOnly.loadRaw : k.TileOnly (k.loadRaw x).1 := by
  unfold Core.loadRaw
  dsimp only
  split
  · split
    · exact TileOnly.trans (.foldl (fun _ _ => .storePut _ _) _ (k, false)) (.setSlot _ _)
    · exact .refl k
  · refine TileOnly.trans ?_ (.setSlot _ _)
    exact List.foldlRecOn (motive := fun q => k.TileOnly q) x.tc.cells _ (.refl k) fun _ h _ _ => h.trans (.storePut _ _)

theorem Core.TileOnly.loaded : k.TileOnly (k.loaded x) := by
  unfold Core.loaded
  split
  · exact .loadRaw
  · exact .loadFp

/-- A plain FP32 LOAD copies its source bit for bit and opens the slot. -/
theorem Core.loaded_plain (hkind : x.ta.kind ≠ 4) (hadd : x.r.add = false) : k.loaded x =
    (x.tc.cells.foldl (fun a e => a.setFpEl x.tc e.1 e.2 (k.sourceEl x.ta e.1 e.2)) k).setSlot x.tc x.tc.opened := by
  simp only [Core.loaded, hkind, if_false, Core.loadFp, hadd, Bool.false_eq_true]
  rw [foldl_setFpEl_fst (r := fun e => (k.sourceEl x.ta e.1 e.2, 0))]

end

end Sys2Proof.Machine
end

section
/-! SUPPORT. The limiter frame of a half (R138, R466, R470): the levels that its cores take, the beats that fill it, and the
move of the die's level. -/

namespace Sys2Proof

/-- A row of keys written in turn: each reads its own value. -/
theorem tabGet_foldl_set {β : Type} [DecidableEq β] {d : β} {f : Nat → β} {base i : Nat} {t : Tab β} {n : Nat} (hi : i < n) :
    tabGet d ((List.range n).foldl (fun t i => tabSet d t (base + i) (f i)) t) (base + i) = f i := by
  induction n with
  | zero => omega
  | succ n ih =>
    rw [List.range_succ, List.foldl_append, List.foldl_cons, List.foldl_nil]
    by_cases h : i = n
    · rw [h, tabGet_set_same]
    · rw [tabGet_set_ne (by omega), ih (by omega)]

/-- Tests that agree on a list find the same element of it. -/
theorem find?_eq_of_agree {α : Type} {p q : α → Bool} {l : List α} (h : ∀ a ∈ l, p a = q a) : l.find? p = l.find? q := by
  induction l with
  | nil => rfl
  | cons a l ih => rw [List.find?_cons, List.find?_cons, h a List.mem_cons_self, ih fun b hb => h b (List.mem_cons_of_mem a hb)]

end Sys2Proof

namespace Sys2Proof.Machine

/-! ### What a frame's counters leave, R470 -/

/-- Every register below the limiter's counters, and what lies outside the register file, is as it was but for power. -/
structure LimiterKeeps (s t : State) : Prop where
  raw : ∀ off, off < 0x802000 → t.raw off = s.raw off
  boot : t.boot = s.boot
  sp : t.sp = s.sp
  mem : t.mem = s.mem
  cores : t.cores = s.cores

namespace LimiterKeeps

variable {s t u : State}

theorem refl (s : State) : LimiterKeeps s s := ⟨fun _ _ => rfl, rfl, rfl, rfl, rfl⟩

theorem trans (h : LimiterKeeps s t) (g : LimiterKeeps t u) : LimiterKeeps s u :=
  ⟨fun off ho => (g.raw off ho).trans (h.raw off ho), g.boot.trans h.boot, g.sp.trans h.sp, g.mem.trans h.mem, g.cores.trans h.cores⟩

theorem count {f : Fld} (hf : 0x802000 ≤ f.off) (n : Nat) : LimiterKeeps s (s.count f n) :=
  ⟨fun _ ho => State.raw_setRaw_ne (by omega), rfl, rfl, rfl, rfl⟩

theorem power (p : Power) : LimiterKeeps s { s with pow := p } := ⟨fun _ _ => rfl, rfl, rfl, rfl, rfl⟩

variable (h : LimiterKeeps s t)
include h

theorem get {f : Fld} (hf : f.off < 0x802000) : t.get f = s.get f := by
  rw [State.get, State.get, h.raw _ hf]

theorem on {f : Fld} (hf : f.off < 0x802000) : t.on f = s.on f := by
  rw [State.on, State.on, h.get hf]

theorem dieForced {n : Nat} (hn : n < 8) : t.dieForced n = s.dieForced n := by
  have hhot : t.on (F.PW_DIE_STAT_HOT n) = s.on (F.PW_DIE_STAT_HOT n) :=
    h.on (by simp only [F.PW_DIE_STAT_HOT, A.PW_DIE_STAT]; omega)
  simp only [State.dieForced, State.alertForced, hhot, h.boot, h.on (f := F.PW_STAT_VRALERT) (by decide),
    h.on (f := F.PW_STAT_COOLANT) (by decide), h.on (f := F.PW_STAT_VRSTUCK) (by decide)]

theorem level {n : Nat} (hn : n < 8) : t.get (F.PW_DIE_STAT_LEVEL n) = s.get (F.PW_DIE_STAT_LEVEL n) :=
  h.get (by simp only [F.PW_DIE_STAT_LEVEL, A.PW_DIE_STAT]; omega)

theorem leadHalf (n : Nat) : t.leadHalf n = s.leadHalf n := by
  unfold State.leadHalf State.isRetired
  rw [h.sp]

theorem clPart {l : Nat} (hl : l < 128) : t.clPart l = s.clPart l := by
  refine find?_eq_of_agree fun p hp => ?_
  have hp16 := List.mem_range.1 hp
  rw [h.on (f := F.PT_PART_CTL_EN p) (by simp only [F.PT_PART_CTL_EN, A.PT_PART_CTL]; omega),
    h.get (f := F.PT_PART_CL_CLUSTERS p (l / 64)) (by simp only [F.PT_PART_CL_CLUSTERS, A.PT_PART_CL]; omega)]

theorem floor {p : Nat} (hp : p < 16) : t.floor p = s.floor p := by
  rw [State.floor, State.floor, h.get (by simp only [F.PW_PART_FLOOR_FLOOR, A.PW_PART_FLOOR]; omega)]

/-- The floor of a cluster's partition, where one owns it. -/
theorem clFloor {l : Nat} (hl : l < 128) : (t.clPart l).map t.floor = (s.clPart l).map s.floor := by
  rw [h.clPart hl]
  cases hp : s.clPart l with
  | none => rfl
  | some p => simp only [Option.map_some, h.floor (List.mem_range.1 (List.mem_of_find?_eq_some hp))]

theorem levelOf {l : Nat} (hl : l < 128) : t.levelOf l = s.levelOf l := by
  have hn : l / 16 < 8 := by omega
  simp only [State.levelOf, h.level hn, h.dieForced hn, h.clFloor hl,
    h.on (f := F.PW_DIE_STAT_DEGRADED (l / 16)) (by simp only [F.PW_DIE_STAT_DEGRADED, A.PW_DIE_STAT]; omega)]

end LimiterKeeps

/-! ### The frame, R138, R470 -/

section
variable {s : State} {half beats : Nat}

/-- The beats of a frame, filler among them. -/
def State.frameBeats (s : State) (half beats : Nat) : Nat :=
  let b := min beats (s.halfCap half)
  if s.fallStep = 0 ∨ s.dieForced (half / 2) = true then b
  else max b (min (s.halfCap half) (tabGet 0 s.pow.halfBeats half - s.fallStep))

/-- The machine once the frame's throttling and filler are counted. -/
def State.frameCounted (s : State) (half beats : Nat) : State :=
  let n := half / 2
  let t := if (s.halfCores half).any fun c => decide (s.coreLevel c < 64) then s.count (F.PW_THROTTLED_COUNT n) 1 else s
  t.count (F.PW_FILLER_COUNT n) (s.frameBeats half beats - min beats (s.halfCap half))

/-- The machine once the half has taken its levels. -/
def State.frameTaken (s : State) (half beats : Nat) : State :=
  let t := s.frameCounted half beats
  ({ t with pow := { t.pow with halfBeats := tabSet 0 t.pow.halfBeats half (s.frameBeats half beats) } } : State).takeLevels half

theorem exec_limiterFrameBoundary (hhalf : half < 16) (hrun : s.running = true) (hclk : s.clockStopped (half / 2) = false) :
    exec (.limiterFrameBoundary half beats) s = .next (if half = (s.frameTaken half beats).leadHalf (half / 2) then
      (s.frameTaken half beats).levelMove (half / 2) else s.frameTaken half beats) := by
  have hgo : ¬(16 ≤ half ∨ s.running = false ∨ s.clockStopped (half / 2) = true) := by simp [hhalf, hrun, hclk]
  rw [show exec (.limiterFrameBoundary half beats) s = execLimiterFrameBoundary half beats s from rfl]
  simp only [execLimiterFrameBoundary, hgo, if_false]
  rfl

/-- Filler never takes a frame beyond what the cores of the half may issue. -/
theorem State.frameBeats_bounds :
    min beats (s.halfCap half) ≤ s.frameBeats half beats ∧ s.frameBeats half beats ≤ s.halfCap half := by
  simp only [State.frameBeats]
  split <;> omega

theorem State.frameBeats_noFiller (h : s.get F.PW_CTL_FALLSTEP = 0 ∨ s.dieForced (half / 2) = true) :
    s.frameBeats half beats = min beats (s.halfCap half) := by
  have hwhen : s.fallStep = 0 ∨ s.dieForced (half / 2) = true := h.imp_left fun h0 => by simp [State.fallStep, h0]
  simp only [State.frameBeats, hwhen, if_true]

theorem State.frameCounted_keeps : LimiterKeeps s (s.frameCounted half beats) := by
  unfold State.frameCounted
  refine .trans (?_ : LimiterKeeps s _) (.count (by simp only [F.PW_FILLER_COUNT, A.PW_FILLER]; omega) _)
  split
  · exact .count (by simp only [F.PW_THROTTLED_COUNT, A.PW_THROTTLED]; omega) _
  · exact .refl s

theorem State.frameCounted_pow : (s.frameCounted half beats).pow = s.pow := by
  unfold State.frameCounted
  dsimp only
  rw [State.count_pow]
  split
  · exact State.count_pow _ _ _
  · rfl

theorem State.takeLevels_tgt : (s.takeLevels half).pow.tgt = s.pow.tgt := rfl

theorem State.takeLevels_halfBeats : (s.takeLevels half).pow.halfBeats = s.pow.halfBeats := rfl

theorem LimiterKeeps.takeLevels : LimiterKeeps s (s.takeLevels half) := .power _

theorem State.frameTaken_keeps : LimiterKeeps s (s.frameTaken half beats) := by
  rw [State.frameTaken]
  exact (frameCounted_keeps.trans (.power _)).trans .takeLevels

theorem State.frameTaken_halfBeats : tabGet 0 (s.frameTaken half beats).pow.halfBeats half = s.frameBeats half beats := by
  rw [State.frameTaken, takeLevels_halfBeats]
  exact tabGet_set_same

theorem State.frameTaken_tgt : (s.frameTaken half beats).pow.tgt = s.pow.tgt := by
  rw [State.frameTaken, takeLevels_tgt]
  dsimp only
  rw [frameCounted_pow]

/-- Every core of the half has the level that its cluster takes from the state before the frame's end. -/
theorem State.frameTaken_coreLevel (hhalf : half < 16) {i c : Nat} (hi : i < 8) (hc : c / 8 = 8 * half + i) :
    (s.frameTaken half beats).coreLevel c = s.levelOf (8 * half + i) := by
  rw [State.coreLevel, hc, State.frameTaken, State.takeLevels]
  dsimp only
  rw [tabGet_set_ne (by omega), tabGet_foldl_set (f := fun i => State.levelOf _ (8 * half + i)) hi]
  exact (frameCounted_keeps.trans (.power _)).levelOf (by omega)

theorem State.levelMove_rest (s : State) (n : Nat) :
    (s.levelMove n).mem = s.mem ∧ (s.levelMove n).cores = s.cores ∧ (s.levelMove n).pow = s.pow :=
  ⟨State.set_mem s _ _, State.set_cores s _ _, State.set_pow s _ _⟩

/-- Outside the forced states a die's level moves by at most 8. -/
theorem State.levelMove_step {n : Nat} (hforced : s.dieForced n = false) (htgt : tabGet 64 s.pow.tgt n ≤ 64) :
    (s.levelMove n).get (F.PW_DIE_STAT_LEVEL n) ≤ s.get (F.PW_DIE_STAT_LEVEL n) + 8 ∧
    s.get (F.PW_DIE_STAT_LEVEL n) ≤ (s.levelMove n).get (F.PW_DIE_STAT_LEVEL n) + 8 := by
  have hlt : s.get (F.PW_DIE_STAT_LEVEL n) < 128 := bits_lt _ 22 16
  have hget (v : Nat) : (s.set (F.PW_DIE_STAT_LEVEL n) v).get (F.PW_DIE_STAT_LEVEL n) = v % 128 :=
    State.get_set_same (f := F.PW_DIE_STAT_LEVEL n) (by simp [F.PW_DIE_STAT_LEVEL]) (by simp [F.PW_DIE_STAT_LEVEL])
  rw [State.levelMove, hget]
  simp only [hforced, Bool.false_eq_true, if_false]
  split <;> omega

end

end Sys2Proof.Machine
end

section
/-! SUPPORT. What each row of the matrix engine and the limiter leaves (R127 to R132, R138, R466, R470), from its next state and
the frame of its work. -/

namespace Sys2Proof.Machine

section
variable {s : State} {core id : Nat} {x : MtxOp}

/-- An MMA that is under way performs its K-steps; of an FP32 tile, one K-step gives every element its exact sum, rounded (R127,
R130). -/
theorem mma_performs (hx : (s.core core).mtx id = some x) (hop : x.r.op = 1) (hstart : x.started = true)
    (hgo : (s.core core).stopped = false) (hleft : x.finished = false) (steps : Nat) :
    After (.mma core id steps) s fun t => EngineOnly s core t ∧
      EngineDid s core id t x (x.steps + min steps (x.total - x.steps)) ∧ (t.core core).well = (s.core core).well ∧
      (x.tc.mode ≠ 1 → steps = 1 → (∀ i j, i < x.tc.m → j < x.tc.n → (t.core core).fpEl x.tc i j =
          (kStep ((s.core core).fpEl x.tc i j) ((s.core core).products x i j x.steps)).1 % 2 ^ 32) ∧
        (∀ a, a < x.tile.1 ∨ x.tile.1 + x.tile.2 ≤ a → tabGet 0 (t.core core).acc a = tabGet 0 (s.core core).acc a)) := by
  obtain ⟨st, st', hexec⟩ := exec_mma (steps := steps) hx hop hstart hgo hleft
  have htile : (s.core core).TileOnly ((s.core core).mmaSteps x x.steps st (min steps (x.total - x.steps))).1 := .mmaSteps _
  have hlt := MtxOp.left_of_unfinished hstart hleft
  refine ⟨_, hexec, .setCore htile.work, .setCore hx htile.work rfl rfl, ?_, fun hc hone => ?_⟩
  · simp [htile.well]
  · subst hone
    simp only [State.core_setCore_same, Core.updMtx_fpEl, Core.updMtx_acc, show min 1 (x.total - x.steps) = 1 by omega,
      Core.mmaSteps_one hc]
    exact ⟨fun i j hi hj => Core.fpEl_cells hc
        (v := fun e => (kStep ((s.core core).fpEl x.tc e.1 e.2) ((s.core core).products x e.1 e.2 x.steps)).1) hi hj,
      fun a ha => Core.acc_foldl_off hc ha fun _ h => h⟩

variable (hx : (s.core core).mtx id = some x) (hstart : x.started = true) (hnew : x.steps = 0)
include hx hstart hnew

/-- A READ writes the converted elements and sets OVF of the slot (R128). -/
theorem read_writes {v : Slot} (hop : x.r.op = 2) (hv : (s.core core).slot x.tc = some v) :
    After (.read core id) s fun t => EngineOnly s core t ∧ EngineDid s core id t x 1 ∧ (t.core core).acc = (s.core core).acc ∧
      (t.core core).well = ((s.core core).readTile x v).1.well ∧
      (t.core core).slot x.tc = some { v with ovf := v.ovf || ((s.core core).readTile x v).2.2 } := by
  obtain ⟨st, hexec⟩ := exec_read (Core.mtxWork_of hx hop hstart hnew) hv
  have hread := Core.WellOnly.readTile (k := s.core core) (x := x) v
  obtain ⟨honly, hdid⟩ := EngineOnly.mtxDid (st := st) hx (hread.work.trans (Core.TileOnly.setSlot x.tc _).work)
  refine ⟨_, hexec, honly, hdid, ?_⟩
  simp [hread.store.1]

/-- A READRAW writes the raw records, and the status record of the slot (R126, R131). -/
theorem readraw_writes {v : Slot} (hop : x.r.op = 3) (hv : (s.core core).slot x.tc = some v) :
    After (.readraw core id) s fun t => EngineOnly s core t ∧ EngineDid s core id t x 1 ∧ (t.core core).acc = (s.core core).acc ∧
      (t.core core).slots = (s.core core).slots ∧ (t.core core).wellGet x.td.sbase 32 = v.record := by
  have hexec := exec_readraw (Core.mtxWork_of hx hop hstart hnew) hv
  have hget := Core.wellGet_wellPut_same (k := (s.core core).rawTile x) (a := x.td.sbase) (l := v.record)
  have hraw := (Core.WellOnly.rawTile (k := s.core core) (x := x)).trans (.wellPut x.td.sbase v.record)
  obtain ⟨honly, hdid⟩ := EngineOnly.mtxDid (st := 0) hx hraw.work
  refine ⟨_, hexec, honly, hdid, ?_⟩
  rw [Slot.length_record] at hget
  simp [hraw.store, hget]

/-- A LOAD writes the tile; a plain one of FP32 values copies them bit for bit and opens the slot (R129). -/
theorem load_writes (hop : x.r.op = 4) : After (.load core id) s fun t => EngineOnly s core t ∧ EngineDid s core id t x 1 ∧
    (t.core core).well = (s.core core).well ∧
    (x.ta.kind ≠ 4 → x.tc.mode ≠ 1 → x.r.add = false →
      (t.core core).slot x.tc = some x.tc.opened ∧ x.tc.opened.tset = false ∧
      ∀ i j, i < x.tc.m → j < x.tc.n → (t.core core).fpEl x.tc i j = (s.core core).sourceEl x.ta i j % 2 ^ 32) := by
  obtain ⟨st, hexec⟩ := exec_load (Core.mtxWork_of hx hop hstart hnew)
  have htile : (s.core core).TileOnly ((s.core core).loaded x) := .loaded
  obtain ⟨honly, hdid⟩ := EngineOnly.mtxDid (st := st) hx htile.work
  refine ⟨_, hexec, honly, hdid, ?_⟩
  simp only [State.core_mtxDid, Core.updMtx_well, Core.updMtx_slot, Core.updMtx_fpEl]
  refine ⟨htile.well, fun hkind hmode hadd => ?_⟩
  rw [Core.loaded_plain hkind hadd]
  refine ⟨Core.slot_setSlot _ _ _, rfl, fun i j hi hj => ?_⟩
  rw [Core.setSlot_fpEl]
  exact Core.fpEl_cells hmode (v := fun e => (s.core core).sourceEl x.ta e.1 e.2) hi hj

end

/-- The boundary of a limiter frame (R138, R466, R470). -/
theorem limiterFrame_ends {s : State} {half : Nat} (beats : Nat) (hhalf : half < 16) (hrun : s.running = true)
    (hclk : s.clockStopped (half / 2) = false) : After (.limiterFrameBoundary half beats) s fun t =>
      t.mem = s.mem ∧ t.cores = s.cores ∧
      (∀ i, i < 8 → ∀ c, c / 8 = 8 * half + i → t.coreLevel c = s.levelOf (8 * half + i)) ∧
      tabGet 0 t.pow.halfBeats half = s.frameBeats half beats ∧
      (half ≠ s.leadHalf (half / 2) → t.get (F.PW_DIE_STAT_LEVEL (half / 2)) = s.get (F.PW_DIE_STAT_LEVEL (half / 2))) ∧
      (half = s.leadHalf (half / 2) → s.dieForced (half / 2) = false → tabGet 64 s.pow.tgt (half / 2) ≤ 64 →
        t.get (F.PW_DIE_STAT_LEVEL (half / 2)) ≤ s.get (F.PW_DIE_STAT_LEVEL (half / 2)) + 8 ∧
        s.get (F.PW_DIE_STAT_LEVEL (half / 2)) ≤ t.get (F.PW_DIE_STAT_LEVEL (half / 2)) + 8) := by
  have hn : half / 2 < 8 := by omega
  have hkeep : LimiterKeeps s (s.frameTaken half beats) := State.frameTaken_keeps
  have hlevels := @State.frameTaken_coreLevel s half beats hhalf
  have hbeats := @State.frameTaken_halfBeats s half beats
  have htgt := @State.frameTaken_tgt s half beats
  have hexec := exec_limiterFrameBoundary (beats := beats) hhalf hrun hclk
  rw [hkeep.leadHalf] at hexec
  refine ⟨_, hexec, ?_⟩
  generalize s.frameTaken half beats = u at hkeep hlevels hbeats htgt
  by_cases hlead : half = s.leadHalf (half / 2)
  · obtain ⟨hmem, hcores, hpow⟩ := State.levelMove_rest u (half / 2)
    rw [if_pos hlead, hmem, hcores, hpow]
    refine ⟨hkeep.mem, hkeep.cores, fun i hi c hc => ?_, hbeats, fun h => absurd hlead h, fun _ hforced htgt64 => ?_⟩
    · rw [← hlevels hi hc, State.coreLevel, hpow, State.coreLevel]
    · rw [← hkeep.level hn]
      exact State.levelMove_step ((hkeep.dieForced hn).trans hforced) (htgt ▸ htgt64)
  · rw [if_neg hlead]
    exact ⟨hkeep.mem, hkeep.cores, fun i hi c hc => hlevels hi hc, hbeats, fun _ => hkeep.level hn, fun h => absurd h hlead⟩

/-- Settles O33: each operation of the engine does its work and leaves the rest, and a frame's end fills, sets and moves levels. -/
theorem matrixWork : Obligations.MatrixWork := by
  unfold Obligations.MatrixWork
  intro s core id
  refine ⟨fun x steps hx hop hstart hgo hleft => mma_performs hx hop hstart hgo hleft steps,
    fun x steps hx h => exec_mma_idle hx h, fun x v hx hop hstart hnew hv => read_writes hx hstart hnew hop hv,
    fun x v hx hop hstart hnew hv => readraw_writes hx hstart hnew hop hv,
    fun x hx hop hstart hnew => load_writes hx hstart hnew hop, fun half beats hhalf hrun hclk => ?_⟩
  obtain ⟨t, hexec, hmem, hcores, hlevels, hbeats, hstay, hmove⟩ := limiterFrame_ends beats hhalf hrun hclk
  refine ⟨t, hexec, hmem, hcores, hlevels, fun hfall => ?_, ?_, fun hforced => ?_, hstay, hmove⟩
  · rw [hbeats, State.frameBeats_noFiller (.inl hfall)]
  · rw [hbeats]
    exact State.frameBeats_bounds
  · rw [hbeats, State.frameBeats_noFiller (.inr hforced)]

end Sys2Proof.Machine
end

section
/-! SUPPORT. The life of an operation in the matrix engine's queue (R102 to R108, R125, R144): its issue, the wait for tokens,
its start and its completion. -/

namespace Sys2Proof

/-- A key that no entry of the rest has reads as unlisted. -/
theorem tabGet_filter_none {β : Type} {d : β} {f : Nat × β → Bool} {t : Tab β} {i : Nat} (h : ∀ v, f (i, v) = false) :
    tabGet d (t.filter f) i = d := by
  induction t with
  | nil => rfl
  | cons e t ih =>
    obtain ⟨j, v⟩ := e
    cases hf : f (j, v) with
    | false => simpa [List.filter_cons, hf] using ih
    | true =>
      have hne : i ≠ j := by
        rintro rfl
        simp [h v] at hf
      simpa [List.filter_cons, hf, tabGet, hne] using ih

end Sys2Proof

namespace Sys2Proof.Machine

/-! ### Tokens, R105, R106 -/

section
variable {k : Core} {g r g' r' : Nat} {v : Tok}

@[simp] theorem Core.token_setToken_same : (k.setToken g r v).token g r = v := tabGet_set_same

/-- A group has 16 tokens, so that a write of one leaves every other as it was. -/
theorem Core.token_setToken_ne (hr : r < 16) (hr' : r' < 16) (h : ¬(g' = g ∧ r' = r)) :
    (k.setToken g r v).token g' r' = k.token g' r' :=
  tabGet_set_ne (by omega)

end

theorem dstOk_token {k n i : Nat} (h : dstOk 5 k i n = true) : i < 16 := by
  simp [dstOk] at h
  omega

theorem dstOk_uniform {k n i : Nat} (h : dstOk 2 k i n = true) : i < 64 := by
  simp [dstOk] at h
  omega

section
variable {s : State} {at' : Issue} {w : BitVec 128} {o : Op}

/-- MISSUE names one of the 16 tokens (R203). -/
theorem Issues.missue_token (h : Issues s 9 0x01 at' w o) : wD o.w < 16 :=
  dstOk_token (h.dstOk (by decide) rfl)

/-- MWAIT names one of the 64 uniform registers (R203). -/
theorem Issues.mwait_uniform (h : Issues s 9 0x02 at' w o) : wD o.w < 64 :=
  dstOk_uniform (h.dstOk (by decide) rfl)

/-! ### The end of an instruction on its core, R181 -/

/-- The core that an instruction ends with is the one it made, its program counters moved on and its issue counted. -/
theorem State.core_done {k : Core} (hn : o.all.Nodup) (hpc : k.pc = (s.core o.core).pc) :
    let k' := (s.done o k).core o.core
    k' = { k with pc := k'.pc, turns := k'.turns, lastTurn := k'.lastTurn } ∧ Moved o (s.core o.core) k' := by
  have hcore : (s.done o k).core o.core = (k.advance o.all).counted o.group o.all := State.core_setCore_same
  refine ⟨?_, fun th => ?_⟩
  · rw [hcore, Core.advance_keep]
    rfl
  · rw [hcore]
    refine (Core.thPc_advance (k := k) hn).trans ?_
    simp only [Core.thPc, hpc]

/-! ### Issue, R102 to R106, R143 -/

theorem issueOff_eq (k : Core) : issueOff o k = (k.ureg o.group (wA o.w)).toNat % 2 ^ 20 := by
  simp [issueOff, bits]

/-- The core with an issued operation at the end of its queue and the operation's token in flight. -/
def Core.joined (o : Op) (k : Core) (id : Nat) : Core :=
  { k with queue := k.queue ++ [mtxOp o k id (issueOff o k)] }.setToken o.group (wD o.w) ⟨true, 0⟩

theorem exec_missue (h : Issues s 9 0x01 at' w o) : exec (.missue at' w) s = .next (s.mIssue o) :=
  congrArg Host.Outcome.next (State.instr_of_issues h)

theorem State.mIssue_inFlight (htok : ((s.core o.core).token o.group (wD o.w)).inFlight = true) : s.mIssue o = s := by
  simp only [State.mIssue, htok, if_true]

section
variable (htok : ((s.core o.core).token o.group (wD o.w)).inFlight = false)
include htok

theorem State.mIssue_faults {c : Nat} (hcode : issueCode (s.core o.core) (issueOff o (s.core o.core)) = some c) :
    s.mIssue o = s.raiseOp o c { extra := [o.core, issueOff o (s.core o.core)] } := by
  simp only [State.mIssue, htok, Bool.false_eq_true, if_false, hcode]

variable (hcode : issueCode (s.core o.core) (issueOff o (s.core o.core)) = none)
include hcode

theorem State.mIssue_full (hfull : 32 ≤ (s.core o.core).queue.length) : s.mIssue o = s := by
  simp only [State.mIssue, htok, Bool.false_eq_true, if_false, hcode, hfull, if_true]

theorem State.mIssue_joins (hroom : (s.core o.core).queue.length < 32) :
    s.mIssue o = s.tick.2.done o (Core.joined o (s.core o.core) s.tick.1) := by
  simp only [State.mIssue, htok, Bool.false_eq_true, if_false, hcode, Nat.not_le.mpr hroom]
  rfl

end

/-- An issue that finds its token idle, no fault and room adds the operation to the queue and takes the token (R102 to R105). -/
theorem missue_joins (h : Issues s 9 0x01 at' w o) (htok : ((s.core o.core).token o.group (wD o.w)).inFlight = false)
    (hcode : issueCode (s.core o.core) (issueOff o (s.core o.core)) = none) (hroom : (s.core o.core).queue.length < 32) :
    let k := s.core o.core
    After (.missue at' w) s fun t =>
      t.mem = s.mem ∧ t.regs = s.regs ∧ Moved o k (t.core o.core) ∧ (t.core o.core).t = k.t ∧ (t.core o.core).well = k.well ∧
      (t.core o.core).token o.group (wD o.w) = ⟨true, 0⟩ ∧
      (∀ g r, r < 16 → ¬(g = o.group ∧ r = wD o.w) → (t.core o.core).token g r = k.token g r) ∧
      (t.core o.core).queue = k.queue ++ [mtxOp o k s.tick.1 (issueOff o k)] := by
  intro k
  refine ⟨_, (exec_missue h).trans (congrArg Host.Outcome.next (State.mIssue_joins htok hcode hroom)), rfl, rfl, ?_⟩
  obtain ⟨hkeep, hmoved⟩ := State.core_done (s := s.tick.2) (o := o) (k := Core.joined o k s.tick.1) h.nodup.1 rfl
  have htaken (g r : Nat) : ((s.tick.2.done o (Core.joined o k s.tick.1)).core o.core).token g r =
      (k.setToken o.group (wD o.w) ⟨true, 0⟩).token g r := by
    rw [hkeep]
    rfl
  refine ⟨hmoved, by rw [hkeep]; rfl, by rw [hkeep]; rfl, ?_, fun g r hr hne => ?_, by rw [hkeep]; rfl⟩
  · exact (htaken _ _).trans Core.token_setToken_same
  · exact (htaken g r).trans (Core.token_setToken_ne h.missue_token hr hne)

/-! ### Wait, R106, R107 -/

theorem exec_mwait (h : Issues s 9 0x02 at' w o) : exec (.mwait at' w) s = .next (s.mWait o) :=
  congrArg Host.Outcome.next (State.instr_of_issues h)

theorem maskTokens_eq (m : Nat) : maskTokens m = (List.range 16).filter fun i => m.testBit i :=
  List.filter_congr fun i _ => bit_eq_testBit m i

/-- The tokens that MWAIT names. -/
def mwaitToks (o : Op) (k : Core) : List Tok := (maskTokens (wImm o.w)).map fun i => k.token o.group i

theorem State.mWait_inFlight (h : ∃ t ∈ mwaitToks o (s.core o.core), t.inFlight = true) : s.mWait o = s :=
  if_pos (List.any_eq_true.mpr h)

theorem State.mWait_idle (h : ∀ t ∈ mwaitToks o (s.core o.core), t.inFlight = false) :
    s.mWait o = s.done o ((s.core o.core).setUreg o.group (wD o.w)
      ((mwaitToks o (s.core o.core)).foldl (fun a t => a ||| t.status) 0)) :=
  if_neg (by simpa [mwaitToks] using h)

/-- Idle tokens give the OR of their status words. -/
theorem mwait_writes (h : Issues s 9 0x02 at' w o) (hidle : ∀ t ∈ mwaitToks o (s.core o.core), t.inFlight = false) :
    After (.mwait at' w) s (WritesUniform o
      (BitVec.ofNat 64 ((mwaitToks o (s.core o.core)).foldl (fun a t => a ||| t.status) 0)) s) :=
  ⟨_, (exec_mwait h).trans (congrArg Host.Outcome.next (State.mWait_idle hidle)),
    State.uniform_writes h.nodup.1 h.mwait_uniform⟩

end

/-! ### Start, R108, R125, R144 -/

section
variable {k : Core} {x : MtxOp}

theorem Core.TileOnly.mmaOpen : k.TileOnly (k.mmaOpen x) := by
  unfold Core.mmaOpen
  dsimp only
  split
  · exact ⟨_, _, rfl⟩
  · split
    · split
      · exact .refl k
      · exact .setSlot _ _
    · exact .refl k

/-- CLEAR opens the slot with its counts at 0. -/
theorem Core.slot_mmaOpen_clear (h : x.r.clear = true) :
    ∃ v, (k.mmaOpen x).slot x.tc = some v ∧ v.tset = true ∧ v.ufcnt = 0 ∧ v.pcnt = 0 := by
  refine ⟨{ x.tc.opened with tset := true, ta := x.ta.tensor, tb := x.tb.tensor }, ?_, rfl, rfl, rfl⟩
  simp only [Core.mmaOpen, h, if_true]
  exact Core.slot_setSlot k x.tc _

/-- CLEAR starts the tile from zero. -/
theorem Core.acc_mmaOpen_clear (h : x.r.clear = true) {a : Nat} (hlo : x.tile.1 ≤ a) (hhi : a < x.tile.1 + x.tile.2) :
    tabGet 0 (k.mmaOpen x).acc a = 0 := by
  simp only [Core.mmaOpen, h, if_true]
  exact tabGet_filter_none fun _ => by simp [hlo, hhi]

/-- The core once an accepted operation has opened its tile: an MMA alone does. -/
def Core.opened (k : Core) (x : MtxOp) : Core := if x.r.op = 1 then k.mmaOpen x else k

theorem Core.TileOnly.opened : k.TileOnly (k.opened x) := by
  unfold Core.opened
  split
  · exact .mmaOpen
  · exact .refl k

end

section
variable {s : State} {core id : Nat} {x : MtxOp} (hx : (s.core core).mtx id = some x)
include hx

/-- What the start of an operation of the queue answers. -/
theorem exec_mtxOperationStart :
    exec (.mtxOperationStart core id) s = .next (
      let k := s.core core
      let before := (k.queue.takeWhile fun e => e.id != id).reverse
      if k.stopped = true ∨ x.started = true ∨ before.any (fun e => !e.started) = true ∨ x.mayStart before = false then s
      else
        match lowest (k.startCodes x) with
        | some c => s.mtxFault core x c
        | none => s.setCore core ((k.opened x).updMtx id fun x => { x with started := true })) := by
  change execMtxOperationStart core id s = _
  simp only [execMtxOperationStart, hx]
  rfl

omit hx in
/-- A start that raises no code marks the operation, and an MMA opens its tile. -/
theorem mtxOperationStart_starts
    (hexec : exec (.mtxOperationStart core id) s =
      .next (s.setCore core (((s.core core).opened x).updMtx id fun x => { x with started := true }))) :
    let k := s.core core
    After (.mtxOperationStart core id) s fun t => ∃ k', t = s.setCore core k' ∧
      k'.queue = updFirst (fun x => x.id == id) (fun x => { x with started := true }) k.queue ∧ k'.t = k.t ∧ k'.well = k.well ∧
      k'.tok = k.tok ∧ (x.r.op ≠ 1 → k'.acc = k.acc ∧ k'.slots = k.slots) ∧
      (x.r.op = 1 → x.r.clear = true → ∃ v, k'.slot x.tc = some v ∧ v.tset = true ∧ v.ufcnt = 0 ∧ v.pcnt = 0 ∧
        ∀ a, x.tile.1 ≤ a → a < x.tile.1 + x.tile.2 → tabGet 0 k'.acc a = 0) := by
  intro k
  refine ⟨_, hexec, _, rfl, ?queue, ?regs, ?well, ?tok, ?others, ?clear⟩
  case others =>
    intro hop
    simp only [Core.updMtx_acc, Core.updMtx_slots, Core.opened, hop, if_false, and_self, k]
  case clear =>
    intro hop hclear
    obtain ⟨v, hv, hset, huf, hp⟩ := Core.slot_mmaOpen_clear (k := k) hclear
    simp only [Core.updMtx_acc, Core.updMtx_slot, Core.opened, hop, if_true]
    exact ⟨v, hv, hset, huf, hp, fun a hlo hhi => Core.acc_mmaOpen_clear hclear hlo hhi⟩
  all_goals
    obtain ⟨_, _, hopened⟩ := Core.TileOnly.opened (k := k) (x := x)
    rw [hopened]
    rfl

/-! ### Completion, R106 -/

/-- A finished operation leaves the queue, and its token becomes idle with its status word. -/
theorem exec_mtxOperationComplete :
    exec (.mtxOperationComplete core id) s = .next (if x.finished = true then
      s.setCore core ({ s.core core with queue := dropFirst (fun e => e.id == id) (s.core core).queue }.setToken
        x.group x.kd ⟨false, x.status⟩) else s) := by
  change execMtxOperationComplete core id s = _
  simp only [execMtxOperationComplete, hx]

end

/-- Settles O32: each row of an operation's life by what it answers. That operations start in the order of the queue is the
model's choice (log 106). -/
theorem matrixIssueAndCompletion : Obligations.MatrixIssueAndCompletion := by
  intro s at' w o
  refine ⟨⟨fun h => ?missue, fun h => ?mwait⟩, fun core id x hx => ⟨?waits, ?starts, ?completes, ?unfinished⟩⟩
  case missue =>
    rw [exec_missue h, ← issueOff_eq]
    refine ⟨fun htok => ?_, fun c htok hcode => ?_, fun htok hcode hfull => ?_, fun htok hcode hroom => ?_⟩
    · rw [State.mIssue_inFlight htok]
    · rw [State.mIssue_faults htok hcode]
    · rw [State.mIssue_full htok hcode hfull]
    · obtain ⟨t, hexec, hmem, hregs, hmoved, ht, hwell, htaken, hothers, hqueue⟩ := missue_joins h htok hcode hroom
      exact ⟨t, hexec, hmem, hregs, hmoved, ht, hwell, htaken, hothers, _, hqueue, rfl, rfl, rfl, rfl, rfl, rfl⟩
  case mwait =>
    rw [← maskTokens_eq]
    refine ⟨fun hbusy => ?_, fun hidle => mwait_writes h hidle⟩
    rw [exec_mwait h, State.mWait_inFlight hbusy]
  case waits =>
    intro hwait
    rw [exec_mtxOperationStart hx]
    exact congrArg Host.Outcome.next (if_pos hwait)
  case starts =>
    intro hstop hnew horder hmay
    have hgo : ¬((s.core core).stopped = true ∨ x.started = true ∨
        ((s.core core).queue.takeWhile fun e => e.id != id).reverse.any (fun e => !e.started) = true ∨
        x.mayStart ((s.core core).queue.takeWhile fun e => e.id != id).reverse = false) := by
      simp only [hstop, hnew, horder, hmay, Bool.false_eq_true, Bool.true_eq_false, or_self, not_false_eq_true]
    have hexec := exec_mtxOperationStart hx
    dsimp only at hexec
    rw [if_neg hgo] at hexec
    refine ⟨fun c hcode => ?_, fun hcode => mtxOperationStart_starts ?_⟩
    · rw [hexec, hcode]
    · rw [hexec, hcode]
  case completes =>
    intro hfin
    refine ⟨_, (exec_mtxOperationComplete hx).trans (congrArg Host.Outcome.next (if_pos hfin)), _, rfl, rfl, ?_, rfl⟩
    exact Core.token_setToken_same
  case unfinished =>
    intro hunfin
    rw [exec_mtxOperationComplete hx, if_neg (by simp [hunfin])]

end Sys2Proof.Machine
end

section
/-! SUPPORT. Core blocks (R109, R151 to R155, R168, R209, R256, R564): the launch state that a core starts with, the dispatch
to a list of cores, and the end of a block and of its launch. -/

namespace Sys2Proof

/-- The first accepted element of a list is still found there once it has changed, where the test accepts it still. -/
theorem find?_updFirst {α : Type} {p : α → Bool} {f : α → α} {x : α} {l : List α} (h : l.find? p = some x) (hp : p (f x) = true) :
    (updFirst p f l).find? p = some (f x) := by
  induction l with
  | nil => simp at h
  | cons a l ih =>
    cases ha : p a with
    | false =>
      have htail : l.find? p = some x := by simpa [ha] using h
      simp [updFirst, ha, ih htail]
    | true =>
      obtain rfl : a = x := by simpa [ha] using h
      simp [updFirst, ha, hp]

/-- A row of keys written in turn leaves every other key as it was. -/
theorem tabGet_foldl_set_off {β : Type} [DecidableEq β] {d : β} {f : Nat → β} {base i n : Nat} {t : Tab β}
    (hi : i < base ∨ base + n ≤ i) :
    tabGet d ((List.range n).foldl (fun t i => tabSet d t (base + i) (f i)) t) i = tabGet d t i := by
  induction n with
  | zero => rfl
  | succ n ih => rw [List.range_succ, List.foldl_append, List.foldl_cons, List.foldl_nil, tabGet_set_ne (by omega), ih (by omega)]

end Sys2Proof

namespace Sys2Proof.Machine

/-! ### The launch state of a core, R154 -/

/-- t0 holds the thread's index, t1 the block's, and every other register 0. -/
theorem tabGet_startRegs {index n th r : Nat} (hr : r < 256) : tabGet 0 (startRegs index n) (th * 256 + r) =
    if th < n ∧ r = 0 then BitVec.ofNat 32 th else if th < n ∧ r = 1 then BitVec.ofNat 32 index else 0 := by
  induction n with
  | zero => rfl
  | succ n ih =>
    rw [startRegs]
    by_cases h1 : th * 256 + r = n * 256 + 1
    · obtain ⟨rfl, rfl⟩ : th = n ∧ r = 1 := by omega
      simp
    · rw [tabGet_set_ne h1]
      by_cases h0 : th * 256 + r = n * 256
      · obtain ⟨rfl, rfl⟩ : th = n ∧ r = 0 := by omega
        simp
      · rw [tabGet_set_ne h0, ih]
        have hth0 : (th < n + 1 ∧ r = 0) ↔ (th < n ∧ r = 0) := by omega
        have hth1 : (th < n + 1 ∧ r = 1) ↔ (th < n ∧ r = 1) := by omega
        simp only [hth0, hth1]

theorem startUnis_succ (args : List Byte) (n : Nat) : startUnis args (n + 1) =
    (List.range 16).foldl (fun t i => tabSet 0 t (n * 64 + i) (BitVec.ofNat 64 (bytesAt args (8 * i) 8))) (startUnis args n) := by
  rw [startUnis, List.range_succ (n := n), List.foldl_append, List.foldl_cons, List.foldl_nil]
  rfl

/-- u0 to u15 of every group hold the argument block, and every other uniform register 0. -/
theorem tabGet_startUnis {args : List Byte} {n g r : Nat} (hr : r < 64) : tabGet 0 (startUnis args n) (g * 64 + r) =
    if g < n ∧ r < 16 then BitVec.ofNat 64 (bytesAt args (8 * r) 8) else 0 := by
  induction n with
  | zero => rfl
  | succ n ih =>
    rw [startUnis_succ]
    by_cases hnew : g = n ∧ r < 16
    · obtain ⟨rfl, hr16⟩ := hnew
      rw [tabGet_foldl_set (f := fun i => BitVec.ofNat 64 (bytesAt args (8 * i) 8)) hr16, if_pos ⟨by omega, hr16⟩]
    · rw [tabGet_foldl_set_off (f := fun i => BitVec.ofNat 64 (bytesAt args (8 * i) 8)) (by omega), ih]
      have hold : (g < n + 1 ∧ r < 16) ↔ (g < n ∧ r < 16) := by omega
      simp only [hold]

section
variable {k : Core} {l : Launch} {index : Nat} {halted : Bool}

theorem Core.reg_start_index {th : Nat} (hth : th < 512) : (k.start l index halted).reg th 0 = BitVec.ofNat 32 th :=
  (tabGet_startRegs (by omega)).trans (if_pos ⟨hth, rfl⟩)

theorem Core.reg_start_block {th : Nat} (hth : th < 512) : (k.start l index halted).reg th 1 = BitVec.ofNat 32 index :=
  (tabGet_startRegs (by omega)).trans (by simp [hth])

theorem Core.reg_start_zero {th r : Nat} (hlo : 2 ≤ r) (hhi : r < 256) : (k.start l index halted).reg th r = 0 :=
  (tabGet_startRegs hhi).trans (by rw [if_neg (by omega), if_neg (by omega)])

theorem Core.ureg_start {g r : Nat} (hg : g < 16) (hr : r < 64) : (k.start l index halted).ureg g r =
    if r < 16 then BitVec.ofNat 64 (bytesAt l.args (8 * r) 8) else 0 :=
  (tabGet_startUnis hr).trans (by simp only [hg, true_and])

/-- Live threads stand at ENTRY. -/
theorem Core.thPc_start {th : Nat} (hth : th < l.threads) : (k.start l index halted).thPc th = l.entry := by
  have h := tabGet_foldl_set (d := 0) (f := fun _ => l.entry) (base := 0) (t := []) hth
  simp only [Nat.zero_add] at h
  exact h

end

/-! ### Dispatch, R154 -/

/-- The cores of a list start a launch's blocks, the first of them block i. -/
def State.startFrom (l : Launch) : State → Nat → List Nat → State
  | s, _, [] => s
  | s, i, c :: cs => startFrom l (s.setCore c ((s.core c).start l i (s.haltedCtx l.ctx))) (i + 1) cs

section
variable {l : Launch}

theorem State.foldl_start_eq {cs : List Nat} : ∀ {s : State} {n : Nat},
    ((cs.mapIdx fun i c => (i, c)).foldl (fun s e => s.setCore e.2 ((s.core e.2).start l (n + e.1) (s.haltedCtx l.ctx))) s) =
      State.startFrom l s n cs := by
  induction cs with
  | nil => intro s n; rfl
  | cons c cs ih =>
    intro s n
    have hshift : (cs.mapIdx fun i c => (i + 1, c)) = (cs.mapIdx fun i c => (i, c)).map fun e => (e.1 + 1, e.2) :=
      List.ext_getElem? fun i => by simp [Function.comp_def]
    rw [List.mapIdx_cons, List.foldl_cons, hshift, List.foldl_map, State.startFrom, ← ih]
    simp only [Nat.add_zero, Nat.add_assoc, Nat.add_comm 1]

theorem State.startFrom_rest {cs : List Nat} : ∀ {s : State} {n : Nat},
    State.startFrom l s n cs = { s with cores := (State.startFrom l s n cs).cores } := by
  induction cs with
  | nil => intro s n; rfl
  | cons c cs ih =>
    intro s n
    rw [State.startFrom, ih]
    rfl

theorem State.core_startFrom_off {c : Nat} {cs : List Nat} : ∀ {s : State} {n : Nat}, c ∉ cs →
    (State.startFrom l s n cs).core c = s.core c := by
  induction cs with
  | nil => intro s n _; rfl
  | cons a cs ih =>
    intro s n h
    obtain ⟨hne, hnot⟩ := not_or.mp fun hmem => h (List.mem_cons.mpr hmem)
    rw [State.startFrom, ih hnot, State.core_setCore_ne hne]

/-- Each core of a list without repetition starts the block of its place. -/
theorem State.core_startFrom {c i : Nat} {cs : List Nat} : ∀ {s : State} {n : Nat}, cs.Nodup → cs[i]? = some c →
    (State.startFrom l s n cs).core c = (s.core c).start l (n + i) (s.haltedCtx l.ctx) := by
  induction cs generalizing i with
  | nil => intro s n _ h; simp at h
  | cons a cs ih =>
    intro s n hnodup hc
    obtain ⟨hnot, hrest⟩ := List.nodup_cons.mp hnodup
    cases i with
    | zero =>
      obtain rfl : a = c := by simpa using hc
      rw [State.startFrom, State.core_startFrom_off hnot, State.core_setCore_same, Nat.add_zero]
    | succ i =>
      have hc' : cs[i]? = some c := by simpa using hc
      have hne : c ≠ a := by
        rintro rfl
        exact hnot (List.mem_of_getElem? hc')
      rw [State.startFrom, ih hrest hc', State.core_setCore_ne hne, Nat.add_assoc, Nat.add_comm 1]
      rfl

theorem Launch.takes_nodup (l : Launch) (core : Nat) : (l.takes core).Nodup := by
  unfold Launch.takes
  split
  · exact List.Pairwise.map _ (fun a b hne heq => hne (Nat.add_left_cancel heq)) List.nodup_range
  · exact List.pairwise_singleton _ core

theorem State.launch_id {s : State} {id : Nat} (h : s.launch id = some l) : l.id = id := by
  simpa using List.find?_some h

/-- A launch found reads back what replaces it. -/
theorem State.launch_setLaunch {s : State} {id : Nat} {l' : Launch} (h : s.launch id = some l) (hid : l'.id = id) :
    (s.setLaunch l').launch id = some l' := by
  subst hid
  exact find?_updFirst h (by simp)

end

section
variable {s : State} {id core : Nat}

theorem exec_coreBlockDispatch_none (h : s.launch id = none) : exec (.coreBlockDispatch id core) s = .next s := by
  change execCoreBlockDispatch id core s = _
  simp only [execCoreBlockDispatch, h]

variable {l : Launch} (hl : s.launch id = some l)
include hl

theorem exec_coreBlockDispatch : exec (.coreBlockDispatch id core) s =
    .next (if s.dispatchOk l core = true then s.dispatch l core else s) := by
  change execCoreBlockDispatch id core s = _
  simp only [execCoreBlockDispatch, hl]

omit hl in
theorem State.dispatchOk_of (hleft : l.next < l.grid) (hctx : s.ctxState l.ctx = 2) (hfirst : l.cluster = false ∨ core % 8 = 0)
    (hslot : l.slot = none ∨ l.cores[l.next]? = some core)
    (hfree : ∀ c ∈ l.takes core, c ∈ l.cores ∧ s.coreFree c = true ∧ s.firstFor l c = true) : s.dispatchOk l core = true := by
  simpa [State.dispatchOk, hleft, hctx, hfirst, hslot, and_assoc] using hfree

omit hl in
theorem State.dispatch_eq : s.dispatch l core =
    (State.startFrom l s l.next (l.takes core)).setLaunch { l with next := l.next + (l.takes core).length } := by
  rw [State.dispatch, State.foldl_start_eq]

/-- A dispatch starts the next blocks on the cores that it takes, counts them in the launch, and leaves the rest. -/
theorem State.dispatch_starts :
    let t := s.dispatch l core
    t.mem = s.mem ∧ t.regs = s.regs ∧ t.coh = s.coh ∧ t.launch id = some { l with next := l.next + (l.takes core).length } ∧
    (∀ c, c ∉ l.takes core → t.core c = s.core c) ∧
    ∀ i c, (l.takes core)[i]? = some c → t.core c = (s.core c).start l (l.next + i) (s.haltedCtx l.ctx) := by
  have hrest := State.startFrom_rest (l := l) (s := s) (n := l.next) (cs := l.takes core)
  have hlaunch : (State.startFrom l s l.next (l.takes core)).launch id = some l := by
    rw [hrest]
    exact hl
  have hid := State.launch_id hl
  rw [State.dispatch_eq]
  refine ⟨by rw [hrest]; rfl, by rw [hrest]; rfl, by rw [hrest]; rfl, State.launch_setLaunch hlaunch hid,
    fun c hc => State.core_startFrom_off hc, fun i c hc => State.core_startFrom (Launch.takes_nodup l core) hc⟩

end

/-! ### The end of a block, R256 -/

section
variable {s : State} {core : Nat} {b : Blk}

/-- The state with one core written with what it holds: no core reads otherwise. -/
def State.rewriteCore (s : State) (core : Nat) : State := s.setCore core (s.core core)

@[simp] theorem State.core_rewriteCore (c : Nat) : (s.rewriteCore core).core c = s.core c := by
  unfold State.rewriteCore
  by_cases h : c = core
  · rw [h, State.core_setCore_same]
  · rw [State.core_setCore_ne h]

@[simp] theorem State.atomsOut_rewriteCore (c : Nat) : (s.rewriteCore core).atomsOut c = s.atomsOut c := by
  unfold State.atomsOut
  rw [State.core_rewriteCore]
  rfl

@[simp] theorem State.blockDone_rewriteCore (c : Nat) : (s.rewriteCore core).blockDone c = s.blockDone c := by
  unfold State.blockDone
  rw [State.core_rewriteCore, State.atomsOut_rewriteCore]
  rfl

theorem State.flushCore_empty (hb : (s.core core).blk = some b) (hsb : (s.core core).sb = []) :
    s.flushCore core = s.rewriteCore core := by
  unfold State.flushCore State.rewriteCore
  generalize s.core core = k at hb hsb ⊢
  obtain ⟨⟩ := k
  subst hb hsb
  rfl

theorem State.handRq_empty {f : RqEnt → Bool} (hb : (s.core core).blk = some b) (hrq : (s.core core).rq = []) :
    s.handRq core f = s.rewriteCore core := by
  unfold State.handRq State.rewriteCore
  generalize s.core core = k at hb hrq ⊢
  obtain ⟨⟩ := k
  subst hb hrq
  rfl

theorem exec_coreBlockComplete_idle
    (h : (s.core core).blk = none ∨ (s.core core).live ≠ [] ∨ (s.core core).stopped = true ∨ (s.core core).exc.isSome = true) :
    exec (.coreBlockComplete core) s = .next s := by
  change execCoreBlockComplete core s = _
  rcases h with h | h | h | h
  · simp [execCoreBlockComplete, h]
  · simp [execCoreBlockComplete, h]
  · simp [execCoreBlockComplete, h]
  · simp [execCoreBlockComplete, h]

/-- The core of a block that is over: its scratchpad and what R155 compares stay. -/
def State.freed (s : State) (core : Nat) : State :=
  s.setCore core { Core.idle with well := (s.core core).well, wcache := (s.core core).wcache, last := (s.core core).last }

variable {l : Launch} (hl : s.launch b.launch = some l)
include hl

theorem State.blockEnd_counts (h : l.doneBlocks + 1 ≠ l.grid) :
    s.blockEnd core b = (s.freed core).setLaunch { l with doneBlocks := l.doneBlocks + 1 } := by
  have hl' : (s.freed core).launch b.launch = some l := hl
  rw [State.freed] at hl' ⊢
  simp only [State.blockEnd, hl', h, if_false]

theorem State.blockEnd_ends (h : l.doneBlocks + 1 = l.grid) :
    s.blockEnd core b = (s.freed core).launchEnd { l with doneBlocks := l.doneBlocks + 1 } := by
  have hl' : (s.freed core).launch b.launch = some l := hl
  rw [State.freed] at hl' ⊢
  simp only [State.blockEnd, hl', h, if_true]

end

/-! ### The end of a launch, R209, R256 -/

section
variable {s : State}

/-- Slots that are freed change registers alone. -/
theorem State.each_free_rest {xs : List Sluice} : ∀ {s : State},
    { s.each xs (fun s x => s.set (F.SL_PIPE_STAT_BOUND x.slot) 0) with regs := s.regs } = s := by
  induction xs with
  | nil => intro s; rfl
  | cons x xs ih =>
    intro s
    have h := ih (s := s.set (F.SL_PIPE_STAT_BOUND x.slot) 0)
    exact congrArg (fun t : State => { t with regs := s.regs }) h

theorem State.unbind_rest (launch : Nat) : ∃ regs, s.unbind launch =
    { s with sluices := s.sluices.filter (fun x => x.launch != launch), regs := regs } := by
  refine ⟨(s.unbind launch).regs, ?_⟩
  have h := State.each_free_rest (s := { s with sluices := s.sluices.filter fun x => x.launch != launch })
    (xs := s.sluices.filter fun x => x.launch == launch)
  exact congrArg (fun t : State => { t with regs := (s.unbind launch).regs }) h

/-- A command that has not ended does so with the status, source and result given. -/
theorem State.cmd_endCmd {id status source result : Nat} {c : Cmd} (hc : s.cmd id = some c) (hopen : c.ended = false) :
    (s.endCmd id status source result).cmd id =
      some { c with ended := true, status := status, source := source, result := result } := by
  have hid : c.id = id := by simpa using List.find?_some hc
  exact (find?_updFirst hc (by simp [hopen, hid])).trans (by simp [hopen])

/-- The launch is gone with its Sluices, its command is over, and nothing else but registers has changed. -/
theorem State.launchEnd_leaves (l : Launch) :
    let t := s.launchEnd l
    t.mem = s.mem ∧ t.cores = s.cores ∧ t.launch l.id = none ∧ t.sluices = s.sluices.filter (fun x => x.launch != l.id) ∧
    ∀ c, s.cmd l.cmd = some c → c.ended = false →
      t.cmd l.cmd = some { c with ended := true, status := 0, source := 0, result := 0 } := by
  obtain ⟨regs, hunbind⟩ := State.unbind_rest
    (s := { s with fe := { s.fe with launches := s.fe.launches.filter fun x => x.id != l.id } }) l.id
  rw [State.launchEnd, hunbind]
  refine ⟨rfl, rfl, ?_, rfl, fun c hc hopen => ?_⟩
  · exact List.find?_eq_none.mpr fun x hx => by simpa using (List.mem_filter.mp hx).2
  · exact State.cmd_endCmd hc hopen

end

section
variable {s : State} {core : Nat} {b : Blk} {l : Launch}

/-- What the end of a block leaves: a free core, and its launch with one more block done or, after the last, gone. -/
theorem State.blockEnd_leaves (hl : s.launch b.launch = some l) :
    let t := s.blockEnd core b
    t.mem = s.mem ∧ (∀ c, t.core c = (s.freed core).core c) ∧
    (l.doneBlocks + 1 ≠ l.grid → t.regs = s.regs ∧ t.sluices = s.sluices ∧
      t.launch b.launch = some { l with doneBlocks := l.doneBlocks + 1 }) ∧
    (l.doneBlocks + 1 = l.grid → t.launch b.launch = none ∧ t.sluices = s.sluices.filter (fun x => x.launch != b.launch) ∧
      ∀ c, s.cmd l.cmd = some c → c.ended = false →
        t.cmd l.cmd = some { c with ended := true, status := 0, source := 0, result := 0 }) := by
  have hid := State.launch_id hl
  by_cases hlast : l.doneBlocks + 1 = l.grid
  · rw [State.blockEnd_ends hl hlast]
    obtain ⟨hmem, hcores, hgone, hsluices, hcmd⟩ := State.launchEnd_leaves (s := s.freed core) { l with doneBlocks := l.doneBlocks + 1 }
    rw [← hid]
    exact ⟨hmem, fun c => by rw [State.core, hcores]; rfl, fun h => absurd hlast h, fun _ => ⟨hgone, hsluices, hcmd⟩⟩
  · rw [State.blockEnd_counts hl hlast]
    exact ⟨rfl, fun _ => rfl, fun _ => ⟨rfl, rfl, State.launch_setLaunch (s := s.freed core) hl hid⟩, fun h => absurd h hlast⟩

/-- A block with nothing outstanding ends, once its empty store buffer and remote-write queue have been emptied. -/
theorem exec_coreBlockComplete_done (hb : (s.core core).blk = some b) (hlive : (s.core core).live = [])
    (hstop : (s.core core).stopped = false) (hexc : (s.core core).exc = none) (hsb : (s.core core).sb = [])
    (hrq : (s.core core).rq = []) (hqueue : (s.core core).queue = []) (hflights : (s.core core).flights = [])
    (hatoms : s.atomsOut core = false) (hfab : s.fabPending core (2 ^ 64) = false)
    (hpend : ∀ q ∈ s.coh.pend, q.cluster ≠ core / 8) :
    exec (.coreBlockComplete core) s = .next (((s.rewriteCore core).rewriteCore core).blockEnd core b) := by
  have hdrained : (s.flushCore core).handRq core (fun _ => true) = (s.rewriteCore core).rewriteCore core := by
    rw [State.flushCore_empty hb hsb, State.handRq_empty (b := b)]
    · rw [State.core_rewriteCore, hb]
    · rw [State.core_rewriteCore, hrq]
  have hover : s.blockDone core = true := by
    have hnone : (s.coh.pend.any fun q => q.cluster == core / 8) = false := by simpa [List.any_eq_false] using hpend
    simp only [State.blockDone, hb, hlive, hstop, hexc, hsb, hrq, hqueue, hflights, hatoms, hfab, hnone]
    rfl
  change execCoreBlockComplete core s = _
  simp [execCoreBlockComplete, hdrained, hb, hlive, hstop, hexc, hover]

end

/-- Settles O39: a core block starts with the launch state of R154 on each core that it takes; its end frees the core, and the
last one's ends the launch. -/
theorem coreBlocksStartAndEnd : Obligations.CoreBlocksStartAndEnd := by
  intro s id core
  refine ⟨exec_coreBlockDispatch_none, fun l hl hno => ?refused, fun l hl hleft hctx hfirst hslot hfree => ?dispatched,
    exec_coreBlockComplete_idle, fun b l hb hlive hstop hexc hsb hrq hqueue hflights hatoms hfab _ hpend hl => ?completed⟩
  case refused =>
    rw [exec_coreBlockDispatch hl, if_neg (by simp [hno])]
  case dispatched =>
    obtain ⟨hmem, hregs, hcoh, hlaunch, hothers, hstarted⟩ := State.dispatch_starts (core := core) hl
    refine ⟨_, (exec_coreBlockDispatch hl).trans (congrArg Host.Outcome.next
      (if_pos (State.dispatchOk_of hleft hctx hfirst hslot hfree))), hmem, hregs, hcoh, hlaunch, hothers, fun i c hc => ?_⟩
    rw [hstarted i c hc]
    exact ⟨rfl, rfl, rfl, rfl, rfl, rfl, rfl, rfl, rfl, rfl, rfl, rfl, fun th => Core.thPc_start,
      fun th hth => ⟨Core.reg_start_index hth, Core.reg_start_block hth⟩, fun th r => Core.reg_start_zero, fun g r => Core.ureg_start⟩
  case completed =>
    obtain ⟨hmem, hcore, hcounts, hends⟩ := State.blockEnd_leaves (core := core) (b := b)
      (s := (s.rewriteCore core).rewriteCore core) hl
    have hfree := (hcore core).trans State.core_setCore_same
    simp only [State.core_rewriteCore] at hfree
    refine ⟨_, exec_coreBlockComplete_done hb hlive hstop hexc hsb hrq hqueue hflights hatoms hfab hpend, hmem, fun c hc => ?_,
      congrArg Core.blk hfree, (congrArg Core.well hfree :), (congrArg Core.last hfree :), congrArg Core.t hfree, hcounts, hends⟩
    rw [hcore, State.freed, State.core_setCore_ne hc, State.core_rewriteCore, State.core_rewriteCore]

end Sys2Proof.Machine
end

section
/-! SUPPORT. Releases, acquires and the fabric fence (R181, R245 to R247, R254, R441): what a release starts with, when it
holds, and what the end of a fence leaves. -/

namespace Sys2Proof.Machine

/-! ### The buffered stores that a release closes, R245 -/

section
variable {k : Core}

/-- A release leaves every entry of the store buffer closed, and otherwise as it was. -/
theorem Core.mem_closeSb_all {x : SbEnt} :
    x ∈ (k.closeSb fun _ => true).sb ↔ ∃ e ∈ k.sb, x = { e with closed := true } := by
  simp only [Core.closeSb, List.mem_append, List.mem_map, List.mem_filter, Bool.and_true, Bool.not_true, Bool.and_false,
    Bool.not_eq_true', Bool.false_eq_true, and_false, or_false]
  constructor
  · rintro (⟨hx, hclosed⟩ | ⟨e, ⟨he, -⟩, rfl⟩)
    · exact ⟨x, hx, by rw [← hclosed]⟩
    · exact ⟨e, he, rfl⟩
  · rintro ⟨e, he, rfl⟩
    cases hclosed : e.closed with
    | true => exact .inl ⟨by rwa [← hclosed], rfl⟩
    | false => exact .inr ⟨e, ⟨he, hclosed⟩, rfl⟩

theorem Core.closeSb_empty {f : SbEnt → Bool} (h : k.sb = []) : k.closeSb f = k := by
  obtain ⟨⟩ := k
  subst h
  rfl

end

/-! ### When a release holds, R245 -/

section
variable {s : State} {core scope n : Nat}

@[simp] theorem State.relOk_rewriteCore (c : Nat) : (s.rewriteCore c).relOk core scope n = s.relOk core scope n := by
  unfold State.relOk
  rw [State.core_rewriteCore, State.atomsOut_rewriteCore]
  rfl

/-- A release holds where nothing that it covers is left. -/
theorem State.relOk_of_nothingLeft (hsb : (s.core core).sb = []) (hrq : (s.core core).rq = []) (hatoms : s.atomsOut core = false)
    (hpend : ∀ q ∈ s.coh.pend, q.cluster ≠ core / 8) : s.relOk core scope n = true := by
  have hnone : (s.coh.pend.any fun q => q.cluster == core / 8 && decide (q.serial < n)) = false :=
    List.any_eq_false.mpr fun q hq => by simp [hpend q hq]
  simp [State.relOk, hsb, hrq, hatoms, hnone]

/-- Beyond the thread's own scope a release does not hold while an earlier store is buffered. -/
theorem State.relOk_of_buffered {e : SbEnt} (hscope : scope ≠ 0) (he : e ∈ (s.core core).sb) (hn : e.serial < n) :
    s.relOk core scope n = false := by
  have hleft : ((s.core core).sb.any fun e => decide (e.serial < n)) = true := List.any_eq_true.mpr ⟨e, he, decide_eq_true hn⟩
  simp [State.relOk, hscope, hleft]

end

/-! ### An instruction that releases first, R247 -/

/-- The release or fabric fence is the one of the operation's fragment. -/
def Op.owns (o : Op) (r : Rel) : Bool := r.group == o.group && r.pc == o.pc

/-- The core with the operation's release at the end of its list: the operation waits for what is older than `n`. -/
def Core.awaiting (k : Core) (o : Op) (scope n : Nat) : Core :=
  { k with rels := k.rels ++ [⟨o.group, o.pc, o.all, scope, n, false⟩] }

/-- A release starts: beyond the thread's own scope the store buffer's entries close, and the remote writes are handed over. -/
def State.startRelease (s : State) (core scope : Nat) : State :=
  (if scope = 0 then s else s.setCore core ((s.core core).closeSb fun _ => true)).handRq core fun _ => true

section
variable {s : State} {o : Op} {scope : Nat} {go : State → State}

section
variable {r : Rel} (hr : (s.core o.core).rels.find? o.owns = some r)
include hr

theorem State.withRelease_waiting (hdone : r.done = false) : s.withRelease o scope go = s := by
  unfold Op.owns at hr
  simp [State.withRelease, hr, hdone]

theorem State.withRelease_held (hdone : r.done = true) :
    s.withRelease o scope go =
      go (s.setCore o.core { s.core o.core with rels := dropFirst o.owns (s.core o.core).rels }) := by
  unfold Op.owns at hr ⊢
  simp [State.withRelease, hr, hdone]

end

section
variable (hr : (s.core o.core).rels.find? o.owns = none)
include hr

theorem State.withRelease_atOnce (hholds : (s.startRelease o.core scope).tick.2.relOk o.core scope
    (s.startRelease o.core scope).tick.1 = true) : s.withRelease o scope go = go (s.startRelease o.core scope).tick.2 := by
  unfold Op.owns at hr
  simp only [State.withRelease, hr]
  exact if_pos hholds

theorem State.withRelease_begins (hleft : (s.startRelease o.core scope).tick.2.relOk o.core scope
    (s.startRelease o.core scope).tick.1 = false) :
    s.withRelease o scope go = (s.startRelease o.core scope).tick.2.setCore o.core
      (((s.startRelease o.core scope).core o.core).awaiting o scope (s.startRelease o.core scope).tick.1) := by
  unfold Op.owns at hr
  simp only [State.withRelease, hr]
  exact if_neg (ne_true_of_eq_false hleft)

end

end

section
variable {s : State} {core scope : Nat} {b : Blk} (hb : (s.core core).blk = some b) (hrq : (s.core core).rq = [])
include hb hrq

/-- With empty buffers the start of a release writes the core with what it holds. -/
theorem State.startRelease_empty (hsb : (s.core core).sb = []) :
    s.startRelease core scope = (if scope = 0 then s else s.rewriteCore core).rewriteCore core := by
  unfold State.startRelease
  rw [Core.closeSb_empty hsb, ← State.rewriteCore]
  split
  · exact State.handRq_empty hb hrq
  · exact State.handRq_empty (by rwa [State.core_rewriteCore]) (by rwa [State.core_rewriteCore])

/-- With an empty remote-write queue the start of a release closes the entries of the store buffer, and nothing more. -/
theorem State.startRelease_closes (hscope : scope ≠ 0) :
    s.startRelease core scope = (s.setCore core ((s.core core).closeSb fun _ => true)).rewriteCore core := by
  unfold State.startRelease
  rw [if_neg hscope]
  exact State.handRq_empty (b := b) (by rw [State.core_setCore_same]; exact hb) (by rw [State.core_setCore_same]; exact hrq)

end

/-! ### One core written -/

/-- `t` is `s` with the core `c` become `k`. -/
structure CoreWritten (s : State) (c : Nat) (k : Core) (t : State) : Prop where
  rest : t = { s with cores := t.cores }
  others : ∀ c', c' ≠ c → t.core c' = s.core c'
  core : t.core c = k

namespace CoreWritten

variable {s t u : State} {c : Nat} {k k' : Core}

theorem setCore (s : State) (c : Nat) (k : Core) : CoreWritten s c k (s.setCore c k) :=
  ⟨rfl, fun _ h => State.core_setCore_ne h, State.core_setCore_same⟩

/-- The later write of a core stands. -/
theorem trans (h : CoreWritten s c k t) (g : CoreWritten t c k' u) : CoreWritten s c k' u := by
  refine ⟨?_, fun c' hc => (g.others c' hc).trans (h.others c' hc), g.core⟩
  rw [g.rest, h.rest]

theorem onlyCore {o : Op} {keep : Core → Core → Core} (h : CoreWritten s o.core k t)
    (hkeep : keep (s.core o.core)
      { k with pc := (s.core o.core).pc, turns := (s.core o.core).turns, lastTurn := (s.core o.core).lastTurn } =
        s.core o.core) : OnlyCore o s t keep :=
  ⟨h.rest, h.others, by rw [h.core]; exact hkeep⟩

end CoreWritten

/-! ### The end of a FENCE, R181, R246, R247 -/

section
variable {o : Op} {k : Core} {s : State}

/-- The core with a FENCE over: the threads have advanced, and an acquire beyond the thread's own scope has emptied the Well
cache. -/
def Core.fenced (o : Op) (k : Core) : Core :=
  { (k.advance o.all).counted o.group o.all with lines := if wSem o.w % 2 = 1 ∧ wScope o.w ≠ 0 then [] else k.lines }

/-- Beside the program counters, the counts of issues and the Well cache a FENCE leaves its core as it was. -/
theorem Core.fenced_keep : k.fenced o = { k with
    pc := (k.fenced o).pc, turns := (k.fenced o).turns, lastTurn := (k.fenced o).lastTurn, lines := (k.fenced o).lines } := by
  unfold Core.fenced
  rw [Core.advance_keep]
  rfl

theorem Core.fenced_moved (hn : o.all.Nodup) : Moved o k (k.fenced o) :=
  fun _ => Core.thPc_advance hn

/-- What a FENCE does once its release, if it makes one, holds. -/
def State.fenceEnd (o : Op) (s : State) : State :=
  let s := s.done o (s.core o.core)
  if wSem o.w % 2 = 1 then s.acquire o.core (wScope o.w) else s

theorem State.fenceEnd_writes : CoreWritten s o.core ((s.core o.core).fenced o) (s.fenceEnd o) := by
  have hdone := CoreWritten.setCore s o.core (((s.core o.core).advance o.all).counted o.group o.all)
  have hlines : ((s.core o.core).advance o.all).lines = (s.core o.core).lines := by rw [Core.advance_keep]
  by_cases hacquires : wSem o.w % 2 = 1 ∧ wScope o.w ≠ 0
  · have hend : s.fenceEnd o = (s.done o (s.core o.core)).setCore o.core
        { (s.done o (s.core o.core)).core o.core with lines := [] } := by
      simp only [State.fenceEnd, State.acquire, hacquires.1, hacquires.2, if_true, if_false]
    have hfenced : (s.core o.core).fenced o = { (s.done o (s.core o.core)).core o.core with lines := [] } := by
      rw [Core.fenced, if_pos hacquires, State.done, State.core_setCore_same]
    rw [hend, hfenced]
    exact hdone.trans (.setCore _ _ _)
  · have hend : s.fenceEnd o = s.done o (s.core o.core) := by
      simp only [State.fenceEnd, State.acquire]
      by_cases hsem : wSem o.w % 2 = 1
      · have hscope : wScope o.w = 0 := Decidable.byContradiction fun hscope => hacquires ⟨hsem, hscope⟩
        rw [if_pos hsem, if_pos hscope]
      · rw [if_neg hsem]
    have hfenced : (s.core o.core).fenced o = ((s.core o.core).advance o.all).counted o.group o.all := by
      rw [Core.fenced, if_neg hacquires, ← hlines]
      rfl
    rw [hend, hfenced]
    exact hdone

end

/-! ### FENCE, R247 -/

section
variable {s : State} {at' : Issue} {w : BitVec 128} {o : Op} (h : Issues s 6 0x01 at' w o)
include h

theorem exec_fence : exec (.fence at' w) s = .next (s.fence o) :=
  congrArg Host.Outcome.next (State.instr_of_issues h)

theorem exec_fence_acquire (hsem : wSem o.w = 1) : exec (.fence at' w) s = .next (s.fenceEnd o) := by
  rw [exec_fence h, State.fence, if_neg (by omega)]
  rfl

section
variable (hsem : 2 ≤ wSem o.w)
include hsem

theorem exec_fence_release :
    exec (.fence at' w) s = .next (s.withRelease o (wScope o.w) (State.fenceEnd o)) := by
  rw [exec_fence h, State.fence, if_pos hsem]
  rfl

/-- A FENCE whose release has nothing to wait for is over at once (R245). -/
theorem fence_endsAtOnce (hr : (s.core o.core).rels.find? o.owns = none) (hsb : (s.core o.core).sb = [])
    (hrq : (s.core o.core).rq = []) (hatoms : s.atomsOut o.core = false)
    (hpend : ∀ q ∈ s.coh.pend, q.cluster ≠ o.core / 8) :
    After (.fence at' w) s fun t => t.mem = s.mem ∧ t.regs = s.regs ∧ t.core o.core = (s.core o.core).fenced o := by
  have hstart := State.startRelease_empty (scope := wScope o.w) h.block hrq hsb
  have hcore : (s.startRelease o.core (wScope o.w)).core o.core = s.core o.core := by
    rw [hstart]; split <;> simp only [State.core_rewriteCore]
  have hrest : (s.startRelease o.core (wScope o.w)).mem = s.mem ∧ (s.startRelease o.core (wScope o.w)).regs = s.regs := by
    rw [hstart]; split <;> exact ⟨rfl, rfl⟩
  have hholds (n : Nat) : (s.startRelease o.core (wScope o.w)).relOk o.core (wScope o.w) n = true := by
    have hnow := State.relOk_of_nothingLeft (scope := wScope o.w) (n := n) hsb hrq hatoms hpend
    rw [hstart]; split <;> simpa only [State.relOk_rewriteCore] using hnow
  have hend := State.fenceEnd_writes (s := (s.startRelease o.core (wScope o.w)).tick.2) (o := o)
  refine ⟨_, (exec_fence_release h hsem).trans (congrArg Host.Outcome.next (State.withRelease_atOnce hr (hholds _))), ?_⟩
  refine ⟨?_, ?_, ?_⟩
  · rw [hend.rest]; exact hrest.1
  · rw [hend.rest]; exact hrest.2
  · rw [hend.core]; exact congrArg (Core.fenced o) hcore

/-- An earlier buffered store makes the FENCE wait: the buffer's entries close and the release is recorded (R245). -/
theorem fence_waits {e : SbEnt} (he : e ∈ (s.core o.core).sb) (hscope : wScope o.w ≠ 0)
    (hr : (s.core o.core).rels.find? o.owns = none) (hrq : (s.core o.core).rq = []) (hserial : e.serial < s.coh.serial) :
    After (.fence at' w) s fun t => t.mem = s.mem ∧
      t.core o.core = ((s.core o.core).closeSb fun _ => true).awaiting o (wScope o.w) s.coh.serial := by
  have hstart := State.startRelease_closes h.block hrq hscope
  have hcore : (s.startRelease o.core (wScope o.w)).core o.core = (s.core o.core).closeSb fun _ => true := by
    rw [hstart, State.core_rewriteCore, State.core_setCore_same]
  have hcoh : (s.startRelease o.core (wScope o.w)).coh = s.coh := by rw [hstart]; rfl
  have hmem : (s.startRelease o.core (wScope o.w)).mem = s.mem := by rw [hstart]; rfl
  have hclosed : { e with closed := true } ∈ ((s.startRelease o.core (wScope o.w)).core o.core).sb := by
    rw [hcore]
    exact Core.mem_closeSb_all.mpr ⟨e, he, rfl⟩
  have hleft := State.relOk_of_buffered (s := (s.startRelease o.core (wScope o.w)).tick.2)
    (n := (s.startRelease o.core (wScope o.w)).coh.serial) hscope hclosed (by rw [hcoh]; exact hserial)
  refine ⟨_, (exec_fence_release h hsem).trans (congrArg Host.Outcome.next (State.withRelease_begins hr hleft)), hmem, ?_⟩
  rw [State.core_setCore_same, hcore, State.tick, hcoh]

/-- A FENCE that has issued waits until RELEASE_COMPLETE has found its release to hold. -/
theorem exec_fence_waiting {r : Rel} (hr : (s.core o.core).rels.find? o.owns = some r) (hdone : r.done = false) :
    exec (.fence at' w) s = .next s := by
  rw [exec_fence_release h hsem, State.withRelease_waiting hr hdone]

/-- A FENCE whose release holds drops it and ends. -/
theorem fence_ends {r : Rel} (hr : (s.core o.core).rels.find? o.owns = some r) (hdone : r.done = true) :
    After (.fence at' w) s (CoreWritten s o.core
      ({ s.core o.core with rels := dropFirst o.owns (s.core o.core).rels }.fenced o)) := by
  refine ⟨_, (exec_fence_release h hsem).trans (congrArg Host.Outcome.next (State.withRelease_held hr hdone)), ?_⟩
  have hdrop := CoreWritten.setCore s o.core { s.core o.core with rels := dropFirst o.owns (s.core o.core).rels }
  have hend := State.fenceEnd_writes (s := s.setCore o.core
    { s.core o.core with rels := dropFirst o.owns (s.core o.core).rels }) (o := o)
  rw [hdrop.core] at hend
  exact hdrop.trans hend

end

end

/-! ### RELEASE_COMPLETE, R245 -/

/-- The fragment's release that has not been found to hold. -/
def Issue.awaits (at' : Issue) (r : Rel) : Bool := r.group == at'.group && r.pc == at'.pc && r.scope < 3 && !r.done

/-- A fragment's release is marked once it holds. -/
theorem exec_releaseComplete {s : State} {at' : Issue} {r : Rel} (hr : (s.core at'.core).rels.find? at'.awaits = some r) :
    exec (.releaseComplete at') s = .next (if s.relOk at'.core r.scope r.serial then
      s.setCore at'.core { s.core at'.core with
        rels := updFirst at'.awaits (fun r => { r with done := true }) (s.core at'.core).rels } else s) := by
  unfold Issue.awaits at hr ⊢
  change execReleaseComplete at' s = _
  simp only [execReleaseComplete, hr]

/-! ### FFENCE, R254, R441 -/

section
variable {s : State} {at' : Issue} {w : BitVec 128} {o : Op} (h : Issues s 6 0x02 at' w o)
include h

theorem exec_ffence : exec (.ffence at' w) s = .next (s.ffence o) :=
  congrArg Host.Outcome.next (State.instr_of_issues h)

theorem exec_ffence_waiting (hr : (s.core o.core).rels.any o.owns = true) : exec (.ffence at' w) s = .next s :=
  (exec_ffence h).trans (congrArg Host.Outcome.next (if_pos hr))

/-- An FFENCE hands over every posted remote write and waits. -/
theorem ffence_waits (hr : (s.core o.core).rels.any o.owns = false) :
    After (.ffence at' w) s fun t => t.mem = s.mem ∧
      ∃ n, t.core o.core = { s.core o.core with rq := [] }.awaiting o 3 n := by
  obtain ⟨hmem, hcore⟩ := State.handRq_keeps (s := s) (f := fun _ => true) (by rw [h.block]; rfl)
  have hnone : ((s.core o.core).rq.filter fun _ => !true) = [] := List.filter_eq_nil_iff.mpr fun _ _ => Bool.false_ne_true
  have hbody : s.ffence o = (s.handRq o.core fun _ => true).tick.2.setCore o.core
      (((s.handRq o.core fun _ => true).core o.core).awaiting o 3 (s.handRq o.core fun _ => true).tick.1) :=
    if_neg (ne_true_of_eq_false hr)
  refine ⟨_, (exec_ffence h).trans (congrArg Host.Outcome.next hbody), hmem, (s.handRq o.core fun _ => true).tick.1, ?_⟩
  rw [State.core_setCore_same, hcore, hnone]

end

/-! ### FFENCE_COMPLETE, R254 -/

/-- The core with a fabric fence over: it is dropped, the Well cache is empty and its threads advance. -/
def Core.fabricFenced (k : Core) (group : Nat) (r : Rel) (rels : List Rel) : Core :=
  ({ k with rels := rels, lines := [] }.advance r.lanes).counted group r.lanes

theorem Core.fabricFenced_keep {k : Core} {group : Nat} {r : Rel} {rels : List Rel} :
    k.fabricFenced group r rels = { k with
      rels := rels, lines := [], pc := (k.fabricFenced group r rels).pc,
      turns := (k.counted group r.lanes).turns, lastTurn := (k.counted group r.lanes).lastTurn } := by
  unfold Core.fabricFenced
  rw [Core.advance_keep]
  rfl

theorem Core.fabricFenced_thPc {k : Core} {group : Nat} {r : Rel} {rels : List Rel} (h : r.lanes.Nodup) (th : Nat) :
    (k.fabricFenced group r rels).thPc th = if th ∈ r.lanes then (k.thPc th + 16) % 2 ^ 64 else k.thPc th :=
  Core.thPc_advance h

/-- The fragment's fabric fence. -/
def Issue.fabricFence (at' : Issue) (r : Rel) : Bool := r.group == at'.group && r.pc == at'.pc && r.scope == 3

section
variable {s : State} {at' : Issue} {r : Rel} (hr : (s.core at'.core).rels.find? at'.fabricFence = some r)
include hr

/-- A write that the fence covers is unacknowledged: the fence waits. -/
theorem exec_ffenceComplete_pending (hpending : s.fabPending at'.core r.serial = true) :
    exec (.ffenceComplete at') s = .next s := by
  unfold Issue.fabricFence at hr
  change execFfenceComplete at' s = _
  simp only [execFfenceComplete, hr, hpending, Bool.or_true, if_true]

theorem exec_ffenceComplete_over (hstop : (s.core at'.core).stopped = false) (hover : s.fabPending at'.core r.serial = false) :
    exec (.ffenceComplete at') s = .next (s.setCore at'.core
      ((s.core at'.core).fabricFenced at'.group r (dropFirst at'.fabricFence (s.core at'.core).rels))) := by
  unfold Issue.fabricFence at hr
  change execFfenceComplete at' s = _
  have hgo : ¬((((s.core at'.core).stopped && !(s.dbg.step == some (at'.core, at'.group, at'.pc))) ||
      s.fabPending at'.core r.serial) = true) := by
    simp [hstop, hover]
  simp only [execFfenceComplete, hr, if_neg hgo, if_neg (ne_true_of_eq_false hstop)]
  split <;> rfl

end

/-- Settles O29: each row by the core that it leaves. A fence that ends leaves `Core.fenced`, one that begins to wait
`Core.awaiting`, and FFENCE_COMPLETE `Core.fabricFenced`. -/
theorem fencesAndReleases : Obligations.FencesAndReleases := by
  intro s at' w o
  refine ⟨fun h hsem => ?acquire, fun h hsem hr hsb hrq hatoms hpend => ?atOnce,
    fun e he h hsem hscope hr hrq hserial => ?begins,
    fun r h hsem hr => ⟨fun hdone => exec_fence_waiting h hsem hr hdone, fun hdone => ?ends⟩, fun r => exec_releaseComplete,
    fun h hr => ?ffence, fun h hr => exec_ffence_waiting h hr,
    fun r hr hstop hlanes => ⟨exec_ffenceComplete_pending hr, fun hover => ?fabric⟩⟩
  case acquire =>
    have hend := State.fenceEnd_writes (s := s) (o := o)
    refine ⟨_, exec_fence_acquire h hsem, hend.onlyCore ?_, ?_, ?_⟩
    · rw [Core.fenced_keep]
    · rw [hend.core]; exact Core.fenced_moved h.nodup.1
    · rw [hend.core]; rfl
  case atOnce =>
    obtain ⟨t, hexec, hmem, hregs, hcore⟩ := fence_endsAtOnce h hsem hr hsb hrq hatoms hpend
    refine ⟨t, hexec, hmem, hregs, ?_, ?_, ?_⟩
    · rw [hcore, Core.fenced_keep]
    · rw [hcore]; exact Core.fenced_moved h.nodup.1
    · rw [hcore]; rfl
  case begins =>
    obtain ⟨t, hexec, hmem, hcore⟩ := fence_waits h hsem he hscope hr hrq hserial
    refine ⟨t, hexec, hmem, ?_⟩
    rw [hcore]
    refine ⟨rfl, rfl, fun x hx => ?_, rfl⟩
    obtain ⟨e', -, rfl⟩ := Core.mem_closeSb_all.mp hx
    rfl
  case ends =>
    obtain ⟨t, hexec, hend⟩ := fence_ends h hsem hr hdone
    refine ⟨t, hexec, hend.onlyCore ?_, ?_, ?_, ?_⟩
    · rw [Core.fenced_keep]
    · rw [hend.core]; exact Core.fenced_moved h.nodup.1
    · rw [hend.core]; rfl
    · rw [hend.core, Core.fenced_keep]; rfl
  case ffence =>
    obtain ⟨t, hexec, hmem, n, hcore⟩ := ffence_waits h hr
    refine ⟨t, hexec, hmem, ?_⟩
    rw [hcore]
    exact ⟨rfl, rfl, rfl, rfl, n, rfl⟩
  case fabric =>
    refine ⟨_, exec_ffenceComplete_over hr hstop hover, _, rfl, ?_⟩
    have hmoved := Core.fabricFenced_thPc (k := s.core at'.core) (group := at'.group)
      (rels := dropFirst at'.fabricFence (s.core at'.core).rels) hlanes
    rw [Core.fabricFenced_keep] at hmoved ⊢
    exact ⟨rfl, rfl, hmoved, rfl, rfl, rfl⟩

end Sys2Proof.Machine
end

section
/-! SUPPORT. The Sluices' rows (R214, R225, R227, R230): a message in the ring of its FIFO, what its arrival records, a
stalled group, the clear of a pipeline's record and a write of a share. -/

namespace Sys2Proof.Machine

/-! ### Operations that change registers alone -/

/-- `t` is `s` but for registers. -/
def OnlyRegs (s t : State) : Prop := ∃ regs, t = { s with regs := regs }

section
variable {s t u : State}

theorem OnlyRegs.refl (s : State) : OnlyRegs s s := ⟨_, rfl⟩

theorem OnlyRegs.trans (h : OnlyRegs s t) (g : OnlyRegs t u) : OnlyRegs s u := by
  obtain ⟨_, rfl⟩ := h
  obtain ⟨regs, rfl⟩ := g
  exact ⟨regs, rfl⟩

theorem OnlyRegs.setRaw (off : Nat) (v : BitVec 64) : OnlyRegs s (s.setRaw off v) := ⟨_, rfl⟩

theorem OnlyRegs.set (f : Fld) (n : Nat) : OnlyRegs s (s.set f n) := .setRaw _ _

theorem OnlyRegs.rest (h : OnlyRegs s t) : { t with regs := s.regs } = s := by
  obtain ⟨_, rfl⟩ := h
  rfl

theorem State.raw_set_off {f : Fld} {n off : Nat} (h : off ≠ f.off) : (s.set f n).raw off = s.raw off := State.raw_setRaw_ne h

theorem State.get_setRaw_off {g : Fld} {off : Nat} {v : BitVec 64} (h : g.off ≠ off) : (s.setRaw off v).get g = s.get g := by
  rw [State.get, State.get, State.raw_setRaw_ne h]

/-- A counter that was counted reads its old value and n, or its largest value. -/
theorem State.get_count_same {f : Fld} {n : Nat} (hw : f.lo ≤ f.hi) (hhi : f.hi < 64) :
    (s.count f n).get f = satAdd (f.hi + 1 - f.lo) (s.get f) n := by
  have hpos := Nat.two_pow_pos (f.hi + 1 - f.lo)
  rw [State.count, State.get_set_same hw hhi, Nat.mod_eq_of_lt (by rw [satAdd]; omega)]

end

/-! ### A message in the ring of its FIFO, R214 -/

theorem le_of_add_mod_eq {c i j m : Nat} (hi : i < m) (h : (c + i) % m = (c + j) % m) : i ≤ j := by
  have hzero := Nat.sub_mod_eq_zero_of_mod_eq h
  rw [Nat.add_sub_add_left, Nat.mod_eq_of_lt (Nat.lt_of_le_of_lt (Nat.sub_le i j) hi)] at hzero
  exact Nat.le_of_sub_eq_zero hzero

/-- The scratchpad address of the i-th byte from the FIFO's write pointer on. -/
def Sluice.ringAt (x : Sluice) (i : Nat) : Nat := x.fbase + (32 * x.wptr + i) % (32 * x.fsize)

/-- Within one turn of the ring, bytes stand at different addresses. -/
theorem Sluice.ringAt_inj {x : Sluice} {i j : Nat} (hi : i < 32 * x.fsize) (hj : j < 32 * x.fsize)
    (h : x.ringAt i = x.ringAt j) : i = j := by
  have hmod : (32 * x.wptr + i) % (32 * x.fsize) = (32 * x.wptr + j) % (32 * x.fsize) := Nat.add_left_cancel h
  exact Nat.le_antisymm (le_of_add_mod_eq hi hmod) (le_of_add_mod_eq hj hmod.symm)

section
variable {x : Sluice} {l : List Byte}

/-- A message written into its FIFO changes the scratchpad alone. -/
theorem Core.WellOnly.fifoPut {k : Core} {i : Nat} : k.WellOnly (k.fifoPut x i l) := by
  induction l generalizing k i with
  | nil => exact .refl k
  | cons b l ih => exact (Core.WellOnly.wellPut _ _).trans ih

theorem Core.well_wellPut_one {k : Core} {a : Nat} {b : Byte} : (k.wellPut a [b]).well = tabSet 0 k.well a b := by
  rw [Core.wellPut_eq]; rfl

theorem Core.WellOnly.threads {k k' : Core} (h : k.WellOnly k') : k'.t = k.t := by
  obtain ⟨_, rfl⟩ := h
  rfl

/-- An address that holds no byte of the message keeps its byte. -/
theorem Core.fifoPut_off {k : Core} {i a : Nat} (h : ∀ j, i ≤ j → j < i + l.length → a ≠ x.ringAt j) :
    tabGet 0 (k.fifoPut x i l).well a = tabGet 0 k.well a := by
  induction l generalizing k i with
  | nil => rfl
  | cons b l ih =>
    rw [List.length_cons] at h
    have hrest := ih (k := k.wellPut (x.ringAt i) [b]) (i := i + 1) fun j hlo hhi => h j (by omega) (by omega)
    exact hrest.trans (by rw [Core.well_wellPut_one, tabGet_set_ne (h i (by omega) (by omega))])

/-- A message that fits in the FIFO stands in it byte for byte. -/
theorem Core.fifoPut_get {k : Core} {i j : Nat} {b : Byte} (hfit : i + l.length ≤ 32 * x.fsize) (hb : l[j]? = some b) :
    tabGet 0 (k.fifoPut x i l).well (x.ringAt (i + j)) = b := by
  induction l generalizing k i j with
  | nil => simp only [List.getElem?_nil, reduceCtorEq] at hb
  | cons c l ih =>
    rw [List.length_cons] at hfit
    cases j with
    | zero =>
      obtain rfl : c = b := Option.some.inj hb
      have hlater := Core.fifoPut_off (k := k.wellPut (x.ringAt i) [c]) (l := l) (i := i + 1) (a := x.ringAt i)
        fun n hlo hhi hsame => by have := Sluice.ringAt_inj (by omega) (by omega) hsame; omega
      exact hlater.trans (by rw [Core.well_wellPut_one, tabGet_set_same])
    | succ j =>
      have hrest := ih (k := k.wellPut (x.ringAt i) [c]) (i := i + 1) (by omega) (List.getElem?_cons_succ.symm.trans hb)
      rw [show i + (j + 1) = i + 1 + j by omega]
      exact hrest

end

/-! ### What an arrival records, R18, R227 -/

/-- `t` differs from `s` in wear, the recorder, and no register but EV_DROP. -/
structure Recorded (s t : State) : Prop where
  mem : t.mem = s.mem
  cores : t.cores = s.cores
  sluices : t.sluices = s.sluices
  raw : ∀ off, off ≠ A.EV_DROP → t.raw off = s.raw off

section
variable {s t u : State}

theorem Recorded.refl (s : State) : Recorded s s := ⟨rfl, rfl, rfl, fun _ _ => rfl⟩

theorem Recorded.trans (h : Recorded s t) (g : Recorded t u) : Recorded s u :=
  ⟨g.mem.trans h.mem, g.cores.trans h.cores, g.sluices.trans h.sluices, fun off ho => (g.raw off ho).trans (h.raw off ho)⟩

theorem Recorded.get (h : Recorded s t) {f : Fld} (hoff : f.off ≠ A.EV_DROP) : t.get f = s.get f := by
  rw [State.get, State.get, h.raw _ hoff]

theorem Recorded.sample (m sel : Nat) (v : Int) : Recorded s (s.sample m sel v) := ⟨rfl, rfl, rfl, fun _ _ => rfl⟩

/-- An event record takes its number, joins the queue or is counted as lost, and leaves wear as it was. -/
theorem State.event_records (cls src code : Nat) (part : Option Nat) (unit ctx : Nat) (l : List Nat) :
    let t := s.event cls src code part unit ctx l
    Recorded s t ∧ t.sp = s.sp ∧ t.evr.seq = (s.evr.seq + 1) % 2 ^ 32 := by
  unfold State.event State.record
  dsimp only
  split
  · exact ⟨⟨rfl, rfl, rfl, fun _ _ => rfl⟩, rfl, rfl⟩
  · exact ⟨⟨State.count_mem _ _ _, State.count_cores _ _ _, State.count_sluices _ _ _, fun off hoff => State.raw_setRaw_ne hoff⟩,
      State.count_sp _ _ _, congrArg Recorder.seq (State.count_evr _ _ _)⟩

/-- A codeword that could not be corrected counts 256 against its wire and takes one event record. -/
theorem State.badCodeword_records (w : Nat) :
    Recorded s (s.badCodeword w) ∧ (s.badCodeword w).wearOf 0 w = s.wearOf 0 w + 256 ∧
    (s.badCodeword w).evr.seq = (s.evr.seq + 1) % 2 ^ 32 := by
  obtain ⟨hrec, hsp, hseq⟩ := State.event_records (s := s.wear 0 w 256) 2 14 0xFF none 0 0x3FF []
  have hwear : Recorded s (s.wear 0 w 256) := ⟨rfl, rfl, rfl, fun _ _ => rfl⟩
  refine ⟨hwear.trans hrec, ?_, hseq⟩
  rw [State.badCodeword, State.wearOf, hsp]
  simp only [State.wear, if_neg (show ¬0 = 2 by decide), tabGet_set_same]

/-- The record of a codeword of the message that could not be corrected, if a wire is named. -/
def State.noteBad (s : State) : Option Nat → State
  | some w => s.badCodeword w
  | none => s

theorem State.noteBad_records (bad : Option Nat) : Recorded s (s.noteBad bad) := by
  cases bad with
  | none => exact .refl s
  | some w => exact (State.badCodeword_records w).1

/-- The lateness of a message in the record of its pipeline. -/
def State.noteLate (s : State) (slot late : Nat) : State :=
  if late = 0 then s
  else (s.set (F.SL_PIPE_EXCESS_MAXEXC slot) (max (s.get (F.SL_PIPE_EXCESS_MAXEXC slot)) (min late (2 ^ 32 - 1)))).count
    (F.SL_PIPE_EXCESS_LATE slot) 1

theorem OnlyRegs.noteLate (slot late : Nat) : OnlyRegs s (s.noteLate slot late) := by
  unfold State.noteLate
  split
  · exact .refl s
  · exact (OnlyRegs.set _ _).trans (.setRaw _ _)

/-- Lateness raises MAXEXC. -/
theorem State.noteLate_max (slot late : Nat) : (s.noteLate slot late).get (F.SL_PIPE_EXCESS_MAXEXC slot) =
    max (s.get (F.SL_PIPE_EXCESS_MAXEXC slot)) (min late (2 ^ 32 - 1)) := by
  have hlt : s.get (F.SL_PIPE_EXCESS_MAXEXC slot) < 2 ^ 32 := bits_lt _ 31 0
  unfold State.noteLate
  split
  · next hnone => rw [hnone, Nat.zero_min, Nat.max_zero]
  · rw [State.count, State.get_set_bits (by decide : 32 ≤ 63) (by decide : 31 < 64) (.inl (by decide : 31 < 32)),
      State.get_set_same (by decide : 0 ≤ 31) (by decide : 31 < 64)]
    exact Nat.mod_eq_of_lt (Nat.max_lt.mpr ⟨hlt, Nat.lt_of_le_of_lt (Nat.min_le_right _ _) (by decide : 2 ^ 32 - 1 < 2 ^ 32)⟩)

/-- A late message counts one LATE, up to its largest value. -/
theorem State.noteLate_count (slot late : Nat) : (s.noteLate slot late).get (F.SL_PIPE_EXCESS_LATE slot) =
    if late = 0 then s.get (F.SL_PIPE_EXCESS_LATE slot) else min (2 ^ 32 - 1) (s.get (F.SL_PIPE_EXCESS_LATE slot) + 1) := by
  unfold State.noteLate
  split
  · rfl
  · rw [State.get_count_same (by decide : 32 ≤ 63) (by decide : 63 < 64),
      State.get_set_bits (by decide : 0 ≤ 31) (by decide : 63 < 64) (.inr (by decide : 31 < 32))]
    exact Nat.min_comm _ _

end

/-! ### SLUICE_MESSAGE_ARRIVAL and SLUICE_CREDIT_RETURN -/

/-- The wire that an arrival names, where the device has it and the message crossed its window. -/
def State.wireOn (s : State) (x : Sluice) (bad : Option Nat) : Option Nat :=
  bad.filter fun w => wireReal w && s.usesUnit x (windowUnit (wireWindow w)).1 (windowUnit (wireWindow w)).2

section
variable {s : State} {slot dst dport late : Nat} {bad : Option Nat} {x : Sluice}

theorem exec_sluiceMessageArrival_unbound (hx : s.sluiceIn slot dst dport = none) :
    exec (.sluiceMessageArrival slot dst dport late bad) s = .next s := by
  change execSluiceMessageArrival slot dst dport late bad s = _
  simp only [execSluiceMessageArrival, hx]

theorem exec_sluiceCreditReturn_unbound (hx : s.sluiceIn slot dst dport = none) :
    exec (.sluiceCreditReturn slot dst dport) s = .next s := by
  change execSluiceCreditReturn slot dst dport s = _
  simp only [execSluiceCreditReturn, hx]

theorem State.sluiceIn_dst (hx : s.sluiceIn slot dst dport = some x) : x.dst = dst := by
  have h := List.find?_some hx
  simp only [Bool.and_eq_true, beq_iff_eq] at h
  exact h.1.2

/-- A message of a bound Sluice arrives, is recorded, sampled and measured, if there is one and its FIFO can take it. -/
theorem exec_sluiceMessageArrival (hx : s.sluiceIn slot dst dport = some x) :
    exec (.sluiceMessageArrival slot dst dport late bad) s = .next (
      if x.fly = [] ∨ s.canLand x = false then s
      else (((s.msgArrive x (s.wireOn x bad).isSome).noteBad (s.wireOn x bad)).sample 1 slot late).noteLate slot late) := by
  change execSluiceMessageArrival slot dst dport late bad s = _
  simp only [execSluiceMessageArrival, hx]
  rfl

/-- A wire of the path is the one that the arrival names. -/
theorem State.wireOn_of (h : ∀ w, bad = some w → wireReal w = true ∧
    s.usesUnit x (windowUnit (wireWindow w)).1 (windowUnit (wireWindow w)).2 = true) : s.wireOn x bad = bad := by
  cases bad with
  | none => rfl
  | some w =>
    obtain ⟨hreal, huses⟩ := h w rfl
    simp [State.wireOn, hreal, huses]

/-- The oldest message in flight stands in the FIFO of its Sluice, and its length queue has it. -/
theorem State.msgArrive_eq {msg : List Byte} {r : List (List Byte)} {marked : Bool} (hfly : x.fly = msg :: r) :
    s.msgArrive x marked = (s.setCore x.dst ((s.core x.dst).fifoPut x 0 msg)).setSluice { x with
      fly := r, wptr := (x.wptr + msg.length / 32) % x.fsize, lens := x.lens ++ [(msg.length / 32, marked)] } := by
  simp only [State.msgArrive, hfly]

/-- What the arrival of a message leaves, once it is recorded, sampled and measured. -/
theorem State.arrived_leaves {msg : List Byte} {r : List (List Byte)} (hfly : x.fly = msg :: r) :
    let t := (((s.msgArrive x bad.isSome).noteBad bad).sample 1 slot late).noteLate slot late
    t.mem = s.mem ∧ t.sluices = updFirst (sameSluice x) (fun _ => { x with
      fly := r, wptr := (x.wptr + msg.length / 32) % x.fsize, lens := x.lens ++ [(msg.length / 32, bad.isSome)] }) s.sluices ∧
    (∀ w, bad = some w → t.wearOf 0 w = s.wearOf 0 w + 256 ∧ t.evr.seq = (s.evr.seq + 1) % 2 ^ 32) ∧
    (∀ c, c ≠ x.dst → t.core c = s.core c) ∧ t.core x.dst = (s.core x.dst).fifoPut x 0 msg ∧
    t.get (F.SL_PIPE_EXCESS_MAXEXC slot) = max (s.get (F.SL_PIPE_EXCESS_MAXEXC slot)) (min late (2 ^ 32 - 1)) ∧
    t.get (F.SL_PIPE_EXCESS_LATE slot) = (if late = 0 then s.get (F.SL_PIPE_EXCESS_LATE slot)
      else min (2 ^ 32 - 1) (s.get (F.SL_PIPE_EXCESS_LATE slot) + 1)) := by
  have hoff : A.SL_PIPE_EXCESS slot ≠ A.EV_DROP := by simp only [A.SL_PIPE_EXCESS, A.EV_DROP]; omega
  rw [State.msgArrive_eq hfly]
  generalize ha : (s.setCore x.dst _).setSluice _ = a
  have hrec : Recorded a ((a.noteBad bad).sample 1 slot late) := (State.noteBad_records bad).trans (.sample _ _ _)
  have hmax := State.noteLate_max (s := (a.noteBad bad).sample 1 slot late) slot late
  have hcount := State.noteLate_count (s := (a.noteBad bad).sample 1 slot late) slot late
  rw [hrec.get hoff] at hmax hcount
  obtain ⟨regs, hlate⟩ := OnlyRegs.noteLate (s := (a.noteBad bad).sample 1 slot late) slot late
  dsimp only
  have hcores : ∀ c, (((a.noteBad bad).sample 1 slot late).noteLate slot late).core c = a.core c := fun c => by
    rw [hlate]
    exact congrArg (tabGet Core.idle · c) hrec.cores
  refine ⟨?mem, ?sluices, ?wire, fun c hc => (hcores c).trans ?others, (hcores x.dst).trans ?fifo, hmax.trans ?_, hcount.trans ?_⟩
  case mem => rw [hlate, ← show a.mem = s.mem by rw [← ha]; rfl]; exact hrec.mem
  case sluices => rw [hlate]; exact hrec.sluices.trans (by rw [← ha]; rfl)
  case wire =>
    rintro w rfl
    obtain ⟨-, hwear, hseq⟩ := State.badCodeword_records (s := a) w
    rw [hlate]
    exact ⟨hwear.trans (by rw [← ha]; rfl), hseq.trans (by rw [← ha]; rfl)⟩
  case others => rw [← ha]; exact State.core_setCore_ne hc
  case fifo => rw [← ha]; exact State.core_setCore_same
  all_goals rw [← ha]; rfl

theorem exec_sluiceCreditReturn {n : Nat} {r : List Nat} (hx : s.sluiceIn slot dst dport = some x) (hback : x.back = n :: r) :
    exec (.sluiceCreditReturn slot dst dport) s =
      .next (s.setSluice { x with back := r, units := x.units + n, msgs := x.msgs + 1 }) := by
  change execSluiceCreditReturn slot dst dport s = _
  simp only [execSluiceCreditReturn, hx, State.credit, hback]

end

/-! ### SLUICE_STALL_TIMEOUT, R230 -/

section
variable {s : State} {core group : Nat}

/-- A group that does not wait, or a core that may not issue, raises nothing. -/
theorem exec_sluiceStallTimeout_idle
    (h : (∀ x ∈ (s.core core).stalls, x.group ≠ group) ∨ (s.core core).canIssue = false) :
    exec (.sluiceStallTimeout core group) s = .next s := by
  change execSluiceStallTimeout core group s = _
  unfold execSluiceStallTimeout
  dsimp only
  split
  · next x hfind =>
    have hgroup : x.group = group := by simpa using List.find?_some hfind
    rcases h with h | h
    · exact absurd hgroup (h x (List.mem_of_find?_eq_some hfind))
    · simp [h]
  · rfl

/-- The group that waits raises 0x3B on a core that may issue, and waits no longer. -/
theorem exec_sluiceStallTimeout {x : Stall} (hx : (s.core core).stalls.find? (fun x => x.group == group) = some x)
    (hissue : (s.core core).canIssue = true) : exec (.sluiceStallTimeout core group) s =
      .next ((s.setCore core { s.core core with stalls := (s.core core).stalls.filter (· != x) }).raise core x.group x.pc x.word
        ((s.core core).fragment x.group x.pc) 0x3B) := by
  change execSluiceStallTimeout core group s = _
  simp only [execSluiceStallTimeout, hx, hissue, if_true]

/-- An exception that none precedes is the core's. -/
theorem State.raise_setCore {k : Core} {g pc w code : Nat} {lanes : List Nat} {i : ExcInfo} (hnone : k.exc = none) :
    (s.setCore core k).raise core g pc w lanes code i = (s.setCore core k).setCore core { k with
      exc := some ⟨code, g, pc, lanes, w, i.va, i.pa, i.level, i.write, i.fetch, i.extra⟩ } := by
  simp only [State.raise, State.core_setCore_same, hnone]

end

/-! ### The SL_ registers, R225, R227 -/

section
variable {s : State} {slot p : Nat} {v : BitVec 64}

theorem exec_pipeRecordClear_idle (h : s.barOk = false ∨ bit v.toNat 0 = false) :
    exec (.pipeRecordClear slot v) s = .next s := by
  change Host.Outcome.next (if slot < 64 ∧ s.barOk = true then s.pipeClear slot v.toNat else s) = _
  split
  · next hgo =>
    rcases h with h | h
    · simp [h] at hgo
    · simp [State.pipeClear, h]
  · rfl

/-- The record of a pipeline after its clear. -/
def State.pipeCleared (s : State) (slot : Nat) : State := (s.set (F.SL_PIPE_STAT_SVC slot) 0).setRaw (A.SL_PIPE_EXCESS slot) 0

theorem exec_pipeRecordClear (hslot : slot < 64) (hbar : s.barOk = true) (hclr : bit v.toNat 0 = true) :
    exec (.pipeRecordClear slot v) s = .next (s.pipeCleared slot) := by
  change Host.Outcome.next (if slot < 64 ∧ s.barOk = true then s.pipeClear slot v.toNat else s) = _
  rw [if_pos ⟨hslot, hbar⟩, State.pipeClear, if_pos hclr, State.pipeCleared]

theorem OnlyRegs.pipeCleared : OnlyRegs s (s.pipeCleared slot) := (OnlyRegs.set _ _).trans (.setRaw _ _)

theorem State.raw_pipeCleared {off : Nat} (hstat : off ≠ A.SL_PIPE_STAT slot) (hexcess : off ≠ A.SL_PIPE_EXCESS slot) :
    (s.pipeCleared slot).raw off = s.raw off :=
  (State.raw_setRaw_ne hexcess).trans (State.raw_set_off hstat)

theorem State.pipeCleared_excess : (s.pipeCleared slot).get (F.SL_PIPE_EXCESS_MAXEXC slot) = 0 ∧
    (s.pipeCleared slot).get (F.SL_PIPE_EXCESS_LATE slot) = 0 := by
  have hzero : (s.pipeCleared slot).raw (A.SL_PIPE_EXCESS slot) = 0 := State.raw_setRaw_same
  exact ⟨State.get_of_raw_zero (F.SL_PIPE_EXCESS_MAXEXC slot) hzero, State.get_of_raw_zero (F.SL_PIPE_EXCESS_LATE slot) hzero⟩

/-- SVC reads zero, and the other fields of SL_PIPE_STAT keep their values. -/
theorem State.pipeCleared_stat : (s.pipeCleared slot).get (F.SL_PIPE_STAT_SVC slot) = 0 ∧
    (s.pipeCleared slot).on (F.SL_PIPE_STAT_BOUND slot) = s.on (F.SL_PIPE_STAT_BOUND slot) ∧
    (s.pipeCleared slot).on (F.SL_PIPE_STAT_DEGRADED slot) = s.on (F.SL_PIPE_STAT_DEGRADED slot) ∧
    (s.pipeCleared slot).get (F.SL_PIPE_STAT_PART slot) = s.get (F.SL_PIPE_STAT_PART slot) := by
  have hoff : A.SL_PIPE_STAT slot ≠ A.SL_PIPE_EXCESS slot := by simp only [A.SL_PIPE_STAT, A.SL_PIPE_EXCESS]; omega
  have hkeep : ∀ g : Fld, g.off = A.SL_PIPE_STAT slot → g.hi < 32 → (s.pipeCleared slot).get g = s.get g := fun g hg hhi =>
    (State.get_setRaw_off (hg ▸ hoff)).trans (State.get_set_bits (by decide : 32 ≤ 63) (by omega) (.inl hhi))
  refine ⟨?_, congrArg (· == 1) (hkeep _ rfl (by decide : 0 < 32)), congrArg (· == 1) (hkeep _ rfl (by decide : 1 < 32)),
    hkeep _ rfl (by decide : 11 < 32)⟩
  rw [State.pipeCleared, State.get_setRaw_off hoff, State.get_set_same (by decide : 32 ≤ 63) (by decide : 63 < 64), Nat.zero_mod]

/-- The sum of a share's field over the other partitions. -/
def State.shareRest (s : State) (p : Nat) (f : Nat → Fld) : Nat :=
  (((List.range 16).filter (· ≠ p)).map fun q => s.get (f q)).foldl (· + ·) 0

/-- A share above 64, or a sum of shares above 64. -/
def State.shareSum (s : State) (p seam bridge : Nat) : Bool :=
  decide (64 < seam ∨ 64 < bridge ∨ 64 < seam + s.shareRest p F.SL_SHARE_SEAM ∨ 64 < bridge + s.shareRest p F.SL_SHARE_BRIDGE)

/-- A pipeline of the partition is bound. -/
def State.shareBusy (s : State) (p : Nat) : Bool :=
  (List.range 64).any fun n => s.on (F.SL_PIPE_STAT_BOUND n) && s.get (F.SL_PIPE_STAT_PART n) == p

theorem State.shareBusy_iff : s.shareBusy p = true ↔
    ∃ n, n < 64 ∧ s.on (F.SL_PIPE_STAT_BOUND n) = true ∧ s.get (F.SL_PIPE_STAT_PART n) = p := by
  simp only [State.shareBusy, List.any_eq_true, List.mem_range, Bool.and_eq_true, beq_iff_eq]

/-- The reasons of an ignored share in SL_ERR. -/
def State.shareErr (s : State) (sum busy : Bool) : State :=
  let t := if sum then s.set F.SL_ERR_SUM 1 else s
  if busy then t.set F.SL_ERR_BUSY 1 else t

theorem State.slShareWrite_eq {n : Nat} : s.slShareWrite p n =
    let sum := s.shareSum p (bits n 6 0) (bits n 14 8)
    let busy := s.shareBusy p
    if sum || busy then (s.shareErr sum busy, false)
    else (((s.shareErr sum busy).set (F.SL_SHARE_SEAM p) (bits n 6 0)).set (F.SL_SHARE_BRIDGE p) (bits n 14 8), true) := rfl

theorem OnlyRegs.shareErr (sum busy : Bool) : OnlyRegs s (s.shareErr sum busy) := by
  cases sum <;> cases busy <;> exact ⟨_, rfl⟩

theorem OnlyRegs.slShareWrite {n : Nat} : OnlyRegs s (s.slShareWrite p n).1 := by
  rw [State.slShareWrite_eq]
  dsimp only
  split
  · exact .shareErr _ _
  · exact ((OnlyRegs.shareErr _ _).trans (.set _ _)).trans (.set _ _)

theorem State.raw_shareErr {sum busy : Bool} {off : Nat} (h : off ≠ A.SL_ERR) : (s.shareErr sum busy).raw off = s.raw off := by
  have hsum : (if sum then s.set F.SL_ERR_SUM 1 else s).raw off = s.raw off := by
    split
    · exact State.raw_set_off h
    · rfl
  unfold State.shareErr
  dsimp only
  split
  · exact (State.raw_set_off h).trans hsum
  · exact hsum

/-- SL_ERR takes each reason that there is. -/
theorem State.on_shareErr {sum busy : Bool} :
    (s.shareErr sum busy).on F.SL_ERR_SUM = (s.on F.SL_ERR_SUM || sum) ∧
    (s.shareErr sum busy).on F.SL_ERR_BUSY = (s.on F.SL_ERR_BUSY || busy) := by
  have hsum : (if sum then s.set F.SL_ERR_SUM 1 else s).on F.SL_ERR_SUM = (s.on F.SL_ERR_SUM || sum) ∧
      (if sum then s.set F.SL_ERR_SUM 1 else s).on F.SL_ERR_BUSY = s.on F.SL_ERR_BUSY := by
    cases sum with
    | false => exact ⟨(Bool.or_false _).symm, rfl⟩
    | true => exact ⟨(State.on_set_same rfl (by decide)).trans (Bool.or_true _).symm,
        State.on_set_bits (by decide) (by decide) (.inr (by decide))⟩
  obtain ⟨hsum, hkept⟩ := hsum
  unfold State.shareErr
  dsimp only
  cases busy with
  | false => exact ⟨hsum, hkept.trans (Bool.or_false _).symm⟩
  | true => exact ⟨(State.on_set_bits (by decide) (by decide) (.inl (by decide))).trans hsum,
      (State.on_set_same rfl (by decide)).trans (Bool.or_true _).symm⟩

/-- A share that nothing ignores stands in SL_SHARE. -/
theorem State.slShareWrite_taken {n : Nat} (hsum : s.shareSum p (bits n 6 0) (bits n 14 8) = false) (hbusy : s.shareBusy p = false) :
    (s.slShareWrite p n).1.get (F.SL_SHARE_SEAM p) = bits n 6 0 ∧ (s.slShareWrite p n).1.get (F.SL_SHARE_BRIDGE p) = bits n 14 8 := by
  rw [State.slShareWrite_eq]
  simp only [hsum, hbusy, Bool.or_false, Bool.false_eq_true, if_false]
  constructor
  · rw [State.get_set_bits (by decide : 8 ≤ 14) (by decide : 6 < 64) (.inl (by decide : 6 < 8)),
      State.get_set_same (by decide : 0 ≤ 6) (by decide : 6 < 64)]
    exact Nat.mod_eq_of_lt (bits_lt n 6 0)
  · rw [State.get_set_same (by decide : 8 ≤ 14) (by decide : 14 < 64)]
    exact Nat.mod_eq_of_lt (bits_lt n 14 8)

theorem State.raw_slShareWrite {n off : Nat} (hshare : off ≠ A.SL_SHARE p) (herr : off ≠ A.SL_ERR) :
    (s.slShareWrite p n).1.raw off = s.raw off := by
  rw [State.slShareWrite_eq]
  dsimp only
  split
  · exact State.raw_shareErr herr
  · exact ((State.raw_set_off hshare).trans (State.raw_set_off hshare)).trans (State.raw_shareErr herr)

theorem State.raw_slShareWrite_ignored {n : Nat} (hp : p < 16)
    (h : s.shareSum p (bits n 6 0) (bits n 14 8) = true ∨ s.shareBusy p = true) :
    (s.slShareWrite p n).1.raw (A.SL_SHARE p) = s.raw (A.SL_SHARE p) := by
  rw [State.slShareWrite_eq]
  dsimp only
  rw [if_pos (by simpa using h)]
  exact State.raw_shareErr (by simp only [A.SL_SHARE, A.SL_ERR]; omega)

theorem State.on_slShareWrite {n : Nat} (hp : p < 16) :
    (s.slShareWrite p n).1.on F.SL_ERR_SUM = (s.on F.SL_ERR_SUM || s.shareSum p (bits n 6 0) (bits n 14 8)) ∧
    (s.slShareWrite p n).1.on F.SL_ERR_BUSY = (s.on F.SL_ERR_BUSY || s.shareBusy p) := by
  have hoff : A.SL_ERR ≠ A.SL_SHARE p := by simp only [A.SL_SHARE, A.SL_ERR]; omega
  obtain ⟨hsum, hbusy⟩ := State.on_shareErr (s := s) (sum := s.shareSum p (bits n 6 0) (bits n 14 8)) (busy := s.shareBusy p)
  rw [State.slShareWrite_eq]
  dsimp only
  split
  · exact ⟨hsum, hbusy⟩
  · exact ⟨((State.on_set_off hoff).trans (State.on_set_off hoff)).trans hsum,
      ((State.on_set_off hoff).trans (State.on_set_off hoff)).trans hbusy⟩

theorem exec_slShareWrite (hp : p < 16) (hbar : s.barOk = true) : exec (.slShareWrite p v) s = .next (s.slShareWrite p v.toNat).1 := by
  change Host.Outcome.next (if p < 16 ∧ s.barOk = true then _ else s) = _
  rw [if_pos ⟨hp, hbar⟩]

end

/-- Settles O38: each row by what it answers; the arrival by `State.arrived_leaves`, a share by the reasons that ignore it. -/
theorem sluiceRowsAndShares : Obligations.SluiceRowsAndShares := by
  intro s slot dst dport
  refine ⟨fun h => ⟨fun late bad => exec_sluiceMessageArrival_unbound h, exec_sluiceCreditReturn_unbound h⟩,
    fun x late bad hx h => ?idle, fun x late bad msg r hx hfly hland hbad => ?arrives, fun x late w hx hw => ?stranger,
    fun x n r hx hback => exec_sluiceCreditReturn hx hback, fun core group x hx hissue => ?stalls,
    fun core group h => exec_sluiceStallTimeout_idle h, fun v hslot hbar hclr => ?clears,
    fun v h => exec_pipeRecordClear_idle h, fun p v hp hbar => ?share⟩
  case idle =>
    obtain rfl := State.sluiceIn_dst hx
    have hstays : x.fly = [] ∨ s.canLand x = false := h
    rw [exec_sluiceMessageArrival hx, if_pos hstays]
  case arrives =>
    obtain rfl := State.sluiceIn_dst hx
    have hwire : s.wireOn x bad = bad := State.wireOn_of hbad
    have hgo : ¬(x.fly = [] ∨ s.canLand x = false) := by simp [hfly, State.canLand, hland]
    obtain ⟨hmem, hsluices, hnoted, hothers, hcore, hmax, hlate⟩ :=
      State.arrived_leaves (s := s) (slot := slot) (late := late) (bad := bad) hfly
    refine ⟨_, by rw [exec_sluiceMessageArrival hx, if_neg hgo, hwire], hmem, hsluices, hnoted, hothers, ?_, ?_, hmax, hlate⟩
    · rw [hcore]
      exact Core.WellOnly.fifoPut.threads
    · intro _ hfit i b hb
      rw [hcore]
      have h := Core.fifoPut_get (k := s.core x.dst) (x := x) (i := 0) (by omega) hb
      rwa [Nat.zero_add] at h
  case stranger =>
    have hwire : s.wireOn x (some w) = s.wireOn x none := by rw [State.wireOn, Option.filter_some, hw]; rfl
    rw [exec_sluiceMessageArrival hx, exec_sluiceMessageArrival hx, hwire]
  case stalls =>
    have hexc : (s.core core).exc = none := by
      simpa [Core.canIssue] using (Bool.and_eq_true_iff.mp hissue).2
    refine ⟨_, (exec_sluiceStallTimeout hx hissue).trans (congrArg Host.Outcome.next (State.raise_setCore hexc)), rfl,
      fun c hc => ?_, State.core_setCore_same⟩
    rw [State.core_setCore_ne hc, State.core_setCore_ne hc]
  case clears =>
    obtain ⟨hsvc, hstat⟩ := State.pipeCleared_stat (s := s) (slot := slot)
    obtain ⟨hmax, hlate⟩ := State.pipeCleared_excess (s := s) (slot := slot)
    obtain ⟨hbound, hdegraded, hpart⟩ := hstat
    exact ⟨_, exec_pipeRecordClear hslot hbar hclr, hsvc, hmax, hlate, hbound, hdegraded, hpart, OnlyRegs.pipeCleared.rest,
      fun off => State.raw_pipeCleared⟩
  case share =>
    intro seam bridge rest sum busy
    have hsum : s.shareSum p seam bridge = true ↔ sum := decide_eq_true_iff
    have hbusy : s.shareBusy p = true ↔ busy := State.shareBusy_iff
    obtain ⟨hsumErr, hbusyErr⟩ := State.on_slShareWrite (s := s) (n := v.toNat) hp
    refine ⟨_, exec_slShareWrite hp hbar, OnlyRegs.slShareWrite.rest, fun h => ?_, fun h => ?_, ?_, ?_,
      fun off hshare herr => State.raw_slShareWrite hshare herr⟩
    · exact State.raw_slShareWrite_ignored hp (h.imp hsum.mpr hbusy.mpr)
    · exact State.slShareWrite_taken (Bool.eq_false_iff.mpr fun h' => h (.inl (hsum.mp h')))
        (Bool.eq_false_iff.mpr fun h' => h (.inr (hbusy.mp h')))
    · rw [hsumErr, Bool.or_eq_true, hsum]
    · rw [hbusyErr, Bool.or_eq_true, hbusy]

end Sys2Proof.Machine
end

section
/-! SUPPORT. SNAPSHOT, REGULATE and CONFIG_SELECT (R363, R504, R529): how a row that starts a command, or lets it look again,
answers, and what the three commands do. -/

namespace Sys2Proof.Machine

/-! ### Commands that start, R364, R365 -/

section
variable {s : State} {c : Cmd}

/-- A command that has not ended before it starts. -/
theorem State.open_of_mayStart (h : s.mayStart c = true) : c.ended = false := by
  simp only [State.mayStart, Bool.and_eq_true, Bool.not_eq_true'] at h
  simp only [h]

theorem State.open_of_mayRetry (h : s.mayRetry c = true) : c.ended = false := by
  simp only [State.mayRetry, Bool.and_eq_true, Bool.not_eq_true'] at h
  simp only [h]

theorem State.cmd_begun (hc : s.cmd c.id = some c) : (s.begun c).cmd c.id = some { c with started := true } :=
  find?_updFirst hc (by simp)

/-- A command that has begun ends with the status, source and result given. -/
theorem State.cmd_begun_endCmd {status source result : Nat} (hc : s.cmd c.id = some c) (hopen : c.ended = false) :
    ((s.begun c).endCmd c.id status source result).cmd c.id =
      some { c with started := true, ended := true, status := status, source := source, result := result } :=
  State.cmd_endCmd (State.cmd_begun hc) hopen

variable {form : Cmd → Bool} {f : Cmd → State → State}

/-- A row of another form, or of a command that may not start, changes nothing. -/
theorem State.starting_idle (hc : s.cmd c.id = some c) (h : form c = false ∨ s.mayStart c = false) :
    s.starting c.id form f = s := by
  simp only [State.starting, hc]
  exact if_neg (by rcases h with h | h <;> simp [h])

/-- A command that may start does so. -/
theorem State.starting_starts (hc : s.cmd c.id = some c) (hform : form c = true) (hstart : s.mayStart c = true)
    (hserved : (f c s).coh.stalled = false) : s.starting c.id form f = f c s := by
  simp only [State.starting, hc, hform, hstart, Bool.and_self, if_true]
  exact State.unlessStalled_of_served s hserved

theorem State.waiting_idle (hc : s.cmd c.id = some c) (h : form c = false ∨ s.mayStart c = false ∧ s.mayRetry c = false) :
    s.waiting c.id form f = s := by
  simp only [State.waiting, hc]
  exact if_neg (by rcases h with h | ⟨h, h'⟩ <;> simp [*])

/-- A command that may start, or look again, does so. -/
theorem State.waiting_goes (hc : s.cmd c.id = some c) (hform : form c = true) (hgo : s.mayStart c = true ∨ s.mayRetry c = true)
    (hserved : (f c s).coh.stalled = false) : s.waiting c.id form f = f c s := by
  simp only [State.waiting, hc, hform, Bool.true_and, Bool.or_eq_true, hgo, if_true]
  exact State.unlessStalled_of_served s hserved

end

/-! ### SNAPSHOT -/

section
variable {s : State} {c : Cmd}

/-- Operations on registers, one after another, change registers alone. -/
theorem OnlyRegs.each {α : Type} {f : State → α → State} (hf : ∀ s a, OnlyRegs s (f s a)) (l : List α) :
    OnlyRegs s (s.each l f) := by
  induction l generalizing s with
  | nil => exact .refl s
  | cons a l ih => exact (hf s a).trans ih

theorem OnlyRegs.coh {t : State} (h : OnlyRegs s t) : t.coh = s.coh := by
  obtain ⟨_, rfl⟩ := h
  rfl

/-- A request for a snapshot leaves the memory system. -/
theorem State.snapRequest_coh {cmd : Nat} : (s.snapRequest cmd).coh = s.coh := by
  unfold State.snapRequest
  split
  · rfl
  · exact ((OnlyRegs.each (fun _ _ => .set _ _) _).trans (.set _ _)).coh

theorem exec_snapshot_idle (hc : s.cmd c.id = some c) (h : c.op ≠ 0x13 ∨ s.mayStart c = false) :
    exec (.snapshot c.id) s = .next s :=
  congrArg Host.Outcome.next (State.starting_idle hc (h.imp (fun h => by simp [h]) id))

/-- A SNAPSHOT that may start asks the recorder. -/
theorem exec_snapshot (h : Startable s 0x13 c) : exec (.snapshot c.id) s = .next ((s.begun c).snapRequest c.id) := by
  obtain ⟨hc, hop, hstart, hserved⟩ := h
  exact congrArg Host.Outcome.next (State.starting_starts (form := fun c => c.op == 0x13)
    (f := fun c s => (s.begun c).snapRequest c.id) hc (by simp [hop]) hstart
    ((congrArg Coh.stalled State.snapRequest_coh).trans hserved))

/-! ### REGULATE -/

/-- A write that two checks may refuse changes registers alone, when each of its ends does. -/
theorem OnlyRegs.checked {range sum : Prop} [Decidable range] [Decidable sum] {t u v : State} (ht : OnlyRegs s t)
    (hu : OnlyRegs s u) (hv : OnlyRegs s v) :
    OnlyRegs s (if range then (t, false) else if sum then (u, false) else (v, true)).1 := by
  split
  · exact ht
  · split
    · exact hu
    · exact hv

theorem OnlyRegs.mcRegWrite {p v : Nat} : OnlyRegs s (s.mcRegWrite p v).1 :=
  .checked (.set _ _) (.set _ _) ((OnlyRegs.set _ _).trans (.set _ _))

theorem OnlyRegs.fabRegWrite {p v : Nat} : OnlyRegs s (s.fabRegWrite p v).1 :=
  .checked (.set _ _) (.set _ _) ((OnlyRegs.set _ _).trans (.set _ _))

theorem OnlyRegs.pkgLimitWrite {v : Nat} : OnlyRegs s (s.pkgLimitWrite v).1 := by
  unfold State.pkgLimitWrite
  dsimp only
  split <;> exact .set _ _

section
variable {target : Nat} {f : State → Nat → Nat → State × Bool}

theorem State.regulate_idle (hc : s.cmd c.id = some c) (h : c.op ≠ 0x16 ∨ bits (c.word 16) 3 0 ≠ target ∨ s.mayStart c = false) :
    s.regulate c.id target f = s := by
  refine State.starting_idle hc ?_
  rcases h with h | h | h
  · exact .inl (by simp [h])
  · exact .inl (by simp [h])
  · exact .inr h

/-- A REGULATE makes the write of its target and is over, with 0x5C where the target ignored the write. -/
theorem State.regulate_leaves (h : Startable s 0x16 c) (htarget : bits (c.word 16) 3 0 = target)
    (hf : OnlyRegs s (f s (bits (c.word 16) 11 8) (c.word 24)).1) :
    let r := f s (bits (c.word 16) 11 8) (c.word 24)
    let t := s.regulate c.id target f
    t.cmd c.id = some { c with started := true, ended := true, status := if r.2 then 0 else 0x5C, source := 0, result := 0 } ∧
    t.mem = s.mem ∧ t.regs = r.1.regs := by
  obtain ⟨hc, hop, hstart, hserved⟩ := h
  have heq := State.starting_starts (form := fun c => c.op == 0x16 && bits (c.word 16) 3 0 == target)
    (f := fun c s => ((f s (bits (c.word 16) 11 8) (c.word 24)).1.begun c).endCmd c.id
      (if (f s (bits (c.word 16) 11 8) (c.word 24)).2 then 0 else 0x5C) 0 0) hc (by simp [hop, htarget]) hstart
    ((congrArg Coh.stalled hf.coh).trans hserved)
  dsimp only
  rw [State.regulate, heq]
  generalize f s (bits (c.word 16) 11 8) (c.word 24) = r at hf ⊢
  obtain ⟨t, taken⟩ := r
  obtain ⟨regs, rfl⟩ := hf
  exact ⟨State.cmd_begun_endCmd (s := { s with regs := regs }) hc (State.open_of_mayStart hstart), rfl, rfl⟩

end

/-! ### CONFIG_SELECT, R504 -/

/-- A flash operation runs, or this command's own has ended. -/
def State.selBusy (s : State) (id : Nat) : Bool :=
  s.on F.BT_UPD_CTL_BUSY || s.boot.upd.isSome || (tabFind s.boot.selDone id).isSome

theorem State.selBusy_iff {id : Nat} : s.selBusy id = true ↔
    s.on F.BT_UPD_CTL_BUSY = true ∨ s.boot.upd ≠ none ∨ tabFind s.boot.selDone id ≠ none := by
  simp only [State.selBusy, Bool.or_eq_true, Option.isSome_iff_ne_none, or_assoc]

/-- The flash write that CONFIG_SELECT begins with a slot's bytes. -/
def State.selOp (s : State) (id : Nat) (l : List Byte) : FlashOp :=
  ⟨8, s.selDev, offCfg, cfgWithSeq l (s.selSeq + 1), 0, [], id⟩

/-- The end of a CONFIG_SELECT with a code. -/
def State.selEnd (s : State) (c : Cmd) (code : Nat) : State :=
  (s.begun c).endCmd c.id code 0 (if code = 0 then bits (c.word 24) 31 0 else 0)

/-- What a CONFIG_SELECT does once it has started. -/
def State.selGo (s : State) (c : Cmd) (slot : Nat) : State :=
  if s.selBusy c.id then s.begun c
  else
    match s.selImage slot (bits (c.word 24) 31 0) with
    | none => s.selEnd c 0x5C
    | some l =>
      if slot = 0 then s.selEnd c 0
      else if 0xFFFFFFFE < s.selSeq + 1 ∨ s.flashThere s.selDev = false then s.selEnd c 0x5C
      else ({ s.begun c with boot := { s.boot with upd := some (s.selOp c.id l) } } : State).flashBegin (s.selOp c.id l)

theorem State.flashErase_coh {dev off k : Nat} : (s.flashErase dev off k).coh = s.coh := by
  unfold State.flashErase
  split
  · rfl
  · split <;> rfl

theorem State.flashProg_coh {dev off : Nat} {l : List Byte} : (s.flashProg dev off l).coh = s.coh := by
  unfold State.flashProg
  split
  · rfl
  · split <;> rfl

theorem State.selGo_coh {slot : Nat} : (s.selGo c slot).coh = s.coh := by
  unfold State.selGo
  split
  · rfl
  · split
    · rfl
    · split
      · rfl
      · split
        · rfl
        · exact State.flashProg_coh.trans State.flashErase_coh

/-- A CONFIG_SELECT of another form, or that may neither start nor look again, changes nothing. -/
theorem State.configSelect_idle {slot : Nat} (hc : s.cmd c.id = some c)
    (h : c.op ≠ 0x17 ∨ bits (c.word 16) 1 0 ≠ slot ∨ (s.mayStart c = false ∧ s.mayRetry c = false)) :
    s.configSelect c.id slot = s := by
  refine State.waiting_idle hc ?_
  rcases h with h | h | h
  · exact .inl (by simp [h])
  · exact .inl (by simp [h])
  · exact .inr h

theorem State.configSelect_goes {slot : Nat} (hc : s.cmd c.id = some c) (hop : c.op = 0x17) (hslot : bits (c.word 16) 1 0 = slot)
    (hgo : s.mayStart c = true ∨ s.mayRetry c = true) (hserved : s.coh.stalled = false) :
    s.configSelect c.id slot = s.selGo c slot :=
  State.waiting_goes (f := fun c s => s.selGo c slot) hc (by simp [hop, hslot]) hgo
    ((congrArg Coh.stalled State.selGo_coh).trans hserved)

theorem State.selGo_busy {slot : Nat} (h : s.selBusy c.id = true) : s.selGo c slot = s.begun c := by
  rw [State.selGo, if_pos h]

section
variable {slot : Nat} (hidle : s.selBusy c.id = false)
include hidle

theorem State.selGo_missing (h : s.selImage slot (bits (c.word 24) 31 0) = none) : s.selGo c slot = s.selEnd c 0x5C := by
  rw [State.selGo, if_neg (by simp [hidle]), h]

variable {l : List Byte} (himage : s.selImage slot (bits (c.word 24) 31 0) = some l)
include himage

theorem State.selGo_current (hslot : slot = 0) : s.selGo c slot = s.selEnd c 0 := by
  rw [State.selGo, if_neg (by simp [hidle]), himage]
  exact if_pos hslot

/-- A SEQ that cannot rise, or an absent device, ends the command with 0x5C (log 50). -/
theorem State.selGo_unwritable (hslot : slot ≠ 0) (h : 0xFFFFFFFE < s.selSeq + 1 ∨ s.flashThere s.selDev = false) :
    s.selGo c slot = s.selEnd c 0x5C := by
  rw [State.selGo, if_neg (by simp [hidle]), himage]
  exact (if_neg hslot).trans (if_pos h)

theorem State.selGo_writes (hslot : slot ≠ 0) (hseq : s.selSeq + 1 ≤ 0xFFFFFFFE) (hthere : s.flashThere s.selDev = true) :
    s.selGo c slot =
      ({ s.begun c with boot := { s.boot with upd := some (s.selOp c.id l) } } : State).flashBegin (s.selOp c.id l) := by
  rw [State.selGo, if_neg (by simp [hidle]), himage]
  refine (if_neg hslot).trans (if_neg ?_)
  rintro (h | h)
  · omega
  · exact absurd (hthere.symm.trans h) Bool.noConfusion

end

/-- The end of a CONFIG_SELECT changes its command alone. -/
theorem State.selEnd_leaves (hc : s.cmd c.id = some c) (hopen : c.ended = false) (code : Nat) :
    OnlyCmds s (s.selEnd c code) ∧ (s.selEnd c code).cmd c.id = some { c with
      started := true, ended := true, status := code, source := 0, result := if code = 0 then bits (c.word 24) 31 0 else 0 } :=
  ⟨rfl, State.cmd_begun_endCmd hc hopen⟩

end

/-- Settles O46: each command by what it does once it starts. That a SEQ that cannot rise or an absent flash gives 0x5C is
the model's choice (log 50). -/
theorem snapshotsRegulationAndSelection : Obligations.SnapshotsRegulationAndSelection := by
  intro s c hc
  refine ⟨exec_snapshot_idle hc, fun h => ⟨exec_snapshot h, State.cmd_begun hc⟩, ?regulate, ?select⟩
  case regulate =>
    intro n v rows e he
    have hrow : ∃ f : State → Nat → Nat → State × Bool, f s n v = e.2.2 ∧ OnlyRegs s (f s n v).1 ∧
        exec e.2.1 s = .next (s.regulate c.id e.1 f) := by
      simp only [rows, List.mem_cons, List.not_mem_nil, or_false] at he
      rcases he with rfl | rfl | rfl | rfl
      · exact ⟨State.mcRegWrite, rfl, .mcRegWrite, rfl⟩
      · exact ⟨State.fabRegWrite, rfl, .fabRegWrite, rfl⟩
      · exact ⟨fun s _ v => s.pkgLimitWrite v, rfl, .pkgLimitWrite, rfl⟩
      · exact ⟨State.slShareWrite, rfl, .slShareWrite, rfl⟩
    obtain ⟨f, hf, hregs, hexec⟩ := hrow
    refine ⟨fun h => by rw [hexec, State.regulate_idle hc h], fun h htarget => ⟨_, hexec, ?_⟩⟩
    rw [← hf]
    exact State.regulate_leaves h htarget hregs
  case select =>
    intro rows e he ver mine busy ends
    have hexec : exec e.2 s = .next (s.configSelect c.id e.1) := by
      simp only [rows, List.mem_cons, List.not_mem_nil, or_false] at he
      rcases he with rfl | rfl | rfl <;> rfl
    have hgoes : mine → exec e.2 s = .next (s.selGo c e.1) := fun ⟨hop, hslot, hgo, hserved⟩ => by
      rw [hexec, State.configSelect_goes hc hop hslot hgo hserved]
    have hidle : ¬busy → s.selBusy c.id = false := fun h => Bool.eq_false_iff.mpr fun h' => h (State.selBusy_iff.mp h')
    have hends : ∀ code, mine → s.selGo c e.1 = s.selEnd c code → ends code := fun code hmine hend => by
      have hopen : c.ended = false := hmine.2.2.1.elim State.open_of_mayStart State.open_of_mayRetry
      exact ⟨s.selEnd c code, by rw [hgoes hmine, hend], State.selEnd_leaves hc hopen code⟩
    refine ⟨fun h => by rw [hexec, State.configSelect_idle hc h], fun hmine hbusy => ?busy, fun hmine hb himage => ?missing,
      fun hmine hb himage hslot => ?current, fun hmine hb himage hslot h => ?unwritable,
      fun l hmine hb himage hslot hseq hthere => ?writes⟩
    case busy => rw [hgoes hmine, State.selGo_busy (State.selBusy_iff.mpr hbusy)]
    case missing => exact hends _ hmine (State.selGo_missing (hidle hb) himage)
    case current =>
      obtain ⟨l, himage⟩ := Option.ne_none_iff_exists'.mp himage
      exact hends _ hmine (State.selGo_current (hidle hb) himage hslot)
    case unwritable =>
      obtain ⟨l, himage⟩ := Option.ne_none_iff_exists'.mp himage
      exact hends _ hmine (State.selGo_unwritable (hidle hb) himage hslot h)
    case writes =>
      rw [hgoes hmine, State.selGo_writes (hidle hb) himage hslot hseq hthere]
      rfl

end Sys2Proof.Machine
end

section
/-! SUPPORT. The ways of the data array (R266, R267, R292): what a way given to an absent line leaves as it was; and that
whether one is found depends neither on the cluster caches nor on the write-back buffers nor on the serial. -/

namespace Sys2Proof

section
variable {β γ : Type} {f : Nat → β → γ}

/-- A table with each value changed by its key. -/
def tabMap (f : Nat → β → γ) (t : Tab β) : Tab γ := t.map fun e => (e.1, f e.1 e.2)

theorem tabFind_tabMap {i : Nat} : ∀ {t : Tab β}, tabFind (tabMap f t) i = (tabFind t i).map (f i)
  | [] => rfl
  | (k, v) :: t => by
    have ih := tabFind_tabMap (i := i) (t := t)
    simp only [tabMap] at ih
    simp only [tabMap, List.map_cons, tabFind, ih]
    split
    · next h => rw [h]; rfl
    · rfl

theorem tabDel_tabMap {i : Nat} : ∀ {t : Tab β}, tabDel (tabMap f t) i = tabMap f (tabDel t i)
  | [] => rfl
  | (k, v) :: t => by
    have ih := tabDel_tabMap (i := i) (t := t)
    simp only [tabMap] at ih
    simp only [tabMap, List.map_cons, tabDel, ih]
    split <;> rfl

theorem tabIns_tabMap {i : Nat} {x : β} : ∀ {t : Tab β}, tabIns (tabMap f t) i (f i x) = tabMap f (tabIns t i x)
  | [] => rfl
  | (k, v) :: t => by
    have ih := tabIns_tabMap (i := i) (x := x) (t := t)
    simp only [tabMap] at ih
    simp only [tabMap, List.map_cons, tabIns, ih]
    split
    · rfl
    · split <;> rfl

end

/-- What a table reads as at a key that has been removed. -/
theorem tabFind_del_same {β : Type} {i : Nat} : ∀ {t : Tab β}, tabFind (tabDel t i) i = none
  | [] => rfl
  | (k, v) :: t => by
    simp only [tabDel]
    split
    · exact tabFind_del_same
    · next h =>
      simp only [tabFind, h, if_false]
      exact tabFind_del_same

end Sys2Proof

namespace Sys2Proof.Machine

/-! ### Ways for several lines in turn, R292 -/

/-- Absent lines get ways in turn. -/
def State.placeAll (s : State) (l : List Nat) : Option State := l.foldl (fun o line => o.bind fun s => s.cisPlace line) (some s)

theorem State.placeAll_cons {s : State} {line : Nat} {l : List Nat} :
    s.placeAll (line :: l) = (s.cisPlace line).bind fun t => t.placeAll l := by
  unfold State.placeAll
  rw [List.foldl_cons, Option.bind_some]
  cases s.cisPlace line with
  | some t => rfl
  | none =>
    induction l with
    | nil => rfl
    | cons line l ih => exact ih

theorem State.cisAlloc_eq {s : State} {line : Nat} :
    s.cisAlloc line = if (s.cisFind line).isSome then some s else s.placeAll (s.redsFirst line ++ [line]) := by
  unfold State.cisAlloc
  cases s.cisFind line <;> rfl

/-- The state in which an absent line has taken way w, empty. -/
def State.placed (s : State) (line w : Nat) : State :=
  s.tick.2.setCis line ⟨s.homeSlice line, lineSet line, w, [], 0, 0, 0, false, s.coh.serial⟩

theorem State.cisPlace_eq {s : State} {line : Nat} :
    s.cisPlace line = (s.takeWay (s.homeSlice line) (lineSet line) none).map fun x => x.2.placed line x.1 := by
  unfold State.cisPlace
  cases s.takeWay (s.homeSlice line) (lineSet line) none <;> rfl

/-! ### What a way leaves unchanged -/

/-- The memory system of `t` is that of `s` but for the data array and the serial. -/
def OnlyWays (s t : State) : Prop := t.coh = { s.coh with cis := t.coh.cis, serial := t.coh.serial }

namespace OnlyWays

variable {s t u : State}

theorem of_coh (h : t.coh = s.coh) : OnlyWays s t := by rw [OnlyWays, h]

theorem refl (s : State) : OnlyWays s s := rfl

theorem trans (h : OnlyWays s t) (g : OnlyWays t u) : OnlyWays s u := by
  unfold OnlyWays at *
  rw [g, h]

theorem cc (h : OnlyWays s t) : t.coh.cc = s.coh.cc := by rw [h]
theorem wb (h : OnlyWays s t) : t.coh.wb = s.coh.wb := by rw [h]
theorem reds (h : OnlyWays s t) : t.coh.reds = s.coh.reds := by rw [h]

theorem cisEvict (line : Nat) : OnlyWays s (s.cisEvict line) := by
  unfold State.cisEvict
  split
  · exact refl s
  · split
    · exact rfl
    · exact (of_coh (Laws.memWrite_coh _ _ _ _)).trans rfl

theorem takeWay {slice set w : Nat} {pin : Option Nat} (h : s.takeWay slice set pin = some (w, t)) : OnlyWays s t := by
  unfold State.takeWay at h
  dsimp only at h
  split at h
  · cases h; exact refl s
  · split at h
    · cases h; exact cisEvict _
    · cases h

theorem cisPlace {line : Nat} (h : s.cisPlace line = some t) : OnlyWays s t := by
  rw [State.cisPlace_eq] at h
  obtain ⟨⟨w, u⟩, hway, rfl⟩ := Option.map_eq_some_iff.mp h
  exact (takeWay hway).trans rfl

theorem placeAll {l : List Nat} (h : s.placeAll l = some t) : OnlyWays s t := by
  induction l generalizing s with
  | nil => cases h; exact refl _
  | cons line l ih =>
    rw [State.placeAll_cons] at h
    obtain ⟨u, hplace, hrest⟩ := Option.bind_eq_some_iff.mp h
    exact (cisPlace hplace).trans (ih hrest)

theorem cisAlloc {line : Nat} (h : s.cisAlloc line = some t) : OnlyWays s t := by
  rw [State.cisAlloc_eq] at h
  split at h
  · cases h; exact refl s
  · exact placeAll h

theorem cisPut (line mask : Nat) (d : Data) (poison : Nat) (dirty : Bool) : OnlyWays s (s.cisPut line mask d poison dirty) := by
  unfold State.cisPut
  split
  · exact refl s
  · exact rfl

theorem allocW {line : Nat} (h : s.allocW line = some t) : OnlyWays s t := by
  unfold State.allocW at h
  split at h
  · cases h
  · next u halloc =>
    refine (cisAlloc halloc).trans ?_
    split at h
    · cases h
      refine of_coh ?_
      split
      · exact Laws.thrash_coh _
      · rfl
    · cases h; exact refl _

theorem homeTake {line : Nat} {d : Data × Nat} (h : s.homeTake line d = some t) : OnlyWays s t := by
  obtain ⟨u, halloc, rfl⟩ := Option.map_eq_some_iff.mp h
  exact (allocW halloc).trans (cisPut _ _ _ _ _)

end OnlyWays

/-! ### When a way is found -/

/-- A line of the data array as the search for a way sees it: one with buffered reductions (RP) is not evicted, whenever it
was used last. -/
def forWay (reds : List RedEnt) (line : Nat) (c : CisLine) : CisLine :=
  if reds.any fun r => r.line == line then { c with use := 0 } else c

/-- The state with another memory system. -/
def State.withCoh (s : State) (c : Coh) : State := { s with coh := c }

/-- The state as the search for a way sees it. -/
def State.forWays (s : State) : State :=
  s.withCoh { s.coh with cc := [], wb := [], serial := 0, cis := tabMap (forWay s.coh.reds) s.coh.cis }

section
variable {s t : State}

/-- A write to memory neither reads nor changes the memory system between cores and memory. -/
theorem State.memWrite_withCoh {c : Coh} {line mask : Nat} {d : Data} {poison : Nat} :
    (s.withCoh c).memWrite line mask d poison = (s.memWrite line mask d poison).withCoh c := by
  unfold State.memWrite
  simp only [show (s.withCoh c).chunkPart (line * 128) = s.chunkPart (line * 128) from rfl,
    show ∀ p n, (s.withCoh c).chanAccess p (line * 128) n = (s.chanAccess p (line * 128) n).withCoh c from fun _ _ => rfl,
    show ∀ (t : State) f n, (t.withCoh c).count f n = (t.count f n).withCoh c from fun _ _ _ => rfl]
  generalize State.count _ _ _ = t
  simp only [show (t.withCoh c).dropsAt (line * 128) = t.dropsAt (line * 128) from rfl,
    show (t.withCoh c).lostAt (line * 128) = t.lostAt (line * 128) from rfl,
    show (t.withCoh c).rowHeld (line * 128) = t.rowHeld (line * 128) from rfl]
  cases t.dropsAt (line * 128) with
  | true => rfl
  | false => simp only [Bool.false_eq_true, if_false, State.withCoh]

theorem State.cisFind_forWays {line : Nat} :
    s.forWays.cisFind line = (s.cisFind line).map (forWay s.coh.reds line) := tabFind_tabMap

section
variable {reds : List RedEnt} {line : Nat} {c : CisLine}

/-- Only the stamp of a line's last use is hidden from the search. -/
theorem forWay_eq : forWay reds line c = { c with use := (forWay reds line c).use } := by
  unfold forWay
  split <;> rfl

@[simp] theorem forWay_slice : (forWay reds line c).slice = c.slice := by rw [forWay_eq]
@[simp] theorem forWay_set : (forWay reds line c).set = c.set := by rw [forWay_eq]
@[simp] theorem forWay_way : (forWay reds line c).way = c.way := by rw [forWay_eq]
@[simp] theorem forWay_pin : (forWay reds line c).pin = c.pin := by rw [forWay_eq]
@[simp] theorem forWay_data : (forWay reds line c).data = c.data := by rw [forWay_eq]
@[simp] theorem forWay_sd : (forWay reds line c).sd = c.sd := by rw [forWay_eq]
@[simp] theorem forWay_sp : (forWay reds line c).sp = c.sp := by rw [forWay_eq]

/-- Without buffered reductions a line is seen as it is. -/
theorem forWay_noReds (h : (reds.any fun r => r.line == line) = false) : forWay reds line c = c := by
  rw [forWay, h]
  rfl

/-- With buffered reductions the stamp of its last use is not seen. -/
theorem forWay_reds {n : Nat} (h : (reds.any fun r => r.line == line) = true) :
    forWay reds line { c with use := n } = forWay reds line c := by
  rw [forWay, forWay, h]
  rfl

theorem forWay_forWay : forWay reds line (forWay reds line c) = forWay reds line c := by
  cases h : reds.any fun r => r.line == line with
  | false => rw [forWay_noReds h]
  | true => rw [forWay_eq (c := c), forWay_reds h, ← forWay_eq]

end

/-! #### The operations of the search, on its view -/

theorem State.forWays_forWays : s.forWays.forWays = s.forWays := by
  have hcis : tabMap (forWay s.coh.reds) (tabMap (forWay s.coh.reds) s.coh.cis) = tabMap (forWay s.coh.reds) s.coh.cis := by
    simp only [tabMap, List.map_map]
    exact List.map_congr_left fun e _ => congrArg (Prod.mk e.1) forWay_forWay
  simp only [State.forWays, State.withCoh, hcis]

theorem State.setCis_forWays {line : Nat} {c : CisLine} :
    (s.setCis line c).forWays = s.forWays.setCis line (forWay s.coh.reds line c) := by
  simp only [State.setCis, State.forWays, State.withCoh, tabIns_tabMap]

theorem State.delCis_forWays {line : Nat} : (s.delCis line).forWays = s.forWays.delCis line := by
  simp only [State.delCis, State.forWays, State.withCoh, tabDel_tabMap]

theorem State.memWrite_forWays {line mask : Nat} {d : Data} {poison : Nat} :
    (s.memWrite line mask d poison).forWays = s.forWays.memWrite line mask d poison := by
  unfold State.forWays
  rw [State.memWrite_withCoh, Laws.memWrite_coh]

theorem State.cisEvict_forWays {line : Nat} : (s.cisEvict line).forWays = s.forWays.cisEvict line := by
  unfold State.cisEvict
  rw [State.cisFind_forWays]
  cases s.cisFind line with
  | none => rfl
  | some c =>
    simp only [Option.map_some, forWay_sd, forWay_data, forWay_sp, State.delCis_forWays]
    split
    · rfl
    · rw [State.memWrite_forWays]

theorem State.cisSet_forWays {slice set : Nat} :
    s.forWays.cisSet slice set = tabMap (forWay s.coh.reds) (s.cisSet slice set) := by
  refine List.filter_map.trans (congrArg _ (List.filter_congr fun e _ => ?_))
  simp only [Function.comp_apply, forWay_slice, forWay_set]

/-- The lines that may give way to another are seen as they are: none has buffered reductions. -/
theorem State.eligible_forWays {l : Tab CisLine} {n : Nat} :
    ((tabMap (forWay s.coh.reds) l).filter fun e =>
      decide (e.2.way < n) && !e.2.pin && !s.forWays.hasReds e.1 && !s.forWays.busy e.1) =
    l.filter fun e => decide (e.2.way < n) && !e.2.pin && !s.hasReds e.1 && !s.busy e.1 := by
  have hpred : ∀ e : Nat × CisLine, (decide ((forWay s.coh.reds e.1 e.2).way < n) && !(forWay s.coh.reds e.1 e.2).pin &&
      !s.hasReds e.1 && !s.busy e.1) = (decide (e.2.way < n) && !e.2.pin && !s.hasReds e.1 && !s.busy e.1) := fun e => by
    simp only [forWay_way, forWay_pin]
  refine List.filter_map.trans ((congrArg (List.map _) (List.filter_congr fun e _ => hpred e)).trans ?_)
  refine (List.map_congr_left fun e he => ?_).trans (List.map_id _)
  have heligible := (List.mem_filter.mp he).2
  simp only [Bool.and_eq_true, Bool.not_eq_true'] at heligible
  obtain ⟨⟨-, hnoreds⟩, -⟩ := heligible
  exact congrArg (Prod.mk e.1) (forWay_noReds hnoreds)

theorem State.takeWay_forWays {slice set : Nat} {pin : Option Nat} :
    s.forWays.takeWay slice set pin = (s.takeWay slice set pin).map fun x => (x.1, x.2.forWays) := by
  have hway : ∀ w, ((s.forWays.cisSet slice set).any fun e => e.2.way == w) = (s.cisSet slice set).any fun e => e.2.way == w :=
    fun w => by
      rw [State.cisSet_forWays, tabMap, List.any_map]
      exact congrArg _ (funext fun e => congrArg (· == w) forWay_way)
  unfold State.takeWay
  simp only [hway]
  cases (List.range (pin.getD 24)).find? fun w => !(s.cisSet slice set).any fun e => e.2.way == w with
  | some w => rfl
  | none =>
    simp only [State.cisSet_forWays, State.eligible_forWays]
    cases oldest _ with
    | none => rfl
    | some v => simp only [Option.map_some, State.cisEvict_forWays]

/-! #### One way, and several -/

theorem State.cisPlace_isSome_forWays {line : Nat} : (s.forWays.cisPlace line).isSome = (s.cisPlace line).isSome := by
  simp only [State.cisPlace_eq, State.takeWay_forWays, Option.isSome_map]
  rfl

/-- Of a line with buffered reductions the search sees the same, whatever stamp the line takes. -/
theorem State.placed_forWays {line w : Nat} (h : s.hasReds line = true) :
    (s.forWays.placed line w).forWays = (s.placed line w).forWays := by
  unfold State.placed
  rw [State.setCis_forWays, State.setCis_forWays,
    show s.forWays.tick.2.forWays = s.forWays from State.forWays_forWays (s := s)]
  refine congrArg (s.forWays.setCis line) ?_
  exact forWay_reds (c := ⟨s.homeSlice line, lineSet line, w, [], 0, 0, 0, false, s.coh.serial⟩) h

theorem State.cisPlace_forWays {line : Nat} (h : s.hasReds line = true) :
    (s.forWays.cisPlace line).map State.forWays = (s.cisPlace line).map State.forWays := by
  rw [State.cisPlace_eq, State.cisPlace_eq, show s.forWays.homeSlice line = s.homeSlice line from rfl, State.takeWay_forWays]
  cases htake : s.takeWay (s.homeSlice line) (lineSet line) none with
  | none => rfl
  | some x =>
    have hreds : x.2.hasReds line = true := by
      rw [State.hasReds, (OnlyWays.takeWay htake).reds]
      exact h
    exact congrArg some (State.placed_forWays hreds)

/-- Two states that the search sees alike give ways to lines with buffered reductions, and then to one more, alike. -/
theorem State.placeAll_isSome_congr {l : List Nat} {line : Nat} (h : s.forWays = t.forWays) (hl : ∀ x ∈ l, s.hasReds x = true) :
    (s.placeAll (l ++ [line])).isSome = (t.placeAll (l ++ [line])).isSome := by
  have hreds : s.forWays.coh.reds = t.forWays.coh.reds := by rw [h]
  change s.coh.reds = t.coh.reds at hreds
  induction l generalizing s t with
  | nil =>
    have hone : ∀ u : State, (u.placeAll [line]).isSome = (u.forWays.cisPlace line).isSome := fun u => by
      rw [State.placeAll_cons, State.cisPlace_isSome_forWays]
      cases u.cisPlace line <;> rfl
    rw [List.nil_append, hone, hone, h]
  | cons x l ih =>
    have hx := hl x List.mem_cons_self
    have hview : (s.cisPlace x).map State.forWays = (t.cisPlace x).map State.forWays := by
      rw [← State.cisPlace_forWays hx, h]
      exact State.cisPlace_forWays (by rw [← hx, State.hasReds, State.hasReds, hreds])
    rw [List.cons_append, State.placeAll_cons, State.placeAll_cons]
    cases hs : s.cisPlace x with
    | none =>
      rw [hs, Option.map_none] at hview
      rw [Option.map_eq_none_iff.mp hview.symm]
    | some u =>
      rw [hs, Option.map_some] at hview
      obtain ⟨v, ht, hv⟩ := Option.map_eq_some_iff.mp hview.symm
      have hu := (OnlyWays.cisPlace hs).reds
      rw [ht, Option.bind_some, Option.bind_some]
      refine ih hv.symm (fun y hy => ?_) (by rw [hu, hreds, (OnlyWays.cisPlace ht).reds])
      rw [State.hasReds, hu]
      exact hl y (List.mem_cons_of_mem _ hy)

/-- The lines that come first for a way have buffered reductions. -/
theorem State.hasReds_of_mem_redsFirst {line x : Nat} (h : x ∈ s.redsFirst line) : s.hasReds x = true := by
  have hmem := (List.takeWhile_sublist _).subset h
  rw [List.mem_eraseDups, List.mem_map] at hmem
  obtain ⟨r, hr, rfl⟩ := hmem
  exact List.any_eq_true.mpr ⟨r, (List.mem_filter.mp hr).1, beq_self_eq_true _⟩

theorem State.redsFirst_forWays {line : Nat} : s.forWays.redsFirst line = s.redsFirst line := by
  unfold State.redsFirst
  simp only [State.cisFind_forWays, Option.isNone_map]
  rfl

/-- Whether a line finds a way does not depend on what the search does not see: cluster caches, write-back buffers, the
serial. -/
theorem State.cisAlloc_isSome_congr {line : Nat} (h : s.forWays = t.forWays) :
    (s.cisAlloc line).isSome = (t.cisAlloc line).isSome := by
  have hfind : (s.cisFind line).isSome = (t.cisFind line).isSome := by
    rw [← Option.isSome_map, ← State.cisFind_forWays, h, State.cisFind_forWays, Option.isSome_map]
  have hfirst : s.redsFirst line = t.redsFirst line := by rw [← State.redsFirst_forWays, h, State.redsFirst_forWays]
  rw [State.cisAlloc_eq, State.cisAlloc_eq, hfind, ← hfirst]
  split
  · rfl
  · exact State.placeAll_isSome_congr h fun _ => State.hasReds_of_mem_redsFirst

end
end Sys2Proof.Machine
end

section
/-! SUPPORT. Snoops at a cluster, their replies, write-backs, fills and the end of transactions (R252, R275, R279 to R284): what
each row leaves. -/

namespace Sys2Proof.Machine

section
variable {s : State} {cl line : Nat}

/-! ### Snoops, R280 -/

theorem State.snoopFind_cached {c : CcLine} (h : s.ccFind cl line = some c) : s.snoopFind cl line = some (c, false) := by
  simp only [State.snoopFind, h]

section
variable {kind : Nat} {x : Snoop}

/-- No snoop of the kind is on its way. -/
theorem State.snoop_none (h : s.coh.snoops.find? (fun x => x.kind == kind && x.target == cl && x.line == line) = none) :
    s.snoop kind cl line false = s := by
  simp only [State.snoop, h]

/-- A snoop that finds no copy says so. -/
theorem State.snoop_absent (hx : s.coh.snoops.find? (fun x => x.kind == kind && x.target == cl && x.line == line) = some x)
    (h : s.snoopFind cl line = none) :
    s.snoop kind cl line false = { s with coh := { s.coh with snoops := dropFirst (· == x) s.coh.snoops } }.addReply
      ⟨line, cl, false, none, false, false⟩ := by
  have hfind : ({ s with coh := { s.coh with snoops := dropFirst (· == x) s.coh.snoops } } : State).snoopFind cl line = none := h
  unfold State.snoop
  simp only [hx, Bool.false_eq_true, if_false, hfind]

variable {c : CcLine}

/-- The cluster cache that a snoop leaves: a shared copy after share, the copy itself after peek, none otherwise. -/
def snoopCache (kind key : Nat) (c : CcLine) (cc : Tab CcLine) : Tab CcLine :=
  if kind = 0 then tabIns cc key { c with st := .S } else if kind = 3 then cc else tabDel cc key

/-- The line that a snoop has forwarded to the requester. -/
def snoopGrant (kind : Nat) (x : Snoop) (line : Nat) (c : CcLine) : List Grant :=
  if kind = 0 then [⟨line, x.dest, .S, some (c.data, c.poison)⟩]
  else if kind = 2 then [⟨line, x.dest, .M, some (c.data, c.poison)⟩] else []

/-- A snoop that finds the line in the cluster cache. -/
theorem State.snoop_cached (hx : s.coh.snoops.find? (fun x => x.kind == kind && x.target == cl && x.line == line) = some x)
    (hc : s.ccFind cl line = some c) :
    s.snoop kind cl line false = { s with coh := { s.coh with
      snoops := dropFirst (· == x) s.coh.snoops
      cc := snoopCache kind (line * 128 + cl) c s.coh.cc
      grants := s.coh.grants ++ snoopGrant kind x line c
      replies := s.coh.replies ++ [⟨line, cl, true,
        if c.st = .M ∧ (kind = 0 ∨ kind = 3 ∨ kind = 4) then some (c.data, c.poison) else none,
        kind == 0 || kind == 2, false⟩] } } := by
  have hmatch := List.find?_some hx
  simp only [Bool.and_eq_true, beq_iff_eq] at hmatch
  obtain ⟨⟨hkind, htarget⟩, hline⟩ := hmatch
  have hfind : ({ s with coh := { s.coh with snoops := dropFirst (· == x) s.coh.snoops } } : State).snoopFind cl line =
      some (c, false) := State.snoopFind_cached hc
  unfold State.snoop
  simp only [hx, Bool.false_eq_true, if_false, hfind, State.snoopLeave, hkind, htarget, hline, snoopCache, snoopGrant]
  by_cases h0 : kind = 0
  · simp only [h0, if_true]
    rfl
  · by_cases h2 : kind = 2
    · simp only [h2]
      rfl
    · simp only [h0, h2, if_false, List.append_nil]
      split <;> rfl

theorem tabFind_snoopCache_share {key : Nat} {cc : Tab CcLine} (h : kind = 0) :
    tabFind (snoopCache kind key c cc) key = some { c with st := .S } := by
  rw [snoopCache, if_pos h, tabFind_ins_same]

theorem snoopCache_peek {key : Nat} {cc : Tab CcLine} (h : kind = 3) : snoopCache kind key c cc = cc := by
  rw [snoopCache, if_neg (by omega), if_pos h]

theorem tabFind_snoopCache_gone {key : Nat} {cc : Tab CcLine} (h : kind = 1 ∨ kind = 2 ∨ kind = 4) :
    tabFind (snoopCache kind key c cc) key = none := by
  rw [snoopCache, if_neg (by omega), if_neg (by omega), tabFind_del_same]

end

/-- The five snoops, each with its kind, of a cluster that has not just evicted the line. -/
def snoopRows (cl line : Nat) : List (Nat × Instr) :=
  [(0, .snpShare cl line false), (1, .snpInv cl line false), (2, .snpMove cl line false), (3, .snpPeek cl line false),
    (4, .snpRecall cl line false)]

theorem exec_snoopRow {e : Nat × Instr} (he : e ∈ snoopRows cl line) : exec e.2 s = .next (s.snoop e.1 cl line false) := by
  simp only [snoopRows, List.mem_cons, List.not_mem_nil, or_false] at he
  rcases he with rfl | rfl | rfl | rfl | rfl <;> rfl

theorem exec_snoopRow_cached {e : Nat × Instr} {x : Snoop} {c : CcLine} (he : e ∈ snoopRows cl line)
    (hx : s.coh.snoops.find? (fun x => x.kind == e.1 && x.target == cl && x.line == line) = some x)
    (hc : s.ccFind cl line = some c) :
    After e.2 s fun t => t.mem = s.mem ∧ t.cores = s.cores ∧ t.coh.snoops = dropFirst (· == x) s.coh.snoops ∧
      (e.1 = 0 → t.ccFind cl line = some { c with st := .S }) ∧ (e.1 = 3 → t.ccFind cl line = some c) ∧
      (e.1 = 1 ∨ e.1 = 2 ∨ e.1 = 4 → t.ccFind cl line = none) ∧
      t.coh.replies = s.coh.replies ++ [⟨line, cl, true,
        if c.st = .M ∧ (e.1 = 0 ∨ e.1 = 3 ∨ e.1 = 4) then some (c.data, c.poison) else none, e.1 == 0 || e.1 == 2, false⟩] ∧
      t.coh.grants = s.coh.grants ++ snoopGrant e.1 x line c := by
  refine ⟨_, (exec_snoopRow he).trans (congrArg _ (State.snoop_cached hx hc)), rfl, rfl, rfl, tabFind_snoopCache_share,
    fun h => ?_, tabFind_snoopCache_gone, rfl, rfl⟩
  exact (congrArg (tabFind · _) (snoopCache_peek h)).trans hc

/-! ### Replies, R283 -/

/-- A reply without data of a cluster whose buffer does not hold the line: the cluster is awaited no longer. -/
theorem exec_snoopReply_plain {r : SReply} {t : Txn}
    (hr : s.coh.replies.find? (fun r => r.cluster == cl && r.line == line) = some r)
    (ht : s.txn line = some t) (hdata : r.data = none) (hwbp : r.wbp = false) (hwb : s.wbFind cl line = none) :
    exec (.snoopReply cl line none) s =
      .next (({ s with coh := { s.coh with replies := dropFirst (· == r) s.coh.replies } }.setTxn line
      { t with await := setDel t.await cl, forwarded := t.forwarded || r.forwarded }).progress line) := by
  have hwb' : ({ s with coh := { s.coh with replies := dropFirst (· == r) s.coh.replies } } : State).wbFind cl line = none :=
    hwb
  change execSnoopReply cl line none s = _
  simp only [execSnoopReply, State.snoopReply, hr, ht, hdata, State.replyData, hwb', hwbp, Bool.or_self,
    Bool.false_and, Bool.false_eq_true, if_false]

/-! ### Write-backs, R275, R280, R283 -/

/-- An update of the first element that a test accepts is found in the list. -/
theorem mem_updFirst {α : Type} {p : α → Bool} {f : α → α} {x : α} {l : List α} (h : l.find? p = some x) : f x ∈ updFirst p f l := by
  induction l with
  | nil => simp at h
  | cons a l ih =>
    cases ha : p a with
    | false =>
      have htail : l.find? p = some x := by simpa [ha] using h
      simp [updFirst, ha, ih htail]
    | true =>
      obtain rfl : a = x := by simpa [ha] using h
      simp [updFirst, ha]

/-- The buffer entry of a line that leaves its cluster cache. -/
def State.evictedEnt (s : State) (cl line : Nat) (c : CcLine) : WbEnt :=
  ⟨cl, line, c.st == .M, c.data, c.poison, false, false, false, false, s.coh.serial⟩

/-- The state in which a line has left its cluster cache for the buffer. -/
def State.evicted (s : State) (cl line : Nat) (c : CcLine) : State :=
  { s with coh := { s.coh with
    cc := tabDel s.coh.cc (line * 128 + cl), serial := s.coh.serial + 1, wb := s.coh.wb ++ [s.evictedEnt cl line c] } }

section
variable {c : CcLine}

theorem State.evictCc_owned (hc : s.ccFind cl line = some c) (hst : c.st ≠ .S)
    (hroom : (s.coh.wb.filter fun w => w.cluster == cl).length < 16) : s.evictCc cl line = some (s.evicted cl line c) := by
  simp only [State.evictCc, hc, hst, if_false, ge_iff_le, Nat.not_le.mpr hroom]
  rfl

theorem State.wbFind_evicted (hwb : s.wbFind cl line = none) :
    (s.evicted cl line c).wbFind cl line = some (s.evictedEnt cl line c) := by
  have hent : [s.evictedEnt cl line c].find? (fun w => w.cluster == cl && w.line == line && !w.acked) =
      some (s.evictedEnt cl line c) := by
    simp [State.evictedEnt]
  exact List.find?_append.trans (by rw [hent, show s.coh.wb.find? _ = none from hwb]; rfl)

/-- The notice of a line just evicted is in its turn where no earlier request or notice to its slice is on its way. -/
theorem State.noticeTurn_evicted
    (hreqs : ∀ q ∈ s.coh.reqs, q.agent = 0 → q.kind.ofCache = true → q.cluster = cl →
      s.homeSlice (q.addr / 128) ≠ s.homeSlice line ∨ s.heldLine (q.addr / 128) = true)
    (hwbs : ∀ x ∈ s.coh.wb, x.cluster = cl → x.noticed = true ∨ s.homeSlice x.line ≠ s.homeSlice line) :
    (s.evicted cl line c).noticeTurn (s.evictedEnt cl line c) = true := by
  have hreq : (s.coh.reqs.any fun q => q.agent == 0 && q.kind.ofCache && q.cluster == cl && decide (q.id < s.coh.serial) &&
      s.homeSlice (q.addr / 128) == s.homeSlice line && !s.heldLine (q.addr / 128)) = false := by
    refine List.any_eq_false.mpr fun q hq h => ?_
    simp only [Bool.and_eq_true, beq_iff_eq, Bool.not_eq_true'] at h
    obtain ⟨⟨⟨⟨⟨hagent, hcache⟩, hcluster⟩, -⟩, hslice⟩, hheld⟩ := h
    rcases hreqs q hq hagent hcache hcluster with hother | hheld'
    · exact hother hslice
    · exact absurd (hheld.symm.trans hheld') nofun
  have hwb : ((s.coh.wb ++ [s.evictedEnt cl line c]).any fun x => !x.noticed && x.cluster == cl &&
      decide (x.serial < s.coh.serial) && s.homeSlice x.line == s.homeSlice line) = false := by
    refine List.any_eq_false.mpr fun x hx h => ?_
    simp only [Bool.and_eq_true, beq_iff_eq, Bool.not_eq_true', decide_eq_true_eq] at h
    obtain ⟨⟨⟨hnoticed, hcluster⟩, hserial⟩, hslice⟩ := h
    rcases List.mem_append.mp hx with hx | hx
    · rcases hwbs x hx hcluster with hnoticed' | hother
      · exact absurd (hnoticed.symm.trans hnoticed') nofun
      · exact hother hslice
    · rw [List.mem_singleton.mp hx] at hserial
      exact absurd hserial (Nat.lt_irrefl _)
  change (!_ && !_) = true
  rw [Bool.and_eq_true, Bool.not_eq_true', Bool.not_eq_true']
  exact ⟨hreq, hwb⟩

/-- A write-back of a line that its cluster evicts now is its notice, with the line in the buffer. -/
theorem State.writeBack_evicts {dirty : Bool} (hwb : s.wbFind cl line = none) (hc : s.ccFind cl line = some c)
    (hst : c.st = if dirty then CState.M else .E) (hroom : (s.coh.wb.filter fun w => w.cluster == cl).length < 16)
    (hturn : (s.evicted cl line c).noticeTurn (s.evictedEnt cl line c) = true) :
    s.writeBack dirty cl line none = (s.evicted cl line c).notice cl line (s.evictedEnt cl line c) none := by
  have hst' : c.st ≠ .S ∧ (c.st == .M) = dirty := by rw [hst]; cases dirty <;> decide
  have hgoes : (s.evictedEnt cl line c).dirty = dirty ∧ (s.evictedEnt cl line c).noticed = false ∧
      (s.evicted cl line c).noticeTurn (s.evictedEnt cl line c) = true := ⟨hst'.2, rfl, hturn⟩
  unfold State.writeBack
  simp only [hwb, hc, if_pos hst, State.evictCc_owned hc hst'.1 hroom, Option.getD_some, State.wbFind_evicted hwb, if_pos hgoes]

end

section
variable {w : WbEnt}

/-- A line that has a way takes the data brought to it. -/
theorem State.homeTake_isSome {d : Data × Nat} (h : (s.cisAlloc line).isSome = true) : ∃ t, s.homeTake line d = some t := by
  obtain ⟨u, hu⟩ := Option.isSome_iff_exists.mp h
  simp only [State.homeTake, State.allocW, hu]
  split
  · exact ⟨_, rfl⟩
  · exact ⟨_, rfl⟩

/-- The data of a notice whose entry has brought none: a dirty line is written while a way is to be had. The entry then stands
as it did, but that the home may have its data. -/
theorem State.noticeData_leaves (hw : s.wbFind cl line = some w) (hway : w.dirty = true → (s.cisAlloc line).isSome = true) :
    ∃ u v b, s.noticeData cl line w none = some u ∧ u.coh.cc = s.coh.cc ∧
      u.wbFind cl line = some v ∧ v = { w with home := b } := by
  have hmatch := List.find?_some hw
  unfold State.noticeData
  split
  · next hcond =>
    simp only [Bool.and_eq_true, Bool.not_eq_true'] at hcond
    obtain ⟨u, hu⟩ := State.homeTake_isSome (d := (w.data, w.poison)) (hway hcond.1)
    have hkeeps := OnlyWays.homeTake hu
    have hfound : u.wbFind cl line = some w := by rw [State.wbFind, hkeeps.wb]; exact hw
    refine ⟨u.wbUpd cl line fun w => { w with home := true }, _, true, ?_, hkeeps.cc, find?_updFirst hfound hmatch, rfl⟩
    exact congrArg (Option.map _) hu
  · exact ⟨s, w, w.home, rfl, rfl, hw, rfl⟩

/-- A notice of the owner of an idle line takes the line out of the directory and is acknowledged. -/
theorem State.notice_owned {u : State} (htxn : s.txn line = none) (hheld : s.heldLine line = false) (htaken : w.taken = false)
    (hdir : s.dirOf line = some (.owner cl)) (hdata : s.noticeData cl line w none = some u) :
    s.notice cl line w none = (u.setDir line none).wbUpd cl line fun w => { w with noticed := true, acked := true } := by
  simp only [State.notice, htxn, hheld, htaken, hdir, hdata, bne_self_eq_false, Bool.or_self, Bool.false_eq_true, if_false]

end

/-- A write-back of the owner, in its turn, of a line with a way at its home where it is dirty. -/
theorem exec_writeBack_leaves {dirty : Bool} {c : CcLine} (hwb : s.wbFind cl line = none) (hc : s.ccFind cl line = some c)
    (hst : c.st = if dirty then CState.M else .E) (hroom : (s.coh.wb.filter fun w => w.cluster == cl).length < 16)
    (hturn : (s.evicted cl line c).noticeTurn (s.evictedEnt cl line c) = true)
    (htxn : s.txn line = none) (hdir : s.dirOf line = some (.owner cl)) (hheld : s.heldLine line = false)
    (hway : dirty = true → (s.cisAlloc line).isSome = true) :
    After (if dirty then .wbDirty cl line none else .wbClean cl line) s fun t => t.ccFind cl line = none ∧ t.dirOf line = none ∧
      ∃ w ∈ t.coh.wb, w.cluster = cl ∧ w.line = line ∧ w.dirty = dirty ∧ w.noticed = true ∧ w.acked = true := by
  have hexec : exec (if dirty then .wbDirty cl line none else .wbClean cl line) s = .next (s.writeBack dirty cl line none) := by
    cases dirty <;> rfl
  have hdirty : (s.evictedEnt cl line c).dirty = dirty := by
    change (c.st == .M) = dirty
    rw [hst]
    cases dirty <;> decide
  have hway' : (s.evictedEnt cl line c).dirty = true → ((s.evicted cl line c).cisAlloc line).isSome = true := fun h => by
    have hsame : (s.evicted cl line c).forWays = s.forWays := rfl
    rw [State.cisAlloc_isSome_congr hsame]
    exact hway (hdirty.symm.trans h)
  obtain ⟨u, v, b, hdata, hcc, hv, rfl⟩ := State.noticeData_leaves (State.wbFind_evicted hwb) hway'
  have hnotice := State.notice_owned (s := s.evicted cl line c) (w := s.evictedEnt cl line c) htxn hheld rfl hdir hdata
  refine ⟨_, hexec.trans (congrArg _ ((State.writeBack_evicts hwb hc hst hroom hturn).trans hnotice)), ?_, ?_, _,
    mem_updFirst hv, rfl, rfl, hdirty, rfl, rfl⟩
  · change tabFind u.coh.cc _ = none
    rw [hcc]
    exact tabFind_del_same
  · change (tabFind (tabDel u.coh.dir line) line).map _ = none
    rw [tabFind_del_same]
    rfl

/-! ### Fills, R275 -/

@[simp] theorem State.setCc_pend {c : CcLine} : (s.setCc cl line c).coh.pend = s.coh.pend := rfl

/-- Without bytes that wait for the line there is nothing to merge. -/
theorem State.mergePend_none (h : ∀ q ∈ s.coh.pend, ¬(q.cluster = cl ∧ q.line = line)) : s.mergePend cl line = s := by
  have hnone : (s.coh.pend.filter fun q => q.cluster == cl && q.line == line) = [] := by
    simpa [List.filter_eq_nil_iff] using h
  unfold State.mergePend
  split
  · rfl
  · exact if_pos (.inr hnone)

/-- The line that a grant installs: its data, or what the cluster or the home holds. -/
def State.fillData (s : State) (cl line : Nat) (g : Grant) : Data × Nat :=
  match g.data, s.ccFind cl line with
  | some d, _ => d
  | none, some c => (c.data, c.poison)
  | none, none => s.homeData line

theorem State.fillData_some {g : Grant} {d : Data × Nat} (h : g.data = some d) : s.fillData cl line g = d := by
  simp only [State.fillData, h]

/-- A fill of a cache with room, with no bytes waiting for the line. -/
theorem exec_clusterFillResponse_room {g : Grant}
    (hg : s.coh.grants.find? (fun g => g.cluster == cl && g.line == line) = some g)
    (hpend : ∀ q ∈ s.coh.pend, ¬(q.cluster = cl ∧ q.line = line))
    (hroom : (s.ccFind cl line).isSome = true ∨ (s.coh.cc.filter fun e => e.1 % 128 == cl).length < ccLines) :
    exec (.clusterFillResponse cl line none none) s =
      .next ({ s with coh := { s.coh with grants := dropFirst (· == g) s.coh.grants } }.setCc cl line
        ⟨g.st, (s.fillData cl line g).1, (s.fillData cl line g).2⟩) := by
  have hroom' : ¬((s.ccFind cl line).isNone &&
      decide (ccLines ≤ (s.coh.cc.filter fun e => e.1 % 128 == cl).length)) = true := by
    rcases hroom with h | h
    · simp [Option.isNone_eq_false_iff.mpr h]
    · simp [Nat.not_le.mpr h]
  have hpend' : s.coh.pend.find? (fun q => q.cluster == cl && q.line == line) = none := by
    simpa [List.find?_eq_none] using hpend
  have hmerge : ∀ c,
      ({ s with coh := { s.coh with grants := dropFirst (· == g) s.coh.grants } }.setCc cl line c).mergePend cl line =
      { s with coh := { s.coh with grants := dropFirst (· == g) s.coh.grants } }.setCc cl line c :=
    fun c => State.mergePend_none hpend
  change execClusterFillResponse cl line none none s = _
  simp only [execClusterFillResponse, State.fill, hg, if_neg hroom', Option.filter_none, State.lineLink, hmerge, State.setCc_pend,
    hpend']
  rfl

theorem exec_clusterFillResponse_leaves {g : Grant}
    (hg : s.coh.grants.find? (fun g => g.cluster == cl && g.line == line) = some g)
    (hpend : ∀ q ∈ s.coh.pend, ¬(q.cluster = cl ∧ q.line = line))
    (hroom : (s.ccFind cl line).isSome = true ∨ (s.coh.cc.filter fun e => e.1 % 128 == cl).length < ccLines) :
    After (.clusterFillResponse cl line none none) s fun t =>
      (t.ccFind cl line).map (·.st) = some g.st ∧ (∀ d, g.data = some d → t.ccFind cl line = some ⟨g.st, d.1, d.2⟩) ∧
      t.coh.grants = dropFirst (· == g) s.coh.grants ∧ t.mem = s.mem ∧ t.coh.dir = s.coh.dir := by
  refine ⟨_, exec_clusterFillResponse_room hg hpend hroom, ?_, fun d hd => ?_, rfl, rfl, rfl⟩
  · rw [State.ccFind_setCc]
    rfl
  · rw [State.ccFind_setCc, State.fillData_some hd]

/-! ### The end of a transaction, R279, R281 -/

section
variable {t : Txn} (ht : s.txn line = some t)
include ht

theorem exec_homeTransactionComplete_goesOn (hserved : t.served = false) (hfull : s.dirFull line t = false) :
    exec (.homeTransactionComplete line) s = .next (s.progress line) := by
  change execHomeTransactionComplete line s = _
  simp only [execHomeTransactionComplete, ht, hserved, hfull, Bool.not_false, if_true, Bool.false_eq_true, if_false]

theorem exec_homeTransactionComplete_evicts {v : Nat} (hserved : t.served = false) (hfull : s.dirFull line t = true)
    (hawait : t.await = []) (hwbs : t.wbs = []) (hvictim : s.dirVictim line .rdOwn = some v) (hidle : s.txn v = none) :
    exec (.homeTransactionComplete line) s =
      .next (s.tick.2.startTxn ⟨s.coh.serial, .dirEvict, v * 128, 9, 0, 0, 0x3FF, 0, 0, 0, s.coh.serial⟩) := by
  have hbusy : s.busy v = false := by rw [State.busy, show tabFind s.coh.txns v = none from hidle]; rfl
  change execHomeTransactionComplete line s = _
  simp only [execHomeTransactionComplete, State.dirRoom, State.evictDir, ht, hserved, hfull, hawait, hwbs, hvictim, hbusy,
    Bool.not_false, Bool.and_self, beq_self_eq_true, if_true, Bool.false_eq_true, if_false]
  rfl

theorem exec_homeTransactionComplete_waits (hserved : t.served = true) (hgrant : ∃ g ∈ s.coh.grants, g.line = line) :
    exec (.homeTransactionComplete line) s = .next s := by
  have hany : (s.coh.grants.any fun g => g.line == line) = true := by simpa [List.any_eq_true] using hgrant
  change execHomeTransactionComplete line s = _
  simp only [execHomeTransactionComplete, ht, hserved, hany, Bool.not_true, Bool.false_eq_true, if_false, if_true]

theorem exec_homeTransactionComplete_ends (hserved : t.served = true) (hgrant : ∀ g ∈ s.coh.grants, g.line ≠ line) :
    exec (.homeTransactionComplete line) s =
      .next ({ s with coh := { s.coh with txns := tabDel s.coh.txns line } }.startNext line) := by
  have hany : (s.coh.grants.any fun g => g.line == line) = false := by simpa [List.any_eq_false] using hgrant
  change execHomeTransactionComplete line s = _
  simp only [execHomeTransactionComplete, ht, hserved, hany, Bool.not_true, Bool.false_eq_true, if_false]

end

end

/-- Settles O35: each row by what it answers; snoops, write-backs and fills by what they leave. That a dirty line written back
has a way still once it stands in the buffer is `State.cisAlloc_isSome_congr`. -/
theorem snoopsWritebacksAndFills : Obligations.SnoopsWritebacksAndFills := by
  intro s cl line rows
  refine ⟨fun e he x c hx hc => exec_snoopRow_cached he hx hc, fun e he x hx h => ?absent, fun e he h => ?idle,
    fun r t hr ht hdata hwbp hwb => exec_snoopReply_plain hr ht hdata hwbp hwb,
    fun dirty c hwb hc hst hroom htxn hdir hheld hway hreqs hwbs => ?writeBack, rfl,
    fun g hg hpend hroom => exec_clusterFillResponse_leaves hg hpend hroom, fun t ht =>
      ⟨exec_homeTransactionComplete_goesOn ht, fun v => exec_homeTransactionComplete_evicts ht,
        exec_homeTransactionComplete_waits ht, exec_homeTransactionComplete_ends ht⟩⟩
  case absent => rw [exec_snoopRow he, State.snoop_absent hx h]
  case idle => rw [exec_snoopRow he, State.snoop_none h]
  case writeBack =>
    exact exec_writeBack_leaves hwb hc hst hroom (State.noticeTurn_evicted hreqs hwbs) htxn hdir hheld hway

end Sys2Proof.Machine
end
